-- ==== Sys2Proof/Word.lean ====
section
/-!
DEFINITION. The word types of the KL7256 (R5, R22, R27): register words of 32 bits, 64-bit values, 64-byte lines,
bytes. Bit 0 is the least significant and multi-byte values are little-endian (spec/00_scope.md, Conventions).
-/

namespace Sys2Proof

/-- A register word or plate (R237). -/
abbrev Word := BitVec 32

/-- A 64-bit value: a foreman register (R260), a mask, a tag (R333). -/
abbrev Dword := BitVec 64

/-- A byte. -/
abbrev Byte := BitVec 8

/-- A line of 64 bytes (R5), byte 0 in bits 7:0. -/
abbrev Line := BitVec 512

end Sys2Proof
end

