-- ==== Sys2Proof/Syntax.lean ====
section
/-!
DEFINITION. The commands of the KL7256: one constructor of `Instr` for each row of spec/opcode_table.json. A command
is a step of the part that the spec calls whole and indivisible (spec/95_what_each_step_holds.md): a message on a
host port, the Twin Link, a management bus or a test port, a register access, a Bauri instruction executing on a
foreman, or an internal event whose time has come. Operands carry what the outside supplies: addresses, data, and the
physical finding of an event (whether a codeword decoded, what a sensor reads). The spec's table gives the rows no
bits, so an operand is a value, not an encoding.
-/

namespace Sys2Proof

/-- An access path of R289 (programs are the foremen, not a path). -/
inductive Path where
  | bar | mgmt | dbg
  deriving DecidableEq, Repr

/-- The mailbox a CXL command arrives on (R59): a host LD's own, the FM-owned LD's of a port, or the CXL component
command interface over MCTP on the management port. -/
inductive Mbox where
  | ld (lp : Fin 256)
  | fmld (port : Fin 16)
  | mctp
  deriving DecidableEq, Repr

/-- Width a port trained to (R36). -/
inductive LinkWidth where
  | x16 | x8 | x4
  deriving DecidableEq, Repr

/-- Rate a port trained to, in GT/s (R36). -/
inductive LinkRate where
  | g64 | g32 | g16
  deriving DecidableEq, Repr

/-- What a trained port reports (R36, R308). -/
structure Trained where
  width : LinkWidth
  rate : LinkRate
  reversed : Bool
  deriving DecidableEq, Repr

/-- The four event logs (R58). -/
inductive LogKind where
  | info | warning | failure | fatal
  deriving DecidableEq, Repr

/-- The verdict of a codeword transfer (R128, R143): the number of bits the BCH code corrected, or uncorrectable. -/
inductive Decode1 where
  | ok (corrected : Fin 22)
  | uncorrectable
  deriving DecidableEq, Repr

/-- What the check code of an on-chip memory finds in a word that is read (R27). -/
inductive Ecc where
  | clean | single | double
  deriving DecidableEq, Repr

/-- What it finds in the words that a host read looks at: the frame directory, the map cache, the merge buffer. -/
structure Checks where
  dir : Ecc := .clean
  cache : Ecc := .clean
  merge : Ecc := .clean
  deriving DecidableEq, Repr

/-- MEMORY_SPACE_ENABLE: the LD, and whether its host has enabled viral for it (R39, R85). -/
structure EnableWrite where
  lp : Fin 256
  viral : Bool
  deriving DecidableEq, Repr

/-- The tag of a host read, and what the check codes find in the words that the read looks at (R27). -/
structure ReadTag where
  tag : BitVec 16
  chk : Checks := {}
  deriving DecidableEq, Repr

/-- A fill that ends: its frame, and the codewords of the page that did not decode (R97, R139). -/
structure FillEnd where
  frame : Nat
  bad : List (Fin 16 × Fin 10) := []
  deriving DecidableEq, Repr

/-- What a visit of the patrol finds: the verdict of the codeword, and a page of the wordline that fails its CRC-32C (R178, R185). -/
structure VisitFinding where
  res : Decode1
  crcBad : Bool := false
  deriving DecidableEq, Repr

/-- The immediate of a load, and what the check code of the scratch memory finds in the doubleword that holds its bytes (R27). -/
structure LoadOffset where
  imm : BitVec 14
  ecc : Ecc := .clean
  deriving DecidableEq, Repr

/-- A line of a scan: the unit, and the channel indices of the line's stripe whose codeword did not decode, where it is read from media. -/
structure ScanStep where
  cu : Fin 4
  bad : List (Fin 10) := []
  deriving DecidableEq, Repr

/-- A line of Seam: what the comparison of VERIFY finds (R332), and the channel indices of the line's stripe whose codeword did not decode,
where it is read from media. -/
structure RewriteFinding where
  verifyOk : Bool
  bad : List (Fin 10) := []
  deriving DecidableEq, Repr

/-- The start of AON: the slot identity on the pins, and whether a copy of the stored DTC reads (R17). -/
structure AonStart where
  slotId : Fin 32
  dtcReads : Bool
  deriving DecidableEq, Repr

/-- Projected waits MED reports, in ns: Standard and Bulk, per channel set (R83). -/
structure Waits where
  stdA : Nat
  stdB : Nat
  bulkA : Nat
  bulkB : Nat
  deriving DecidableEq, Repr

/-- The kind of a rail fault (R365 PWR_RSTAT.KIND). -/
inductive RailKind where
  | under | overvolt | overcurrent | protection
  deriving DecidableEq, Repr

/-- Physical findings of recovery (R207, R208): the spec decides the start kind from them. -/
structure RecoveryFinding where
  /-- A copy of the Seed Store's persistence record reads (R207). -/
  precReads : Bool
  /-- A copy of the Seed Store's pairing record reads (R216). -/
  pairReads : Bool
  /-- The first journal page that is unreadable in both copies before the end of replay (R143). -/
  journalLost : Option Nat
  /-- Journal pages of which one copy is unreadable: sequence number, which copy (R143). -/
  journalOne : List (Nat × Fin 2)
  /-- Checkpoints whose root is not valid: its CRC, its area or one of its 320 stripe blocks (R138). -/
  badRoots : List Nat
  /-- Die-blocks of Pending-reset and Resetting stripe blocks whose wordline 0 reads as blank (R158). -/
  blank : List (Fin 20 × Fin 16384 × Fin 10)
  /-- Manifest, image pages and marker as they read: the marker is valid, the manifest is complete. -/
  markerReads : Bool
  manifestReads : Bool
  /-- Device pages of manifest records whose image pages do not decode, or that no image page covers (R207). -/
  badImage : List Nat
  /-- How many of the newest witness rows do not read, and the age bucket that decodes the newest that does best; none when no row
  decodes under any bucket (R176). -/
  witness : Option (Nat × Fin 28)
  /-- The persisted reference tables read (R173). -/
  tablesRead : Bool
  /-- Segments whose MS stamp the settling sweep moves: stripe group, block, segment, best bucket (R177). -/
  sweep : List (Fin 20 × Fin 16384 × Fin 8 × Fin 28)
  deriving DecidableEq, Repr

/-- Every command. The operand comments give the row's rule. -/
inductive Instr where
  -- time and frames (R15–R25), on-chip memories (R30)
  | frameBoundary
  | beacon (isl : Fin 41) (drift : Int) (heard : Bool) (echoed : Bool)
  | timeSuspect (isl : Fin 41)
  | islandStall (isl : Fin 41)
  | timePllAdjust (ppb : Int)
  | dtcSave
  | keySlotDestroy (slot : Fin 4098)
  | backgroundTestRegion (mem : Fin 16) (fails : Bool)
  -- host ports (R36–R46)
  | linkTrained (port : Fin 16) (t : Option Trained)
  | linkRecoveryOrDown (port : Fin 16) (down : Bool)
  | linkReturnL0 (port : Fin 16)
  | responseBoundDiscard (id : Nat)
  | perstAssert (port : Fin 16)
  | perstDeassert (port : Fin 16)
  | functionLevelReset (lp : Fin 256)
  | aspmL1Entry (port : Fin 16)
  | aspmL1Exit (port : Fin 16)
  | memorySpaceEnable (lp : EnableWrite)
  | hdmDecoderCommit (lp : Fin 256) (dec : Fin 4) (base : Nat) (size : Nat) (ways : Fin 4) (gran : Fin 7) (pos : Fin 8)
      (skip : Nat)
  -- CXL.mem (R48)
  | memRd (lp : Fin 256) (hpa : Nat) (tag : ReadTag)
  | memRdData (lp : Fin 256) (hpa : Nat) (tag : ReadTag)
  | memSpecRd (lp : Fin 256) (hpa : Nat)
  | memInv (lp : Fin 256) (hpa : Nat) (tag : BitVec 16) (nt : Bool)
  | memWr (lp : Fin 256) (hpa : Nat) (tag : BitVec 16) (data : Line) (poison : Bool)
  | memWrPtl (lp : Fin 256) (hpa : Nat) (tag : BitVec 16) (data : Line) (be : Dword) (poison : Bool)
  | m2sProtocolError (lp : Fin 256)
  | deadlinePoison (id : Nat)
  | syncAckLate (id : Nat)
  | gpfPhase1 (port : Fin 16)
  | gpfPhase2 (port : Fin 16)
  | gpfPhase2Cleaned (port : Fin 16)
  -- mailbox commands (R59–R68)
  | getEventRecords (m : Mbox) (log : LogKind)
  | clearEventRecords (m : Mbox) (log : LogKind) (all : Bool) (handles : List Nat)
  | getEventInterruptPolicy (m : Mbox)
  | setEventInterruptPolicy (m : Mbox) (policy : BitVec 32)
  | getTimestamp (m : Mbox)
  | setTimestamp (m : Mbox) (ts : Nat)
  | getSupportedLogs (m : Mbox)
  | getLog (m : Mbox) (vendor : Bool) (offset : Nat) (len : Nat)
  | identifyMemoryDevice (m : Mbox)
  | getPartitionInfo (m : Mbox)
  | getHealthInfo (m : Mbox)
  | getAlertConfiguration (m : Mbox)
  | setAlertConfiguration (m : Mbox) (v : BitVec 96)
  | getShutdownState (m : Mbox)
  | setShutdownState (m : Mbox) (dirty : Bool)
  | getPoisonList (m : Mbox) (dpa : Nat) (len : Nat)
  | injectPoison (m : Mbox) (dpa : Nat)
  | clearPoison (m : Mbox) (dpa : Nat) (data : Line)
  | getDcConfig (m : Mbox)
  | getDcExtentList (m : Mbox) (lp : Fin 256)
  | addDcResponse (m : Mbox) (dpaGran : Nat) (accept : Bool)
  | releaseDc (m : Mbox) (dpaGran : Nat)
  | getLdInfo (m : Mbox)
  | getLdAllocations (m : Mbox) (port : Fin 16)
  | setLdAllocations (m : Mbox) (port : Fin 16) (first : Fin 16) (ranges : List (Nat × Nat))
  | getQosControl (m : Mbox) (port : Fin 16)
  | setQosControl (m : Mbox) (port : Fin 16) (v : BitVec 64)
  | getQosStatus (m : Mbox) (port : Fin 16)
  | getQosAllocatedLimitBw (m : Mbox) (port : Fin 16)
  | setQosAllocatedLimitBw (m : Mbox) (port : Fin 16) (first : Fin 16) (vals : List (BitVec 8 × BitVec 8))
  | getDcRegionConfig (m : Mbox) (lp : Fin 256)
  | initiateDcAdd (m : Mbox) (lp : Fin 256) (dpaGran : Nat) (devGran : Nat) (count : Nat)
  | initiateDcRelease (m : Mbox) (lp : Fin 256) (dpaGran : Nat)
  | forcedDcRelease (m : Mbox) (lp : Fin 256) (dpaGran : Nat)
  | getFwInfo (m : Mbox)
  | transferFw (m : Mbox) (slot : Fin 3) (version : Word) (valid : Bool)
  | activateFw (m : Mbox) (slot : Fin 3) (online : Bool)
  | submitProgram (m : Mbox) (entry : Word) (steps : Word) (words : List Word) (upset : Bool)
  | getProgramResult (m : Mbox) (ticket : Word)
  | readPlates (m : Mbox) (first : Word) (count : Nat)
  | setControlPort (m : Mbox) (port : Nat)
  | twinTakeover (m : Mbox) (epoch : Dword) (first : Nat) (count : Nat)
  | getClassStatus (m : Mbox) (lp : Nat)
  | getLdRegionMap (m : Mbox) (lp : Nat) (first : Nat)
  | getPersistenceStatus (m : Mbox)
  | readRegisters (first : Nat) (count : Nat)
  | writeRegisters (first : Nat) (vals : List Word)
  | alertResponseAddress
  -- hopper (R87–R121)
  | hopperAccessDone (id : Nat) (lanes : BitVec 16)
  | hopperRewrite (ch : Fin 54)
  | hopperScrub (frame : Nat) (line : Fin 64) (lanes : BitVec 16)
  | hopperChannelFail (ch : Fin 54) (why : Fin 3)
  | hopperRefresh (ch : Fin 54) (bank : Fin 16)
  | hopperStarvation (ch : Fin 54) (req : Fin 8) (waits : Bool)
  | postedWriteDrain (ch : Fin 54)
  | codewordTransferDone (id : Nat) (x : Fin 10) (res : Decode1) (w : Waits)
  | stripeMergeShort (id : Nat)
  | backgroundFillDone (frame : FillEnd)
  | mergeComplete (page : Nat) (line : Fin 64)
  | cleanStart
  | cleanComplete (frame : Nat)
  | pinLoadComplete (region : Fin 4096)
  | mapEntryRebuild (page : Nat) (unreadable : Bool)
  -- media (R122–R145), upkeep (R146–R168)
  | programVerifyDone (row : Nat) (x : Fin 10) (ok : Bool)
  | rowWaitExpiry (row : Nat)
  | journalFlushTimer
  | checkpointStart
  | dieBlockResetDone (sg : Fin 20) (blk : Fin 16384) (x : Fin 10) (ok : Bool)
  | dieStatusTimeout (die : Fin 200)
  | mediaChannelFail (ch : Fin 20) (training : Bool)
  | pendingResetTimer (sg : Fin 20) (blk : Fin 16384)
  | discard (region : Fin 4096) (first : Word) (count : Word)
  | secureDiscard (region : Fin 4096)
  -- drift (R169–R186)
  | ageBucketReeval (late : Bool)
  | equivAgeTick
  | tempBucketChange (die : Fin 200)
  | firebossRateTick
  | firebossVisit (sg : Fin 20) (blk : Fin 16384) (x : Fin 10) (wl : Fin 512) (res : VisitFinding) (dMinus : List Nat)
      (dPlus : List Nat)
  | refreshOverdue (sg : Fin 20) (blk : Fin 16384)
  -- persistence (R187–R214)
  | capTestStart
  | capTestDone (cap : Nat) (esr : Nat)
  | capTestDefer
  | capTestRequest
  | budgetRecompute (vhu : Nat)
  | undervoltage
  | pwrfailIn
  | vinOvervoltage (mv : Nat)
  | debounceEnd (vinGood : Bool) (pfHigh : Bool)
  | evacuateCommit (cause : Fin 9)
  | evacManifestDurable
  | evacLinksOff
  | evacImageDone
  | evacMetadataDurable
  | evacMarkerDurable
  | evacPowerDown
  | markerThreshold
  | vhuFloor
  | vinReturnWaitExpiry
  | evacuateTestCommand (p : Path)
  | dirtyRollWindow
  | rollBase
  | cleanShutdown
  | suspectAck (p : Path)
  | recovery (f : RecoveryFinding)
  -- twin (R215–R236)
  | line (region : Fin 4096) (lineNo : Nat) (msn : Nat) (gen : Nat) (ct : Line) (poison sidecar sync resync : Bool)
  | part (region : Fin 4096) (lineNo : Nat) (msn : Nat) (gen : Nat) (mask : Dword) (data : Line) (poison : Bool)
  | ack (msn : Nat)
  | hb (state : Fin 2) (epoch : Nat) (msn : Nat) (dtc : Nat)
  | hbSend
  | hello (ident : Dword) (epoch : Nat) (paired : Bool) (peerOfPeer : Dword)
  | propose (epoch : Nat)
  | commit (epoch : Nat)
  | detach (epoch : Nat)
  | regcfg (region : Fin 4096) (w0 w1 : Word) (gen : Nat) (erase : Bool) (seamGen : Option Nat)
  | take (epoch : Nat) (regions : List (Fin 4096))
  | rsopen (region : Fin 4096) (page : Nat) (msn : Nat)
  | rpull (region : Fin 4096) (page : Nat)
  | keychk (region : Fin 4096) (gen : Nat) (ct : Line)
  | bitmap (region : Fin 4096) (pages : List Nat)
  | nak (seq : BitVec 16)
  | twinFlitCrcError (seq : BitVec 16)
  | heartbeatPulse
  | sidebandSilent
  | linkSilent
  | lagLimit
  | twinLinkDown
  | twinLinkTrained (ok : Bool)
  | pairingStrobe (seen : Option (Fin 2))
  | twAttach
  | twDetach
  | twRepair (region : Fin 4096) (acceptLag : Bool)
  -- programs (R237–R259)
  | commitUnitValidate
  -- Bauri (R260–R288): the foreman and the instruction's fields
  | add (f : Fin 8) (rd ra rb : BitVec 5)
  | sub (f : Fin 8) (rd ra rb : BitVec 5)
  | and (f : Fin 8) (rd ra rb : BitVec 5)
  | or (f : Fin 8) (rd ra rb : BitVec 5)
  | xor (f : Fin 8) (rd ra rb : BitVec 5)
  | sll (f : Fin 8) (rd ra rb : BitVec 5)
  | srl (f : Fin 8) (rd ra rb : BitVec 5)
  | sra (f : Fin 8) (rd ra rb : BitVec 5)
  | slt (f : Fin 8) (rd ra rb : BitVec 5)
  | sltu (f : Fin 8) (rd ra rb : BitVec 5)
  | mul (f : Fin 8) (rd ra rb : BitVec 5)
  | mulhu (f : Fin 8) (rd ra rb : BitVec 5)
  | divu (f : Fin 8) (rd ra rb : BitVec 5)
  | remu (f : Fin 8) (rd ra rb : BitVec 5)
  | minu (f : Fin 8) (rd ra rb : BitVec 5)
  | maxu (f : Fin 8) (rd ra rb : BitVec 5)
  | addi (f : Fin 8) (rd rs : BitVec 5) (imm : BitVec 14)
  | andi (f : Fin 8) (rd rs : BitVec 5) (imm : BitVec 14)
  | ori (f : Fin 8) (rd rs : BitVec 5) (imm : BitVec 14)
  | xori (f : Fin 8) (rd rs : BitVec 5) (imm : BitVec 14)
  | slti (f : Fin 8) (rd rs : BitVec 5) (imm : BitVec 14)
  | sltiu (f : Fin 8) (rd rs : BitVec 5) (imm : BitVec 14)
  | slli (f : Fin 8) (rd rs : BitVec 5) (sh : BitVec 6)
  | srli (f : Fin 8) (rd rs : BitVec 5) (sh : BitVec 6)
  | srai (f : Fin 8) (rd rs : BitVec 5) (sh : BitVec 6)
  | li (f : Fin 8) (rd : BitVec 5) (imm : BitVec 21)
  | lih (f : Fin 8) (rd : BitVec 5) (imm : BitVec 21)
  | ld8 (f : Fin 8) (rd rs : BitVec 5) (imm : LoadOffset)
  | ld16 (f : Fin 8) (rd rs : BitVec 5) (imm : LoadOffset)
  | ld32 (f : Fin 8) (rd rs : BitVec 5) (imm : LoadOffset)
  | ld64 (f : Fin 8) (rd rs : BitVec 5) (imm : LoadOffset)
  | st8 (f : Fin 8) (rd rs : BitVec 5) (imm : BitVec 14)
  | st16 (f : Fin 8) (rd rs : BitVec 5) (imm : BitVec 14)
  | st32 (f : Fin 8) (rd rs : BitVec 5) (imm : BitVec 14)
  | st64 (f : Fin 8) (rd rs : BitVec 5) (imm : BitVec 14)
  | br (f : Fin 8) (ra rb : BitVec 5) (cond : Fin 6) (off : BitVec 10)
  | j (f : Fin 8) (imm : BitVec 21)
  | call (f : Fin 8) (imm : BitVec 21)
  | ret (f : Fin 8)
  | loop (f : Fin 8) (ra : BitVec 5) (off : BitVec 10)
  | loopi (f : Fin 8) (count : BitVec 11) (off : BitVec 10)
  | lend (f : Fin 8)
  | pld (f : Fin 8) (r : BitVec 5) (x : Bool) (idx : BitVec 20)
  | pst (f : Fin 8) (r : BitVec 5) (x : Bool) (idx : BitVec 20)
  | pwait (f : Fin 8) (r : BitVec 5) (x : Bool) (idx : BitVec 20)
  | pwaitEnd (f : Fin 8)
  | lrd (f : Fin 8) (rd ra rb : BitVec 5)
  | lrdx (f : Fin 8) (rd ra rb : BitVec 5)
  | lwr (f : Fin 8) (rd ra rb : BitVec 5)
  | lzero (f : Fin 8) (rd ra : BitVec 5)
  | lflush (f : Fin 8) (rd ra : BitVec 5)
  | lpin (f : Fin 8) (rd ra : BitVec 5)
  | lunpin (f : Fin 8) (rd ra : BitVec 5)
  | lineOpDone (f : Fin 8)
  | lineOpDeadline (f : Fin 8)
  | cusel (f : Fin 8) (rd ra : BitVec 5)
  | cufeed (f : Fin 8) (ra rb : BitVec 5)
  | cuget (f : Fin 8) (rd : BitVec 5)
  | cuput (f : Fin 8) (ra : BitVec 5)
  | txb (f : Fin 8)
  | txc (f : Fin 8) (rd : BitVec 5)
  | txa (f : Fin 8)
  | evwait (f : Fin 8) (rd rs : BitVec 5) (imm : BitVec 14)
  | evwaitEnd (f : Fin 8)
  | evsig (f : Fin 8) (rd : BitVec 5) (code : BitVec 8)
  | evack (f : Fin 8) (rd rs : BitVec 5) (imm : BitVec 14)
  | time (f : Fin 8) (rd : BitVec 5)
  | halt (f : Fin 8)
  | yield (f : Fin 8) (imm : BitVec 14)
  | yieldEnd (f : Fin 8)
  | trap (f : Fin 8) (imm : BitVec 14)
  | stepBudgetExhausted (f : Fin 8)
  -- register paths (R289–R301), blocks reached by them
  | registerWrite (p : Path) (off : Nat) (be : BitVec 8) (vals : List Word)
  | rlRead (p : Path) (off : Nat)
  | peakReadClear (p : Path) (off : Nat)
  | countAckWrite (p : Path) (off : Nat) (v : Word)
  | evtSrcackWrite (p : Path) (v : Word)
  | eventHoldoffExpiry (src : Fin 576)
  | hopFlip (p : Path) (v : Word)
  | cntClr (p : Path) (v : Word)
  | cuCfgWrite (p : Path) (v : Word)
  | cuPutHiWrite (p : Path) (v : Word)
  | scanGo (p : Path) (raw : Bool)
  | scanStop (p : Path)
  | scanLine (cu : ScanStep)
  | tallyFetch (p : Path) (readable : Bool)
  | tallyFlushTimer
  | seedDataRead (p : Path)
  | seedDataWrite (p : Path) (v : Word)
  | seedCommit (p : Path)
  | seedDiscard (p : Path)
  | seedUnlock (p : Path) (zone : Fin 8) (write : Bool)
  | seedRelock (p : Path) (zone : Fin 8) (write : Bool)
  | seedSetpwd (p : Path) (zone : Fin 8) (write : Bool)
  | seedZclear (p : Path) (zone : Fin 8)
  | seedRecall (p : Path)
  | recallEnd
  | zoneLockoutEnd (zone : Fin 8)
  | seedWriteDone (ok : Bool)
  | psdataRead (p : Path)
  | psdataWrite (p : Path) (v : Word)
  -- encryption (R314–R339)
  | keyLoad (slot : Fin 4096) (words : List Word)
  | keyClear (slot : Fin 4096)
  | cryptoErase (slot : Fin 4096)
  | seamStart (eng : Fin 2) (ctl : Word) (words : List Word)
  | seamLineRewrite (eng : Fin 2) (verifyOk : RewriteFinding)
  -- power and thermal (R340–R366)
  | vinPowerUp (mv : Nat)
  | aonResetRelease (slotId : AonStart)
  | railInWindow (k : Fin 12)
  | railBringupTimeout (k : Fin 12)
  | railFallen (k : Fin 12)
  | railFault (k : Fin 12) (kind : RailKind) (readings : List (BitVec 16))
  | railRetryExpiry (k : Fin 12)
  | pwrRcmdRestart (p : Path)
  | pcmdM0
  | pcmdM3
  | pcmdM4
  | dozeTimer
  | wakeComplete
  | thermalModelUpdate (raws : List Int) (devs : List Int) (dies : List Int) (inlet : Int) (volts : List (BitVec 16))
      (pin : BitVec 16)
  | autoRestart
  -- start (R432–R445)
  | imageLoadDone (valid0 valid1 valid2 : Bool)
  | trainingDone (hopFail : List (Fin 54)) (medFail : List (Fin 20))
  -- test and debug port (R367–R379)
  | extest
  | idcode
  | sample
  | preload (v : BitVec 64)
  | clamp
  | highz
  | bypass
  | dbglvl (req : Fin 4)
  | dbgacc (op : Fin 4) (word : BitVec 19) (data : Word)
  | trstAssert
  | debugHalt (req : BitVec 8)
  | debugStep (f : Fin 8)
  | debugScratchAccess (write : Option Word) (core : Bool)
  | debugLineRead
  | debugRawRead
  | debugLineWrite
  | debugFlush
  | debugPin
  | debugUnpin
  | debugLineCmdDone
  | dqLenWrite (v : Word)
  | dqDataAppend (v : Word)
  | dqSubmit (upset : Bool)
  | hostLinkReplay (port : Fin 16) (flits : Nat)
  | twinHbInEdge (wide : Bool)
  | lagWarning
  | aonPowerLoss
  | debugMediaHoldExpiry
  | illegalWord (f : Fin 8)
  | fetchOutsideArea (f : Fin 8)
  | twinFlit (seq : BitVec 16) (ackSeq : BitVec 16) (credits : Nat)
  | i3cDynamicAddress (addr : BitVec 7)
  deriving DecidableEq, Repr

end Sys2Proof
end

