-- ==== Sys2Proof/Decode.lean ====
section
/-!
DEFINITION. The command that a word spells. The block's table of operations gives no row any bits: its rows are
operations and events with operands, not encodings. No word spells a command, so the answer is none for every word.
-/

namespace Sys2Proof

/-- The command that `w`, of `nbits` bits, spells by the bits of spec/opcode_table.json: no row has any. -/
def decodeTableWord (_nbits _w : Nat) : Option Instr := none

end Sys2Proof
end

