-- ==== Sys2Proof/Config.lean ====
section
/-!
DEFINITION. What one part or one implementation fixes and the spec does not give a value for: factory values, the
firmware image, and the free values. Each is an opaque constant without a body, so that nothing can be proved of it
and every statement holds whatever it is. Each names its log entry.
-/

namespace Sys2Proof.Config

/-- Module identity written at manufacture (R215; TW_ID reset "Factory", R236). Log entry 11. -/
opaque moduleId : BitVec 64

/-- Silicon stepping (GLB_REV.STEP, R307 "Factory"). Log entry 11. -/
opaque step : BitVec 8

/-- Version of the firmware image in boot-flash slot n: MAJOR, MINOR, BUILD as GLB_FWVER lays them out (R307, R434).
Log entry 12. -/
opaque fwVersion : Nat → BitVec 32

/-- Word `w` of hook table entry `h` (0-31) in the firmware image of slot n (R255, R434). Log entry 12. -/
opaque imageHookWord : Nat → Nat → Nat → BitVec 32

/-- Word `w` of trigger entry `t` (56-63) in the image of slot n (R404, R434). Log entry 12. -/
opaque imageTrigWord : Nat → Nat → Nat → BitVec 32

/-- Word `a` of the base shift of the image of slot n, as loaded into the program store (R241, R434). Log entry 12. -/
opaque imageBaseWord : Nat → Nat → BitVec 32

/-- Factory reference offset of a drift-table entry: die, age bucket, temperature bucket, boundary (R173, R186
"Factory"). Log entry 11. -/
opaque factoryOffset : Nat → Nat → Nat → Nat → BitVec 8

/-- 2^(r/100) in units of 2^-32, for r = 1..99: the fractional part of the equivalent-age rate of R171, whose
rounding the spec does not give. Log entry 13. -/
opaque pow2Frac : Nat → Nat

/-- Whether MED expects the operation that keeps a target die busy to end within 2 µs of the projected transfer (R141); the spec does not
say how it expects. Log entry 97. -/
opaque endsSoon : Nat → Bool

/-- Image lines that Evacuate e had written, in its pages below the lowest that had not verified, when VHU reached the marker threshold
(R468): a finding of the hardware. Log entry 115. -/
opaque imageLines : Nat → Nat

/-- Refresh stall of the map-entry read of the n-th booking, in ns; the model uses it modulo 31, so it lies in the
0-30 that R77 states. Log entry 14. -/
opaque mapReadStall : Nat → Nat

/-- The word returned for a CXL-defined field whose layout or value the spec leaves to CXL 3.1: command opcode,
field number (R59). Log entry 16. -/
opaque cxlField : Nat → Nat → Nat

/-- Kind code and value field of an upkeep Tally record (R403, type 0x000F): the spec gives the fields and no codes.
Argument: what happened (0 state entered, 1 tables lost, 2 unrefreshable mark), and its value. Log entry 17. -/
opaque upkeepKind : Nat → BitVec 8
opaque upkeepValue : Nat → Nat → BitVec 64

/-- Check bits of a stored line, byte k for word k (R111, R277 LRDX): the spec names the code and does not give it. Log entry 18. -/
opaque lineCheck : BitVec 512 → BitVec 64

/-- The bits of a stored line, data and check bits, that a lane carries (R111). Log entry 18. -/
opaque laneMask : Nat → BitVec 576

/-- Bits in error of the n-th upset that a hopper line read meets (R111, R277 LRDX). Log entry 18. -/
opaque upset : Nat → BitVec 576

/-- A line's ciphertext where the spec names the line and gives it no content: the record of a discard on the Twin Link
(R222). Log entry 19. -/
opaque openLine : Nat → BitVec 512

/-- Contents of the boundary-scan register at its n-th capture: the state of the pins (R368). Log entry 15. -/
opaque boundaryScan : Nat → BitVec 64

end Sys2Proof.Config
end

