-- ==== Sys2Proof/Machine/Tbl.lean ====
section
/-!
DEFINITION. Sparse tables and bit-field helpers. A table of the module (frames, map entries, plates, per-instance
records) is a list of (index, value) pairs in one canonical form: indices strictly rising, and no entry equal to
what an unlisted index reads as, so that equal tables are equal data.
-/

namespace Sys2Proof.Machine

/-- A sparse table: index and value, indices strictly rising. -/
abbrev Tbl (α : Type) := List (Nat × α)

/-- The value at `n`; an unlisted index reads as `d`. -/
def tget {α : Type} (d : α) : Tbl α → Nat → α
  | [], _ => d
  | (k, v) :: t, n => if k = n then v else tget d t n

/-- Write `v` at `n`, keeping the canonical form: writing what an unlisted index reads as removes the entry. -/
def tput {α : Type} [DecidableEq α] (d : α) : Tbl α → Nat → α → Tbl α
  | [], n, v => if v = d then [] else [(n, v)]
  | (k, x) :: t, n, v =>
    if n < k then (if v = d then (k, x) :: t else (n, v) :: (k, x) :: t)
    else if n = k then (if v = d then t else (n, v) :: t)
    else (k, x) :: tput d t n v

/-- Change the value at `n` by `f`. -/
def tmod {α : Type} [DecidableEq α] (d : α) (t : Tbl α) (n : Nat) (f : α → α) : Tbl α :=
  tput d t n (f (tget d t n))

/-- Change every listed value by `f`. -/
def tmap {α : Type} [DecidableEq α] (d : α) (f : α → α) (t : Tbl α) : Tbl α :=
  t.filterMap (fun e => if f e.2 = d then none else some (e.1, f e.2))

/-- Every index of `t` lies above `m`, rising, and no value is the default. -/
def twfFrom {α : Type} [DecidableEq α] (d : α) : Option Nat → Tbl α → Bool
  | _, [] => true
  | lo, (k, v) :: t =>
    (match lo with | none => true | some m => decide (m < k)) && decide (v ≠ d) && twfFrom d (some k) t

/-- The canonical form of a table. -/
def twf {α : Type} [DecidableEq α] (d : α) (t : Tbl α) : Bool := twfFrom d none t

/-- Drop every entry whose index fails `p`. -/
def tfilter {α : Type} (p : Nat → α → Bool) (t : Tbl α) : Tbl α := t.filter (fun e => p e.1 e.2)

/-- Bits hi:lo of a word, as a number (spec/00_scope.md, Conventions: bit ranges). -/
def bits (w : Word) (hi lo : Nat) : Nat := (w.toNat >>> lo) % 2 ^ (hi + 1 - lo)

/-- Bit `i` of a word. -/
def bit (w : Word) (i : Nat) : Bool := w.getLsbD i

/-- The word whose field at `lo` holds `v` (the caller keeps `v` within the field's width). -/
def fld (lo v : Nat) : Word := BitVec.ofNat 32 (v <<< lo)

/-- A field of `wd` bits at `lo`, saturating at its largest value. -/
def satFld (lo wd v : Nat) : Word := fld lo (min v (2 ^ wd - 1))

/-- A one-bit field. -/
def flag (lo : Nat) (b : Bool) : Word := fld lo b.toNat

/-- A saturating 32-bit statistic (R300, last paragraph). -/
def sat32 (v : Nat) : Word := BitVec.ofNat 32 (min v 0xFFFFFFFF)

/-- Low and high words of a 64-bit quantity (R296). -/
def loW (v : Nat) : Word := BitVec.ofNat 32 v
def hiW (v : Nat) : Word := BitVec.ofNat 32 (v >>> 32)

/-- `b` bytes of `v`, little-endian. -/
def leBytes : Nat → Nat → List Byte
  | 0, _ => []
  | b + 1, v => BitVec.ofNat 8 v :: leBytes b (v / 256)

/-- The number a little-endian byte list spells. -/
def ofLe : List Byte → Nat
  | [] => 0
  | b :: t => b.toNat + 256 * ofLe t

/-- Bit `i` of a 64-bit mask set, cleared. -/
def mset (m : Dword) (i : Nat) : Dword := m ||| (1#64 <<< i)
def mclr (m : Dword) (i : Nat) : Dword := m &&& ~~~ (1#64 <<< i)

/-- Population count of a mask. -/
def popcount (m : Dword) : Nat := (List.range 64).countP (fun i => m.getLsbD i)

/-- The lowest index in `0..n-1` that satisfies `p`. -/
def lowest (n : Nat) (p : Nat → Bool) : Option Nat := (List.range n).find? p

/-- Sum of a list of numbers. -/
def total (l : List Nat) : Nat := l.foldl (· + ·) 0

/-- The element of a list that is best: `better a b` says `a` goes before `b`. -/
def bestBy {α : Type} (better : α → α → Bool) : List α → Option α
  | [] => none
  | x :: t => some (t.foldl (fun b y => if better y b then y else b) x)

/-- Replace the elements of a list that satisfy `p`. -/
def lmod {α : Type} (p : α → Bool) (f : α → α) (l : List α) : List α := l.map (fun x => if p x then f x else x)

/-- floor(log2(n)) for n > 0, by bounded search. -/
def log2Floor : Nat → Nat → Nat
  | 0, _ => 0
  | fuel + 1, n => if n < 2 then 0 else 1 + log2Floor fuel (n / 2)

/-- Ceiling division. -/
def cdiv (a b : Nat) : Nat := (a + b - 1) / b

end Sys2Proof.Machine
end

