-- ==== Sys2Proof/Machine/State.lean ====
section
/-!
DEFINITION. The state of the KL7256 and its reset value. Each structure is one part of the module that the spec names;
its fields' default values are what `State.reset` holds. Register words that software writes have one home, the plate
table `CfgSt.plates`; read-only register words are computed from this state when they are read.
-/

namespace Sys2Proof.Machine

/-! ### Time (R11, R15–R25) -/

/-- An island's time copy (R18–R20): its offset from the DTC in ns, whether a beacon was heard whose correction the boundary
starts, whether the correction runs, the alternate tick of a copy that is ahead, beacons and echoes missed in a row, and the two
verdicts. -/
structure Isl where
  off : Int := 0
  slew : Bool := false
  fixing : Bool := false
  half : Bool := false
  missed : Nat := 0
  echoMissed : Nat := 0
  suspect : Bool := false
  stalled : Bool := false
  deriving DecidableEq, Repr

/-- Time: the DTC (R15), the time PLL's adjustment (R16), the island copies, and the model's counter of open values. -/
structure TimeSt where
  /-- Device Time Counter, ns (R15). -/
  dtc : Nat := 0
  /-- Fractional adjustment in force, parts per billion, and the DTC at which it was made (R16). -/
  ppb : Int := 0
  lastAdj : Option Nat := none
  isl : Tbl Isl := []
  /-- The stored DTC was lost at this power-up (R17). -/
  lost : Bool := false
  /-- The DTC at the last save that this power-up resumed from (R17, R176). -/
  resumed : Nat := 0
  /-- CXL Timestamp: value set and the DTC at which it was set (R59). -/
  stampBase : Nat := 0
  stampAt : Nat := 0
  /-- The MODEL's counter: which open value is drawn next (the opaque constants of Config that take a number). -/
  fresh : Nat := 0
  /-- DTC of the last event of the start: seconds of operation for GLB_OPSEC are whole seconds since this (R307). -/
  opsecAt : Nat := 0
  deriving DecidableEq, Repr

/-! ### Plates, paths and programs' contexts (R237–R239, R289–R299) -/

/-- Register values in force: `plates` applied now, `prev` applied before the last boundary (R25). An index that is not
listed holds its reset value (`plateReset`). -/
structure CfgSt where
  plates : Tbl Word := []
  prev : Tbl Word := []
  deriving DecidableEq, Repr

/-- A page buffer of the Seed Store (R417): the page, its 256 bytes, the sequence when loaded, and whether written. -/
structure SeedBuf where
  page : Nat
  bytes : List Byte
  seq : Nat
  written : Bool
  deriving DecidableEq, Repr

/-- One Tally record before its CRC (R402). -/
structure Rec where
  seq : Nat
  stamp : Nat
  opsec : Nat
  pwrcyc : Nat
  type : Nat
  source : Nat
  nsnap : Nat
  trig : Nat
  island : Nat
  flags : Nat
  snap : List Word
  payload : List Byte
  deriving DecidableEq, Repr

/-- What each master of the register interface holds for itself: select values, the 32-bit shadow and its tag (R295,
R296), its Seed Store buffer, password and unlocks (R417, R418), its Tally fetch buffer (R410), its CU_PUT_LO (R393).
Index 0 BAR, 1 management, 2 debug, 3 + n foreman n. -/
structure Master where
  sel : Tbl Word := []
  shadow : Word := 0
  tag : Option Nat := none
  seedBuf : Option SeedBuf := none
  pwd : Dword := 0
  seedBusy : Bool := false
  seedStatus : Nat := 0
  runl : Nat := 0
  wunl : Nat := 0
  fetch : List Rec := []
  cuLo : Word := 0
  deriving DecidableEq, Repr

/-- A write waiting in a path's write queue of 64 entries (R298); `ok` is the finding that a Tally fetch meets: the page it
names decodes. -/
structure QWrite where
  idx : Nat
  val : Word
  ok : Bool := true
  deriving DecidableEq, Repr

/-- An access that the path holds back: a write while 64 entries wait, a read behind earlier writes to its block, and everything the
path carries after it (R12, R14, R298). -/
inductive Stalled where
  | write (w : QWrite)
  | read (off : Nat)
  /-- Read Registers: first offset, words; Read Plates: the mailbox, first plate, words. -/
  | regs (first n : Nat)
  | plates (b : Mbox) (first n : Nat)
  deriving DecidableEq, Repr

/-- A path's write queue; `busy` while its head is with the commit unit; `wait` the accesses that the path holds back, in order. -/
structure PathQ where
  q : List QWrite := []
  busy : Bool := false
  wait : List Stalled := []
  deriving DecidableEq, Repr

/-- Registers reached by paths that belong to no other block: GLB_BADACC (R307), AON's log of writes while CORE is off
(R355), the management address (R450), the control port and its pending move (R43, R64). -/
structure PathSt where
  masters : Tbl Master := []
  queues : Tbl PathQ := []
  badacc : Nat := 0
  /-- Writes recorded as no-change, for each master (R9): the spec names the record and gives it no layout, and no register shows it. -/
  noChange : Tbl Nat := []
  aonLog : List (Nat × Word × Bool × Nat) := []
  i3cAddr : Option (BitVec 7) := none
  ctlPort : Nat := 0
  ctlNext : Option Nat := none
  slotId : Nat := 0
  deriving DecidableEq, Repr

/-! ### Host ports, logical devices, requests (R34–R68) -/

/-- Link state as PW_LINK.STATE shows it (R308). -/
inductive LinkState where
  | down | training | l0 | recovery | l1
  deriving DecidableEq, Repr

/-- A physical port (R36–R41, R49, R308): credits held by the host are credits returned and not used. -/
structure Port where
  link : LinkState := .down
  width : LinkWidth := .x16
  rate : LinkRate := .g64
  reversed : Bool := false
  perst : Bool := false
  reqCr : Nat := 0
  rwdCr : Nat := 0
  replay : Nat := 0
  retrain : Nat := 0
  /-- Credits already returned in this frame under pacing (R361). -/
  pacedReq : Nat := 0
  pacedRwd : Nat := 0
  gpfWait : Bool := false
  qos : BitVec 64 := 0
  qosBw : Tbl Nat := []
  deriving DecidableEq, Repr

/-- A committed HDM decoder (R46). -/
structure Hdm where
  base : Nat
  size : Nat
  ways : Nat
  gran : Nat
  pos : Nat
  skip : Nat
  deriving DecidableEq, Repr

/-- A DC extent or offer: DPA granule, device granule, count (R53). -/
structure Extent where
  dpa : Nat
  dev : Nat
  count : Nat
  deriving DecidableEq, Repr

/-- A record of a host, FM or management event log (R58, R427, R428): its type (0 vendor, 1 General Media, 2 Memory
Module, 3 Dynamic Capacity), handle and the values it carries. -/
structure EvRec where
  kind : Nat
  handle : Nat
  src : Nat
  bits : Nat
  count : Nat
  time : Nat
  tally : Nat
  data : Nat
  deriving DecidableEq, Repr

/-- One event log of 64 records with its overflow indication (R58); handles count from 1. -/
structure EvLog where
  recs : List EvRec := []
  ovf : Bool := false
  overCount : Nat := 0
  overFirst : Nat := 0
  overLast : Nat := 0
  next : Nat := 1
  deriving DecidableEq, Repr

/-- A logical device: memory space enable, viral and whether the host enabled it (R39, R85), decoders, capacity (static
partition and DC region length, granules), extents offered, mailbox state, and the LP's class counts. -/
structure Lp where
  enabled : Bool := false
  viral : Bool := false
  viralEn : Bool := false
  hdm : Tbl (Option Hdm) := []
  static : Nat := 0
  dcLen : Nat := 0
  offers : List Extent := []
  /-- Extents to be removed, or accepted and to be added, at the next boundary. -/
  dcAdd : List Extent := []
  dcDel : List Nat := []
  evPolicy : BitVec 32 := 0
  alertCfg : BitVec 96 := 0
  shutDirty : Bool := false
  /-- Admitted requests outstanding per class (Tight, Standard, Bulk) and demoted (R73, R75). -/
  outT : Nat := 0
  outS : Nat := 0
  outB : Nat := 0
  outD : Nat := 0
  /-- Frame number of the last demotion, plus one; 0 for none (R51). -/
  lastDem : Nat := 0
  /-- Demotions by reason, saturating (CLS_WHY0, CLS_WHY1). -/
  why : Tbl Nat := []
  deriving DecidableEq, Repr

/-- The rest of an LP's counts and its meter: tokens left in this frame per set (R79), unacknowledged write losses
(CLS_STATUS.WRLOST), discards by reason (PW_DISCWHY), protocol errors, bandwidth meter (R386). -/
structure LpAux where
  tokA : Nat := 0
  tokB : Nat := 0
  wrLost : List Nat := []
  discState : Nat := 0
  discShared : Nat := 0
  proto : Nat := 0
  bwRd : Nat := 0
  bwWr : Nat := 0
  accRd : Nat := 0
  accWr : Nat := 0
  bwWin : Nat := 0
  short : Bool := false
  opened : Nat := 0
  mediaEvAt : Nat := 0
  deriving DecidableEq, Repr

/-- The kind of a request. -/
inductive ReqOp where
  | read | inv | write | ptl
  deriving DecidableEq, Repr

/-- A class of service (R69). -/
inductive Cls where
  | tight | pinned | standard | bulk
  deriving DecidableEq, Repr

/-- The key a request was classified with (R24): region slot or Seam slot words, and the generation. -/
structure KeyUse where
  k1 : BitVec 256
  k2 : BitVec 256
  kt : BitVec 256
  gen : Nat
  deriving DecidableEq, Repr

/-- A stored line: ciphertext, tag (R333), and lanes inverted in its stored bits (R113). A line of a page that was never written,
brought in while its key is not there, is `zero`: it reads as zeros under any key (R133, R209; log entry 25). -/
structure Cell where
  ct : Line := 0
  tag : Dword := 0
  flip : BitVec 16 := 0
  zero : Bool := false
  deriving DecidableEq, Repr

/-- What the request's data is when it is known: plaintext, or the poison it returns. -/
inductive Answer where
  | data (d : Line)
  | poison
  deriving DecidableEq, Repr

/-- An outstanding host request with everything its stamp fixes (R24, R72) and how far it has come. -/
structure Req where
  id : Nat
  lp : Nat
  op : ReqOp
  htag : Nat
  /-- Device line number; 0 when unmapped. -/
  line : Nat
  region : Nat
  cls : Cls
  /-- Served class: the class admitted in, or none when demoted (then Bulk). -/
  demoted : Bool
  /-- Counts against no allowance (unmapped, R47). -/
  free : Bool
  stamp : Nat
  deadline : Nat
  mirror : Nat
  security : Nat
  key : Option KeyUse
  /-- Late-step code of R84 of what the request waits for. -/
  step : Nat
  answer : Option Answer
  /-- The MSN whose ACK a Sync write waits for (R223). -/
  waitMsn : Option Nat
  /-- Write data, byte mask and poison flag. -/
  data : Line
  mask : Dword
  wpoison : Bool
  /-- The bound that `deadline` was computed from (R69, R71). -/
  bound : Nat := 0
  /-- Decided late 20 ns before its deadline: its poisoned response leaves at the deadline (R84). -/
  late : Bool := false
  /-- The region had a Seam running at the stamp: the key is the line's key when it is used (R72, R328). -/
  seam : Bool := false
  /-- A line valid at the stamp in a way that fills: the returning media data is merged under it (R92). -/
  cell : Option Cell := none
  deriving DecidableEq, Repr

/-- A response that could not leave because its port is not in L0 (R39). -/
structure Held where
  req : Req
  ans : Option Answer
  deriving DecidableEq, Repr

/-- Ports, LDs and the requests outstanding at the module. -/
structure HostSt where
  ports : Tbl Port := []
  lps : Tbl Lp := []
  aux : Tbl LpAux := []
  reqs : List Req := []
  held : List Held := []
  nextReq : Nat := 1
  /-- Event logs: index 4 × LP + log for hosts, 1024 + 4 × port + log for FM-owned LDs, 2048 management. -/
  logs : Tbl EvLog := []
  mgmtUnread : Bool := false
  /-- MED's projected waits (R83) and the gate's state. -/
  wStdA : Nat := 0
  wStdB : Nat := 0
  wBulkA : Nat := 0
  wBulkB : Nat := 0
  gate : Bool := false
  /-- Req and RwD credits are being returned at present (R82, R101: they resume only at a boundary). -/
  rwdOpen : Bool := false
  /-- Peak Tight bookings in one frame since CLS_BOOK was read. -/
  peakA : Nat := 0
  peakB : Nat := 0
  deriving DecidableEq, Repr

/-! ### The hopper (R87–R121) -/

/-- A data-cache frame with its directory entry (R91) and metadata record (R94). A frame that is not listed is free:
V = D = F = P = 0. -/
structure Frame where
  v : Bool := false
  d : Bool := false
  f : Bool := false
  p : Bool := false
  dup : Bool := false
  /-- A spill frame that holds a read-miss fill only (R91, R97): never mapped. -/
  transit : Bool := false
  retired : Bool := false
  valid : Dword := 0
  dirty : Dword := 0
  copied : Dword := 0
  cleaning : Bool := false
  detached : Bool := false
  lpin : Bool := false
  imgHeld : Bool := false
  lastMs : Nat := 0
  page : Nat := 0
  saved : Nat := 0
  tagDirty : BitVec 8 := 0
  lines : Tbl Cell := []
  deriving DecidableEq, Repr

/-- Dirty lines of a frame: those dirtied since the cleaner copied the mask, and those it copied (R106). -/
def Frame.dirtyAll (f : Frame) : Dword := f.dirty ||| f.copied

/-- A posted-write queue entry (R98). -/
structure Pwe where
  ch : Nat
  tightPool : Bool
  frame : Nat
  line : Nat
  cell : Cell
  /-- The page the frame held when the entry was made: an entry of a page that has left the frame is not written. -/
  page : Nat := 0
  deriving DecidableEq, Repr

/-- The share of the merge buffer an entry belongs to (R102). -/
inductive Share where
  | host | fore | tag
  deriving DecidableEq, Repr

/-- An open merge-buffer entry (R103): the line, the merged bytes, whether it holds an acknowledged write, and the
requests waiting for its line to arrive. -/
structure Mbe where
  share : Share
  lineNo : Nat
  region : Nat
  mask : Dword
  data : Line
  wpoison : Bool
  acked : Bool
  waiting : List Nat
  tight : Bool
  stamp : Nat
  /-- A foreman (8 for the debug port) whose LWR waits for the line. -/
  fore : Option Nat
  /-- MSN of a PART record merged by the holder. -/
  msn : Nat
  /-- Sync partial writes to a non-resident line, answered by the LINE record that follows the merge (R223). -/
  owe : List Nat := []
  /-- DTC of the entry's first acknowledgement, for the lag of R223. -/
  ackAt : Nat := 0
  /-- The mirror mode its requests were stamped with (R24). -/
  mirror : Nat := 0
  deriving DecidableEq, Repr

/-- Who asked for a hopper line access or a media read. -/
inductive Asker where
  | req (id : Nat)
  | foreman (f : Nat)
  | debug
  /-- A mover's page and codeword (R156 step 1). -/
  | mover (page cw : Nat)
  deriving DecidableEq, Repr

/-- A granted hopper line access on its way (R116): what it reads, captured in CRYPT's order (R13). -/
structure Access where
  id : Nat
  who : Asker
  ch : Nat
  frame : Nat
  lineNo : Nat
  cell : Cell
  cached : Bool
  /-- Bank, row and column of its data (R88). -/
  place : Nat × Nat × Nat := (0, 0, 0)
  /-- The requester's place among R116's: 0 host read, 1 host write, 2 fill, 3 map, 4 foreman, 5 scan, 6 Fireboss, 7 Seam, 8 debug;
  and whether it is a Tight or Tight-Pinned host access (R117). -/
  cl : Nat := 0
  tight : Bool := false
  deriving DecidableEq, Repr

/-- A stored poison entry of one page (R470): marked lines and those of external source. -/
structure Psn where
  mask : Dword := 0
  ext : Dword := 0
  deriving DecidableEq, Repr

/-- A hopper channel (R111–R121). -/
structure HopCh where
  trained : Bool := false
  failed : Bool := false
  degraded : Bool := false
  fenced : Bool := false
  /-- Left out of the hopper's layout since the last training (R115). -/
  out : Bool := false
  corr : Nat := 0
  lanes : BitVec 16 := 0
  laneCnt : Tbl Nat := []
  rewriteQ : List (Nat × Nat) := []
  flipArm : Bool := false
  flipLanes : BitVec 16 := 0
  starve : Nat := 0
  refs : Nat := 0
  detours : Nat := 0
  uncAt : List Nat := []
  /-- The arbiter (R116, R117): slots granted since the channel was laid out, the weighted requester served and the grants it has
  left in its round. -/
  slot : Nat := 0
  cur : Nat := 0
  left : Nat := 0
  /-- DTC of the last debug access on the channel, plus one; 0 for none (R118). -/
  dbgAt : Nat := 0
  deriving DecidableEq, Repr

/-- The hopper, directory, map cache and merge buffer. -/
structure HopSt where
  frames : Tbl Frame := []
  pwq : List Pwe := []
  merge : List Mbe := []
  mwait : List Nat := []
  access : List Access := []
  nextAcc : Nat := 1
  chans : Tbl HopCh := []
  poison : Tbl Psn := []
  /-- Live map: page → 40-bit entry (R133); unlisted is unmapped. -/
  map : Tbl Nat := []
  /-- Map entries of pages that must be rebuilt (R114). -/
  badMap : List Nat := []
  /-- Map cache lines held per set, most recently used first (R95). -/
  mcache : Tbl (List Nat) := []
  scrubAt : Nat := 0
  selfRef : Bool := false
  /-- Lanes inverted in lines of the map and metadata areas by an armed flip (R113): position × 64 + line. -/
  posFlip : Tbl (BitVec 16) := []
  /-- Pin load: region, pages loaded; Tight-Pinned takes effect at the next boundary when done (R109). -/
  pinLoad : Option (Nat × Nat × Bool) := none
  pinned : List Nat := []
  /-- Class code before a region's change to Tight-Pinned (R109). -/
  pinPrev : Tbl Nat := []
  /-- LFLUSHed pages at the front of cleaning (R277). -/
  flushQ : List Nat := []
  deriving DecidableEq, Repr

/-! ### Media, map journal, checkpoints (R122–R145) -/

/-- One page held by the medium: the device page it was written for and its 64 lines. -/
structure MPage where
  page : Nat := 0
  lines : Tbl Cell := []
  deriving DecidableEq, Repr

/-- A die's own program or reset, from its start to its verify result (R126): the row, or the stripe block being reset. -/
structure DieOp where
  reset : Bool
  key : Nat
  at_ : Nat
  deriving DecidableEq, Repr

/-- One die (R122, R143–R145); `tbucket` is the temperature bucket of its active set (R174). -/
structure Die where
  failed : Bool := false
  op : Option DieOp := none
  prog : Nat := 0
  pfail : Nat := 0
  bits : Nat := 0
  unc : Nat := 0
  rst : Nat := 0
  /-- Program-verify failures of the last 24 h: when, and the die-block (R144). -/
  pfailAt : List (Nat × Nat) := []
  tbucket : Nat := 0
  /-- The active set of the reference store and its shadow (R174): age bucket × 8 + boundary → entry; unlisted is the factory value. -/
  active : Tbl Word := []
  shadow : Tbl Word := []
  deriving DecidableEq, Repr

/-- One media channel (R145). -/
structure MedCh where
  trained : Bool := false
  failed : Bool := false
  fenced : Bool := false
  xfer : Nat := 0
  txfer : Nat := 0
  recon : Nat := 0
  abandon : Nat := 0
  uncAt : List (Nat × Nat) := []
  /-- Starts of the non-Tight transfers of this frame and of those to come (R78, R128). -/
  slots : List Nat := []
  /-- The deficit round robin of R130: the weighted requester served, and the transfers it has left in its round. -/
  cur : Nat := 0
  left : Nat := 0
  deriving DecidableEq, Repr

/-- A media read in progress (R139–R141): the codeword it wants, the channel indices decoded and failed, whether it
rebuilds, and its Tight booking. -/
structure MRead where
  id : Nat
  who : Asker
  page : Nat
  cw : Nat
  loc : Nat
  /-- Tight booking: set and T. -/
  book : Option (Nat × Nat)
  rebuild : Bool
  got : BitVec 10
  bad : BitVec 10
  stamp : Nat
  /-- A Bulk, foreman, debug or upkeep read: whether it waits for its busy target die rather than rebuild (R141). -/
  soft : Bool := false
  /-- A booked read whose sensing has begun, 50 ns before T (R80, R126). -/
  sensed : Bool := false
  /-- A booked read that has been served; the transfers at T that are still to come are counted, no more (R139). -/
  done : Bool := false
  deriving DecidableEq, Repr

/-- What fills a stripe row (R131) and the journal kind it leads to (R134). -/
inductive Writer where
  | clean | reclaim | rotate | refresh | secure | evac | tally | journal | root | crypto | roll | ckpt | index
  deriving DecidableEq, Repr

/-- One page of a row being written: the device page, the source location or frame, its lines. -/
structure RowPage where
  page : Nat
  from_ : Nat
  frame : Option Nat
  lines : Tbl Cell
  deriving DecidableEq, Repr

/-- A stripe row in assembly or being programmed (R131, R132). -/
structure Row where
  id : Nat
  wr : Writer
  setB : Bool
  sg : Nat
  blk : Nat
  wl : Nat
  tagged : Bool
  pages : List RowPage
  started : Bool
  since : Nat
  verified : BitVec 10
  /-- Dies that had failed when the row was started: they get no unit of it (R127, R142). -/
  skip : BitVec 10 := 0
  /-- Abandoned (R132): it takes no further unit and is gone once the units under way have reported. -/
  dead : Bool := false
  /-- Identity of the content of a journal, root, Tally, crypto or roll page (sequence number, region). -/
  seq : Nat
  deriving DecidableEq, Repr

/-- A journal record (R134). -/
structure JRec where
  page : Nat
  new : Nat
  old : Nat
  kind : Nat
  deriving DecidableEq, Repr

/-- A journal page (R134), written or durable. -/
structure JPage where
  seq : Nat
  dtc : Nat
  recs : List JRec
  /-- DTC at which it became durable. -/
  durAt : Nat := 0
  /-- Media location of its first copy, and of the previous journal page's (R134). -/
  loc : Nat := 0
  prev : Nat := 0
  deriving DecidableEq, Repr

/-- A complete checkpoint (R136–R138): sequence, DTC at completion and at start, start page and where it lies, the image. -/
structure Ckpt where
  seq : Nat
  dtc : Nat
  since : Nat := 0
  start : Nat
  startLoc : Nat := 0
  map : Tbl Nat
  blks : List Nat
  deriving DecidableEq, Repr

/-- A checkpoint in progress: sequence, journal page at start, when it started, its image and stripe blocks, the image rows that have
verified; `rooted` once its root has been written. -/
structure CkptRun where
  seq : Nat
  start : Nat
  since : Nat
  map : Tbl Nat
  blks : List Nat
  done : Nat := 0
  rooted : Bool := false
  deriving DecidableEq, Repr

/-- A page that a mover is reading (R156 step 1): the device page, its source, its mover, and the codewords that have come. -/
structure Move where
  page : Nat
  from_ : Nat
  wr : Writer
  got : BitVec 16 := 0
  /-- Read for a resync copy (R232 step 3): it takes no place in a row. -/
  copy : Bool := false
  deriving DecidableEq, Repr

/-- The medium and its sequencing; `media`, the journal and the checkpoints survive power loss. -/
structure MedSt where
  media : Tbl MPage := []
  dies : Tbl Die := []
  chans : Tbl MedCh := []
  reads : List MRead := []
  rows : List Row := []
  nextId : Nat := 1
  /-- Tight bookings: set, T, stamp of the booking's request (R77, R78). -/
  books : List (Nat × Nat × Nat) := []
  staged : List (JRec × Nat) := []
  jnext : Nat := 1
  jpages : List JPage := []
  jopen : List JPage := []
  jdur : Nat := 0
  ckpts : List Ckpt := []
  ckRun : Option CkptRun := none
  ckLast : Nat := 0
  moves : List Move := []
  deriving DecidableEq, Repr

/-! ### Upkeep (R146–R168) and drift (R169–R186) -/

/-- Stripe block states (R147). -/
inductive BlkSt where
  | free | opened | full | moving | pendingReset | resetting | metadata | donor | dead
  deriving DecidableEq, Repr

/-- A block-table entry (R146) with its segment stamps (R170). An entry not listed is Free with zero cycles. -/
structure Blk where
  st : BlkSt := .free
  wr : Option Writer := none
  failedFlag : Bool := false
  tagged : Bool := false
  nextWl : Nat := 0
  cyc : Tbl Nat := []
  lastProg : Nat := 0
  lastReset : Nat := 0
  /-- Journal position that must be durable before reset (R148). -/
  removedSeq : Nat := 0
  /-- DTC of the last map update that removed one of its pages (R148). -/
  removedAt : Nat := 0
  taint : List Nat := []
  /-- The page index (R157): due since the block became Full; where it lies, as row of an index block plus one, 0 for nowhere. -/
  idxDue : Bool := false
  idx : Nat := 0
  resetDone : BitVec 10 := 0
  retired : BitVec 10 := 0
  /-- Segment stamps: MS and W by segment. -/
  ms : Tbl (Nat × Nat) := []
  lastVisit : Nat := 0
  fragile : BitVec 10 := 0
  /-- Fragile marks in consecutive programmings per die index (R183). -/
  fragRun : Tbl Nat := []
  deriving DecidableEq, Repr

/-- A refresh-queue entry (R180–R182): stripe group, block, deadline (MS for a fragile mark; horizon otherwise). -/
structure Refresh where
  sg : Nat
  blk : Nat
  due : Option Nat
  overdue : Bool
  deriving DecidableEq, Repr

/-- A discard or secure discard in progress (R166, R167). -/
structure DCmd where
  kind : Nat
  region : Nat
  phase : Nat
  since : Nat
  jseq : Nat
  stuck : Bool
  /-- Sequence number of the second checkpoint started after phase 2; 0 until the first has started. -/
  ck : Nat
  /-- Metadata blocks that held the map or the journal when it started: what phase 5 releases and resets. -/
  traces : List Nat := []
  deriving DecidableEq, Repr

/-- Reclaim, Rotation, endurance, discard. -/
structure UpkSt where
  blks : Tbl Blk := []
  /-- Remap tables (R149): die × 16,384 + die-block index → physical die-block; unlisted is the identity. -/
  remap : Tbl Nat := []
  retSg : Tbl Nat := []
  rclRunA : Bool := false
  rclRunB : Bool := false
  rotRun : List Nat := []
  warned : Bool := false
  rmostly : Bool := false
  ronly : Bool := false
  cause : Nat := 0
  level : Nat := 0
  rclMv : Nat := 0
  rotMv : Nat := 0
  rclDrop : Nat := 0
  noIdx : Nat := 0
  dcmd : Option DCmd := none
  /-- Pages programmed and host pages cleaned, with their DTC second, for UPK_WAMP (last 3,600 s). -/
  wamp : List (Nat × Nat × Nat) := []
  /-- Days on which stripe blocks were lost, for UPK_RMDAYS. -/
  losses : List Nat := []
  deriving DecidableEq, Repr

/-- Refinement counts of one reference-table entry (R179). -/
structure Refine where
  visits : Nat := 0
  dm : Nat := 0
  dp : Nat := 0
  changedAt : Nat := 0
  deriving DecidableEq, Repr

/-- Fireboss and drift (R169–R186). -/
structure FbSt where
  gapsum : Nat := 0
  gap : Nat := 0
  gapsrc : Nat := 0
  /-- Equivalent age W per stripe group in units of 2^-32 s. -/
  w : Tbl Nat := []
  /-- The second of the DTC whose tick of W was the last (R171). -/
  aged : Nat := 0
  refine : Tbl Refine := []
  refq : List Refresh := []
  refdone : Nat := 0
  unref : Nat := 0
  passes : Nat := 0
  passLeft : Nat := 0
  passAt : Nat := 0
  passTotal : Nat := 0
  rate : Nat := 0
  /-- Bucket held in MED for each segment: key of stripe block segment (R172). -/
  buckets : Tbl Nat := []
  /-- MS stamps of the witness rows, oldest first; each save programs one in each set (R176). -/
  witness : List Nat := []
  behind : List (Nat × Nat) := []
  /-- Highest model temperature of a group's dies since the last tick of W (R171). -/
  hot : Tbl (Option Int) := []
  /-- Codewords visited in this pass, of the 64 on one wordline of a die-block: (block × 10 + index) × 512 + wordline (R178). -/
  visited : Tbl Nat := []
  deriving DecidableEq, Repr

/-! ### Persistence (R187–R214) -/

/-- The Seed Store persistence record (R202). -/
inductive PRec where
  | never | clean | armed | evacuating (e : Nat) | evacuated (e : Nat) | unreadable
  deriving DecidableEq, Repr

/-- A manifest record with its image lines (R199–R201). -/
structure ManRec where
  page : Nat
  mask : Dword
  poison : Dword
  lines : Tbl Cell
  /-- A sidecar record: its mask's bits 7:0 are dirty tag lines (R336). -/
  side : Bool := false
  deriving DecidableEq, Repr

/-- An evacuation image on the medium: E, its records, how many of their frames were written, marker and its flags. -/
structure Image where
  e : Nat
  man : List ManRec := []
  complete : Bool := false
  lost : List Nat := []
  marker : Bool := false
  flags : Nat := 0
  cause : Nat := 0
  oldest : Nat := 0
  /-- Stripe blocks that hold the image. -/
  blks : List Nat := []
  /-- Image lines written (marker bytes 25–28). -/
  written : Nat := 0
  /-- DTC at commit and at the marker. -/
  dtc : Nat := 0
  markDtc : Nat := 0
  deriving DecidableEq, Repr

/-- A durable dirty-roll page or base (R205). -/
structure Roll where
  base : Bool
  endDtc : Nat
  pages : List Nat
  /-- E of the session, and the window's start DTC. -/
  e : Nat := 0
  start : Nat := 0
  deriving DecidableEq, Repr

/-- Evacuation progress: none, committed and the step reached (R198), or the final power-down. -/
structure EvacSt where
  step : Nat := 0
  cause : Nat := 0
  at_ : Nat := 0
  noManifest : Bool := false
  abandoned : Bool := false
  hopLost : Bool := false
  deriving DecidableEq, Repr

/-- Hold-up bank, budget, power-fail detection, evacuation (R189–R206, R214). -/
structure PerSt where
  vhu : Nat := 0
  cap : Nat := 0
  esr : Nat := 0
  tested : Bool := false
  testFailed : Bool := false
  testing : Bool := false
  /-- The bank recharges after a test (R350). -/
  recharge : Bool := false
  testAt : Nat := 0
  testPending : Option Nat := none
  /-- No test starts by itself before this DTC: 60 s after a test that failed or was deferred (R190, R191). -/
  testWait : Nat := 0
  budget : Nat := 0
  budgetNext : Option (Nat × Nat) := none
  term : Nat := 2
  everBudget : Bool := false
  overDT : Bool := false
  debounce : Option Nat := none
  debounceCause : Nat := 1
  evac : Option EvacSt := none
  /-- Orderly evacuation running: target power state (3, 4), and its start. -/
  orderly : Option Nat := none
  orderlyCk : Option Nat := none
  /-- The orderly evacuation has handed its record and the DTC to the Seed Store. -/
  orderlyRec : Bool := false
  deriving DecidableEq, Repr

/-- What the PERSIST registers from 0x040 report, and the roll. -/
structure PerRep where
  evseq : Nat := 0
  evcause : Nat := 0
  evtime : Nat := 0
  start : Nat := 0
  lost : Nat := 0
  rollList : List Nat := []
  safe : Bool := false
  rollStaged : List Nat := []
  /-- Pages with lines that recovery found lost, not yet repaired from the twin (R232, R234). -/
  lostPages : List Nat := []
  deriving DecidableEq, Repr

/-! ### Twin (R215–R236) -/

/-- Mirror states (R229). -/
inductive Mir where
  | inactive | resync | mirrored | broken | refused | held | stale
  deriving DecidableEq, Repr

/-- Pair states (TW_STAT.PAIR). -/
inductive PairSt where
  | unpaired | attaching | paired | broken | detaching | refused
  deriving DecidableEq, Repr

/-- A region's mirror state and resync bitmap. -/
structure TwReg where
  st : Mir := .inactive
  keyok : Bool := false
  held : Bool := false
  pages : List Nat := []
  /-- Taken over here and not yet made known to the twin (R230, R231). -/
  taken : Bool := false
  /-- The next page of a resync of the whole region (R232). -/
  rest : Option Nat := none
  /-- Mirrored when the pair last broke (R234). -/
  wasMir : Bool := false
  deriving DecidableEq, Repr

/-- A record in the mirror queue or sent and not covered (R222–R225). -/
structure TwRec where
  msn : Nat
  region : Nat
  lineNo : Nat
  gen : Nat
  ct : Line
  poison : Bool
  sync : Bool
  sidecar : Bool
  part : Option (Dword × Line)
  sent : Bool
  ackedAt : Option Nat
  req : Option Nat
  resync : Bool := false
  deriving DecidableEq, Repr

/-- The Twin Link, the pair and the record streams. -/
structure TwinSt where
  trained : Bool := false
  helloed : Bool := false
  pair : PairSt := .unpaired
  refuse : Nat := 0
  cause : Nat := 0
  cmd : Nat := 0
  peer : Dword := 0
  side : Nat := 0
  txmsn : Nat := 0
  ackmsn : Nat := 0
  rxmsn : Nat := 0
  credits : Nat := 0
  recs : List TwRec := []
  regs : Tbl TwReg := []
  rsopen : List (Nat × Dword × Nat) := []
  replay : Nat := 0
  takes : Nat := 0
  sbmiss : Nat := 0
  lagPeak : Nat := 0
  deriving DecidableEq, Repr

/-- A region configuration received from the home (R217). -/
structure RegCfg where
  region : Nat
  w0 : Word
  w1 : Word
  gen : Nat
  erase : Bool
  seamGen : Option Nat
  deriving DecidableEq, Repr

/-- A Twin Link flit: its sequence number once it is sent, the mirror credits it grants, and its frame or record (R218, R219). -/
structure Flit where
  seq : Nat := 0
  grant : Nat := 0
  fr : List Nat := []
  rcd : Option TwRec := none
  deriving DecidableEq, Repr
/-- Sideband, flit sequence, epoch exchange. -/
structure TwinAux where
  sbLive : Bool := false
  sbWide : Bool := false
  /-- The last rising edge of TWIN_HB_IN, and the last flit that passed its CRC (R220). -/
  sbAt : Nat := 0
  goodAt : Nat := 0
  /-- Replay buffer: at most 256 flits, oldest first, that the twin has not acknowledged; flits that wait for room in it (R218). -/
  buf : List Flit := []
  outq : List Flit := []
  /-- Pages being read for a resync copy: region, page (R232). -/
  copying : List (Nat × Nat) := []
  /-- Live records sent in the frame in progress (R233). -/
  live : Nat := 0
  /-- Flits sent, flits the twin has acknowledged, the last good sequence number received, mirror credits granted and not
  yet used by the twin (R218). -/
  flitTx : Nat := 0
  flitAck : Nat := 0
  lastGood : Nat := 0
  granted : Nat := 0
  /-- Epoch proposed in an attach, and the epoch whose write COMMIT follows (R235). -/
  proposed : Option Nat := none
  commitWait : Option Nat := none
  /-- Side seen on AUX[1] (R221). -/
  strobeSeen : Option Nat := none
  detachNext : Bool := false
  /-- Takeover waiting for its epoch write: first region, count, new epoch. -/
  takeover : Option (Nat × Nat × Nat) := none
  takeNext : List Nat := []
  regcfg : List RegCfg := []
  /-- The first record after a reconnection gives the stream's position. -/
  adopt : Bool := false
  /-- Pages asked of the holder, with the lines still to come (R234). -/
  pulled : List (Nat × Dword) := []
  deriving DecidableEq, Repr

/-! ### Encryption (R314–R339) -/

/-- A loaded key slot (R319). -/
structure Slot where
  k1 : BitVec 256
  k2 : BitVec 256
  kt : BitVec 256
  deriving DecidableEq, Repr

/-- A crypto record (R326). -/
structure CRec where
  gen : Nat := 0
  ver : Option Dword := none
  erasing : Bool := false
  seam : Bool := false
  seamGen : Nat := 0
  seamVer : Option Dword := none
  seamPtr : Nat := 0
  deriving DecidableEq, Repr

/-- Seam engine states (CRY_SEAMSTAT.STATE). -/
inductive SeamSt where
  | idle | starting | running | finishing | stopped | suspended
  deriving DecidableEq, Repr

/-- A Seam engine (R327–R332). -/
structure Seam where
  st : SeamSt := .idle
  region : Nat := 0
  verify : Bool := false
  cu : Nat := 0
  ptr : Nat := 0
  gen : Nat := 0
  /-- Mapped pages rewritten. -/
  done : Nat := 0
  /-- Page D of the last durable pointer record (R331), and whether only D is known, so that 256 pages are to be checked. -/
  durable : Nat := 0
  recheck : Bool := false
  deriving DecidableEq, Repr

/-- Key slots, records in the hopper, Seam engines. -/
structure CrySt where
  slots : Tbl (Option Slot) := []
  /-- Cleared slots kept for admitted requests: slot, boundary, what it held (R24). -/
  linger : List (Nat × Nat × Slot) := []
  recs : Tbl CRec := []
  /-- Regions whose record is not yet durable, with the row or step that will make it so. -/
  pend : List Nat := []
  seams : Tbl Seam := []
  erased : Nat := 0
  deriving DecidableEq, Repr

/-! ### Power and thermal (R340–R366) -/

/-- Rail states (PWR_RSTAT.STATE). -/
inductive RailSt where
  | off | ramping | inWindow | faulted | retrying | shut | failed
  deriving DecidableEq, Repr

/-- One rail. -/
structure Rail where
  st : RailSt := .off
  kind : Nat := 0
  retryAt : List Nat := []
  attempts : Nat := 0
  ipeak : Nat := 0
  /-- When the rail was enabled, or switched off for a retry (R344, R345, R348). -/
  since : Nat := 0
  deriving DecidableEq, Repr

/-- What a power-down leads to: M4 until VIN returns (R204), M4 until a command (R348 Group, R206), a full start. -/
inductive DownTo where
  | m4 | stay | restart
  deriving DecidableEq, Repr

/-- Rails, the monitor, power states and phases. -/
structure PwrSt where
  vinOn : Bool := false
  aonReset : Bool := true
  rails : Tbl Rail := []
  chans : List (BitVec 16) := List.replicate 24 0
  snap : List (BitVec 16) := List.replicate 24 0
  snapRail : Nat := 0
  snapKind : Nat := 0
  pin : Nat := 0
  pmax : Nat := 0
  phase : Nat := 0
  pstate : Nat := 0
  waking : Bool := false
  down : Option DownTo := none
  /-- The rail that a power-down has switched off and that has not yet fallen (R346). -/
  falling : Option Nat := none
  /-- The last power-down was a trip's (R363). -/
  tripDown : Bool := false
  wasOff : Bool := true
  started : Bool := false
  /-- In PHASE 2: the image is in the program store, training is complete (R437). -/
  imgLoaded : Bool := false
  trainOk : Bool := false
  m3Media : Bool := false
  m3Exit : Bool := false
  /-- A start waits in PHASE 0 for the TAP to hold a non-intrusive instruction (R376). -/
  startWait : Bool := false
  /-- When M1 was entered (R351). -/
  m1At : Nat := 0
  deriving DecidableEq, Repr

/-- One temperature reading: direct sensor, device or die (TSENS_SEL). Values in 0.1 °C. -/
structure Therm where
  temp : Int := 0
  raw : Int := 0
  suspect : Bool := false
  okSince : Option Nat := none
  unchecked : Bool := false
  level : Nat := 0
  rateHi : Bool := false
  rate : Int := 0
  peak : Option Int := none
  firstSum : Int := 0
  firstN : Nat := 0
  last : List Int := []
  deriving DecidableEq, Repr

/-- The thermal model and its actions. -/
structure ThSt where
  t : Tbl Therm := []
  coolSince : Option Nat := none
  restarts : List Nat := []
  deriving DecidableEq, Repr

/-! ### Counters, check units, on-chip memories (R27–R32, R380–R400) -/

/-- A general counter (R380–R385). -/
structure Ctr where
  val : Nat := 0
  wraps : Nat := 0
  deriving DecidableEq, Repr

/-- A check unit and its scan engine (R390–R396). -/
structure Cu where
  cfg : Nat := 0
  run : Dword := 0xFFFFFFFF
  faddr : Nat := 0
  seq : Nat := 0
  boff : Nat := 0
  scaddr : Nat := 0
  sclen : Nat := 0
  raw : Bool := false
  state : Nat := 0
  status : Nat := 0
  done : Nat := 0
  err : Nat := 0
  /-- The scan running: who started it (a master; 99 once its program has ended), its rights, its next line, lines left,
  whether raw, and whether STOP was written. -/
  starter : Nat := 0
  debug : Bool := false
  cur : Nat := 0
  left : Nat := 0
  rawRun : Bool := false
  stopReq : Bool := false
  /-- The foreman whose program holds the unit. -/
  held : Option Nat := none
  deriving DecidableEq, Repr

/-- One on-chip memory's test state (R30–R32, R397, R400). -/
structure Scr where
  /-- Region last tested, and the one to be tested next. -/
  region : Nat := 0
  next : Nat := 0
  passes : Nat := 0
  used : Nat := 0
  failed : Bool := false
  sbe : Nat := 0
  dbe : Nat := 0
  conf : Tbl Nat := []
  wwc : Tbl Nat := []
  redirects : List Nat := []
  /-- Regions of a failed Tally ring or command queue that are fenced (R32): they take no record. -/
  fenced : List Nat := []
  deriving DecidableEq, Repr

/-- Counters, timers, check units, memory tests. -/
structure PerfSt where
  ctrs : Tbl Ctr := []
  cus : Tbl Cu := []
  scr : Tbl Scr := []
  scrLast : Word := 0
  deriving DecidableEq, Repr

/-! ### Tally and Seed Store (R401–R421) -/

/-- A persisted Tally page: its records, newest row state. -/
structure TPage where
  first : Nat
  recs : List Rec
  deriving DecidableEq, Repr

/-- The recorder (R401–R410). -/
structure TlySt where
  head : Nat := 0
  ring : Tbl (Option Rec) := []
  /-- Oldest sequence of the ring in this start. -/
  base : Nat := 1
  pers : Nat := 0
  staged : Nat := 0
  oldestAt : Nat := 0
  lostBefore : Bool := false
  merr : Nat := 0
  running : Bool := false
  trace : List Nat := []
  trcSent : Nat := 0
  trcDrop : Nat := 0
  deriving DecidableEq, Repr

/-- One copy location of a Seed Store page (R411): header fields that judge it, data, write count. -/
structure Copy where
  seq : Nat := 0
  ok : Bool := false
  data : List Byte := List.replicate 256 0xFF
  writes : Nat := 0
  retired : Bool := false
  deriving DecidableEq, Repr

/-- A Seed Store page's pair, and whether it became worn (R416). A page that nothing has written holds 0xFF in a valid
copy 0 (log entry 21). -/
structure SPage where
  c0 : Copy := { ok := true }
  c1 : Copy := {}
  worn : Bool := false
  deriving DecidableEq, Repr

/-- What a queued Seed Store write is for (R412, R415). -/
inductive SeedJob where
  | evacuating (e : Nat)
  | prec (r : PRec)
  | dtc (v base : Nat)
  | epoch (e : Nat) (paired : Option Dword)
  | user (page seq : Nat) (bytes : List Byte) (by_ : Nat)
  | zclear (page : Nat) (last : Bool) (by_ : Nat)
  | pwd (zone : Nat) (write : Bool) (v : Dword) (by_ : Nat)
  | module_ (n : Nat)
  deriving DecidableEq, Repr

/-- The Seed Store's working state (R413–R421); its contents are in `NvSt`. -/
structure SeedSt where
  queue : List SeedJob := []
  running : Option SeedJob := none
  recallUntil : Option Nat := none
  lockout : Tbl Nat := []
  deriving DecidableEq, Repr

/-! ### Foremen, queues, transactions, hooks (R237–R288) -/

/-- Who commits or runs: code of FORE_LASTFAIL.SRC (0 base shift, 1 hook, 2 MQ, 3 FQ, 4 DQ, 5 BAR, 6 management,
7 debug), hook index, hook origin, ticket. -/
structure Origin where
  src : Nat := 0
  hook : Nat := 0
  org : Nat := 0
  ticket : Nat := 0
  deriving DecidableEq, Repr

/-- One plate write: storage key (instance and index), the plate index named, the value. -/
structure PWrite where
  key : Nat
  idx : Nat
  val : Word
  deriving DecidableEq, Repr

/-- A transaction held, queued or staged (R247–R253). -/
structure Tx where
  org : Origin := {}
  writes : List PWrite := []
  /-- Index of the first distinct write beyond 512 (R247, R471). -/
  full : Option Nat := none
  one : Bool := false
  /-- Foreman that waits for the result and its rd, or whose one-write this is. -/
  foreman : Option (Nat × Nat) := none
  path : Option Nat := none
  num : Nat := 0
  deriving DecidableEq, Repr

/-- A queue entry (R242). -/
structure QEnt where
  ticket : Nat
  /-- Length of the program in words. -/
  len : Nat
  entry : Nat
  steps : Nat
  dtc : Nat
  /-- 0 waiting, 1 taken, 2 ended. -/
  st : Nat
  deriving DecidableEq, Repr

/-- A program's result (R62). -/
structure PRes where
  state : Nat
  trap : Nat
  used : Nat
  txres : Nat
  txnum : Nat
  gout : List Dword
  deriving DecidableEq, Repr

/-- A command queue (R242–R245): two copies of each pointer. -/
structure Queue where
  wp : Nat := 0
  wp2 : Nat := 0
  rp : Nat := 0
  rp2 : Nat := 0
  ents : Tbl (Option QEnt) := []
  ticket : Nat := 1
  results : List (Nat × PRes) := []
  resetting : Bool := false
  done : Nat := 0
  deriving DecidableEq, Repr

/-- A loop-stack entry (R267). -/
structure LoopE where
  start : Nat
  stop : Nat
  left : Nat
  depth : Nat
  deriving DecidableEq, Repr

/-- A line operation running for a foreman or the debug port (R275–R278): 0 LRD, 1 LRDX, 2 LWR, 3 LZERO, 4 LFLUSH, 5 LPIN,
6 LUNPIN; its destination register, device line, scratch address, bound, its status once it has ended, the byte mask of a
write or the dirty bits an LFLUSH waits for, and the MSN whose ACK a Sync write waits for. -/
structure LineOp where
  kind : Nat
  rd : Nat
  line : Nat
  scratch : Nat
  bound : Nat
  status : Option Nat := none
  seen : Dword := 0
  msn : Option Nat := none
  deriving DecidableEq, Repr

/-- What a foreman waits for. -/
inductive Wait where
  | none_
  | plate (r : Nat) (idx : Nat) (cond : Nat) (cmp : Nat) (until_ : Nat)
  | event (src : Nat) (rd : Nat) (until_ : Nat)
  | frames (left : Nat)
  | txc
  | oneWrite (w : Tx)
  | line (o : LineOp)
  deriving DecidableEq, Repr

/-- The program a foreman runs: origin, area base and length in words, command-queue position. -/
structure Prog where
  org : Origin
  base : Nat
  size : Nat
  q : Option (Nat × Nat)
  budget : Nat
  deriving DecidableEq, Repr

/-- A foreman (R260). g0 is never listed: it reads 0. -/
structure Foreman where
  prog : Option Prog := none
  g : Tbl Dword := []
  pc : Nat := 0
  calls : List (Nat × Nat) := []
  loops : List LoopE := []
  tx : Option Tx := none
  steps : Nat := 0
  /-- Bytes; an unlisted one is 0 (R270: zero at every start). -/
  scratch : Tbl Byte := []
  /-- Scratch words with a double-bit error (R27, R270). -/
  dbe : List Nat := []
  wait : Wait := .none_
  stopped : Bool := false
  haltReq : Bool := false
  halted : Bool := false
  immW : Nat := 0
  txres : Nat := 0
  txnum : Nat := 0
  deriving DecidableEq, Repr

/-- A hook's state (R256, R257). -/
structure Hook where
  pending : Option (Nat × Nat) := none
  running : Bool := false
  runs : Nat := 0
  prevCond : Bool := false
  prevVal : Option Word := none
  deriving DecidableEq, Repr

/-- Programs, queues, commit unit. -/
structure ForeSt where
  fm : Tbl Foreman := []
  qs : Tbl Queue := []
  /-- Program store; unlisted words are zero (R261). -/
  store : Tbl Word := []
  hooks : Tbl Hook := []
  commitQ : List Tx := []
  staged : List Tx := []
  txnum : Nat := 0
  txapp : Nat := 0
  txfail : Nat := 0
  lastSrc : Nat := 0
  lastSub : Nat := 0
  lastCode : Nat := 0
  lastIdx : Nat := 0
  hkovr : Nat := 0
  psrej : Nat := 0
  aborts : Nat := 0
  rr : Nat := 0
  /-- Programs accepted: b_r has passed (R440). -/
  ready : Bool := false
  deriving DecidableEq, Repr

/-! ### Events (R309–R313) -/

/-- An occurrence count and its acknowledge register (R300). -/
structure Occ where
  cnt : Nat := 0
  ack : Word := 0
  deriving DecidableEq, Repr

/-- An event source (R309–R313). -/
structure Src where
  pending : Bool := false
  done : Nat := 0
  time : Nat := 0
  rise : Nat := 0
  /-- DTC of the source's previous records, and whether a set is deferred (R311). -/
  lastAt : Option Nat := none
  deferred : Bool := false
  deriving DecidableEq, Repr

/-- The EVENT block. -/
structure EvtSt where
  occ : Tbl Occ := []
  srcs : Tbl Src := []
  drop : Nat := 0
  alert : Bool := false
  /-- ALERT_N released by an Alert Response until the next transition (R312). -/
  released : Bool := false
  deriving DecidableEq, Repr

/-! ### Debug port (R367–R379) -/

/-- The TAP and the DEBUG block. -/
structure DbgSt where
  ir : Nat := 0x3F
  bsr : BitVec 64 := 0
  req : Nat := 0
  level : Nat := 0
  accStatus : Nat := 0
  accData : Word := 0
  /-- A DBGACC read that waits for earlier writes of the path to its block. -/
  accRead : Option Nat := none
  /-- A foreman that DBG_FSTEP.GO lets execute one instruction. -/
  stepGo : Option Nat := none
  /-- Debug line command running; whether it woke the module and whether it returned ciphertext; its last status word. -/
  mcmd : Option LineOp := none
  mwoke : Bool := false
  mcipher : Bool := false
  mstat : Word := 0
  mediaHold : Option Nat := none
  dqStage : List Word := []
  dqTkt : Nat := 0
  deriving DecidableEq, Repr

/-! ### What survives power loss (R4, R187, R412) -/

/-- Contents of the Seed Store, the boot flash and of the persistence areas on the medium. Media pages, journal pages
and checkpoints stand in `MedSt`, the block table as last checkpointed is rebuilt from the recovered map. -/
structure NvSt where
  prec : PRec := .never
  dtc : Option Nat := some 0
  tallyBase : Nat := 0
  epoch : Nat := 0
  paired : Option Dword := none
  gennext : Nat := 1
  tripCnt : Nat := 0
  tripAck : Word := 0
  lastTrip : Word := 0
  opsec : Nat := 0
  pwrcyc : Nat := 0
  dsc : Nat := 0
  compat : Bool := false
  pwdR : Tbl Dword := []
  pwdW : Tbl Dword := []
  pages : Tbl SPage := []
  spareUsed : Nat := 0
  moves : Nat := 0
  worn : Nat := 0
  deriving DecidableEq, Repr

/-- The rest of what survives: firmware slots, evacuation image, roll, crypto records, applied plates, hook slots,
Tally pages. -/
structure NvSt2 where
  fwNext : Nat := 0
  fwRun : Nat := 3
  fwVer : Tbl Word := []
  /-- Slots whose image does not verify; a delivered module has its slot 1 empty (R464). -/
  fwBad : List Nat := [1]
  evSeq : Nat := 0
  images : List Image := []
  roll : List Roll := []
  crec : Tbl CRec := []
  plates : Tbl Word := []
  /-- Contents of enabled hook slots (R440). -/
  hookStore : Tbl Word := []
  poison : Tbl Psn := []
  tpages : List TPage := []
  /-- LD allocations: static partition and DC region, granules (R53, R66). -/
  lpAlloc : Tbl (Nat × Nat) := []
  /-- Mirror states and resync bitmaps as last made durable (R232). -/
  twregs : Tbl TwReg := []
  msSaved : Nat := 0
  deriving DecidableEq, Repr

/-! ### What leaves the module -/

/-- A field a mailbox command returns: its width in bytes and its value. -/
structure Fld where
  w : Nat
  v : Nat
  deriving DecidableEq, Repr

/-- Everything that leaves the module: responses, register data, event notifications, Twin Link frames, pins. -/
inductive Out where
  /-- DRS MemData: host tag, data or poison, DevLoad, when the last flit leaves, the bound. -/
  | drs (lp htag : Nat) (ans : Answer) (load : Nat) (at_ bound : Nat)
  /-- NDR Cmp. -/
  | cmp (lp htag : Nat) (load : Nat) (at_ bound : Nat)
  | aer (lp : Nat)
  | mailbox (m : Mbox) (rc : Nat) (out : List Fld)
  | read (p : Path) (off : Nat) (v : Word)
  | unsupported (p : Path)
  | interrupt (log : Nat) (firmware : Bool)
  | ibi (b : Nat)
  | araAddress (a : Nat)
  | gpfDone (port phase : Nat)
  /-- A Twin Link frame with the sequence number, acknowledgement and mirror credit grant of its flit (R218, R219). -/
  | twin (seq ack grant : Nat) (fr : List Nat)
  | twinLine (seq ack grant : Nat) (r : TwRec)
  | hbPulse (us : Nat)
  | strobe (side : Nat)
  | trace (seq : Nat)
  | tdo (v : Nat)
  | linksOff
  deriving DecidableEq, Repr

/-! ### The whole state -/

/-- The module without its command queue. -/
structure Mod where
  time : TimeSt := {}
  cfg : CfgSt := {}
  path : PathSt := {}
  host : HostSt := {}
  hop : HopSt := {}
  med : MedSt := {}
  upk : UpkSt := {}
  fb : FbSt := {}
  per : PerSt := {}
  rep : PerRep := {}
  twin : TwinSt := {}
  tx : TwinAux := {}
  cry : CrySt := {}
  pwr : PwrSt := {}
  th : ThSt := {}
  perf : PerfSt := {}
  tly : TlySt := {}
  seed : SeedSt := {}
  fore : ForeSt := {}
  evt : EvtSt := {}
  dbg : DbgSt := {}
  nv : NvSt := {}
  nv2 : NvSt2 := {}
  out : List Out := []
  deriving DecidableEq, Repr

/-- The state of the model: the module and the commands waiting, first in, first out. -/
structure State where
  m : Mod := {}
  pending : List Instr := []
  deriving DecidableEq, Repr

/-- The module right after reset: every field at its default above, which the docstrings and the assumption log give;
no command waits. -/
def State.reset : State := {}

/-- Reasons a command can stop the machine. -/
inductive Fault where
  /-- Raised by VIN_OVERVOLTAGE above the absolute maximum rating (R340, R453): "the module makes no claim". Safe: the
  model stops where the hardware is undefined. -/
  | outsideRatings
  deriving DecidableEq, Repr

/-- Reasons a command has no meaning. -/
inductive Refusal where
  /-- Raised by the dispatch of a command that has no meaning yet. Safe: nothing can be proved of it. -/
  | notModelled (mnemonic : String)
  deriving DecidableEq, Repr

end Sys2Proof.Machine
end

