-- ==== Sys2Proof/Machine/RegMap.lean ====
section
/-!
DEFINITION. The register map as data: which word lies at which offset, how it is accessed, which of its bits software
writes, what it holds at reset and which select register names its instance (R289–R308, R313, R86, R121, R145, R168,
R186, R214, R236, R259, R339, R365, R366, R379, R398–R400, R420, R421), and the tables above the window (R302).
-/

namespace Sys2Proof.Machine

/-- Access codes (R9, R295): `rl` latches its HI word, `sel` is a select register. -/
inductive Acc where
  | ro | rl | rw | rwb | wo | sel
  deriving DecidableEq, Repr

/-- How a word's instance is selected (R293, R295). -/
inductive Inst where
  | one
  /-- Field hi:lo of the select register at this offset, naming one of `n`. -/
  | by_ (off hi lo n : Nat)
  /-- PW registers 0x004–0x03F: the selected LP's port. -/
  | port
  /-- MED_CHSEL and MED_DIESEL together. -/
  | die
  /-- DRF_SEL, whole entry or die only. -/
  | drf
  | drfDie
  /-- TSENS_SEL's sparse index. -/
  | tsens
  /-- SCR_SEL: memory and master. -/
  | scr
  deriving DecidableEq, Repr

/-- One row of the map: `n` words from `off`, `stride` bytes apart. -/
structure RegRow where
  off : Nat
  acc : Acc
  mask : Nat := 0
  reset : Nat := 0
  inst : Inst := .one
  n : Nat := 1
  stride : Nat := 4
  deriving DecidableEq, Repr

def all32 : Nat := 0xFFFFFFFF

/-- Words that only read, `n` in a row. -/
def roW (off : Nat) (inst : Inst := .one) (n : Nat := 1) (stride : Nat := 4) : RegRow :=
  { off, acc := .ro, inst, n, stride }
/-- An LO word that latches, followed by its HI word. -/
def rlW (off : Nat) (inst : Inst := .one) : List RegRow := [{ off, acc := .rl, inst }, { off := off + 4, acc := .ro, inst }]
def rwbW (off mask reset : Nat) (inst : Inst := .one) (n : Nat := 1) (stride : Nat := 4) : RegRow :=
  { off, acc := .rwb, mask, reset, inst, n, stride }
def rwW (off mask : Nat) (inst : Inst := .one) (n : Nat := 1) : RegRow := { off, acc := .rw, mask, inst, n }
def woW (off mask : Nat) (inst : Inst := .one) : RegRow := { off, acc := .wo, mask, inst }
def selW (off mask : Nat) : RegRow := { off, acc := .sel, mask }

/-- GLB (R307). -/
def glbRows : List RegRow :=
  [roW 0x00 .one 5, rwbW 0x14 1 0, roW 0x18] ++ rlW 0x1C ++ rlW 0x24 ++ [roW 0x2C .one 5]

/-- Instances of the PW and CLASS blocks. -/
def byLpPw : Inst := .by_ 0x10000 7 0 256
def byLpCls : Inst := .by_ 0x20000 7 0 256

/-- PW (R308). -/
def pwRows : List RegRow :=
  [selW 0x10000 0xFF, roW 0x10004 .port, roW 0x10008 .port, roW 0x1000C .port, roW 0x10010 .port,
   rwW 0x10014 all32 .port, roW 0x10018 .port, roW 0x1001C .port, roW 0x10040 byLpPw, roW 0x10044 byLpPw,
   rwbW 0x10048 1 0 byLpPw, roW 0x1004C byLpPw, rwW 0x10050 all32 byLpPw, roW 0x10054 byLpPw,
   rwW 0x10058 all32 byLpPw, roW 0x1005C byLpPw, roW 0x10060 byLpPw, roW 0x10064 byLpPw]

/-- CLASS (R86). CLS_ALLOW and CLS_TMR are views of the class table (R303). -/
def clsRows : List RegRow :=
  [selW 0x20000 0xFF, rwbW 0x20004 0xFFFFFF 0x80000 byLpCls, rwbW 0x20008 0x1F1F 0 byLpCls, roW 0x2000C byLpCls] ++
  rlW 0x20010 byLpCls ++ [rwW 0x20018 all32 byLpCls] ++ rlW 0x2001C byLpCls ++
  [rwW 0x20024 all32 byLpCls, roW 0x20028 byLpCls, roW 0x2002C byLpCls, roW 0x20030 byLpCls, roW 0x20034 byLpCls,
   roW 0x20100 .one 5]

def byReg : Inst := .by_ 0x30000 11 0 4096

/-- REGION (R306); REG_W0–W3 are views of the region table (R303). -/
def regRows : List RegRow :=
  [selW 0x30000 0xFFF, rwbW 0x30004 0xFFE00000 0 byReg, rwbW 0x30008 0x7FFF3FFF 0 byReg, roW 0x3000C byReg 2,
   roW 0x30100 .one 2]

def byHc : Inst := .by_ 0x40000 5 0 54

/-- HOPPER (R121). -/
def hopRows : List RegRow :=
  [selW 0x40000 0x3F, roW 0x40004 byHc, rwbW 0x40008 all32 0x21126488 byHc, rwbW 0x4000C all32 0x14141414 byHc,
   rwbW 0x40010 all32 0x64646414 byHc, roW 0x40014 byHc, roW 0x40018 byHc, rwW 0x4001C all32 byHc,
   roW 0x40020 byHc 3, rwW 0x4002C all32 byHc, rwW 0x40030 0x8000FFFF byHc, roW 0x40034 byHc 3,
   rwbW 0x40100 0x7FFFFF 0x30000A, rwbW 0x40104 0xFFFF 0x4B19, rwbW 0x40108 0xF 4, rwbW 0x4010C 0xFFFFFF 0x080830,
   rwbW 0x40110 0xFFFFFF 300, roW 0x40114 .one 6] ++ rlW 0x4012C ++ [roW 0x40134 .one 2]

def byMc : Inst := .by_ 0x50000 4 0 20

/-- MEDIA (R145). -/
def medRows : List RegRow :=
  [selW 0x50000 0x1F, roW 0x50004 byMc 6, rwW 0x5001C all32 byMc, roW 0x50020 byMc, rwbW 0x50024 0xFFF 0x246 byMc,
   selW 0x50040 0xF, roW 0x50044 .die 6, rwbW 0x50100 3 2, rwbW 0x50104 0x3FFF 2000, rwbW 0x50108 0x3FF 200,
   rwbW 0x5010C all32 0x3C0010] ++ rlW 0x50110 ++ rlW 0x50118 ++ [roW 0x50120 .one 6]

def bySg : Inst := .by_ 0x60000 4 0 20

/-- UPKEEP: reclaim, Rotation, endurance and discard (R168). -/
def upkRows : List RegRow :=
  [selW 0x60000 0x1F, roW 0x60004 bySg 7, rwbW 0x60040 all32 0x06000400, rwbW 0x60044 0xFFFF 512,
   rwbW 0x60048 all32 0x01F407D0, rwbW 0x6004C 0xFF 10, rwbW 0x60050 0xFFFFF 300000, rwbW 0x60054 0xFFFF 8192,
   rwbW 0x60058 0xFFFF 4096, rwbW 0x6005C 0xFFFF 1024, rwbW 0x60060 0xFFFF 200, roW 0x60064 .one 4] ++
  rlW 0x60074 ++ rlW 0x6007C ++
  [roW 0x60084 .one 3, rwW 0x60090 all32, roW 0x60094, rwbW 0x600A0 0xC0000FFF 0, rwbW 0x600A4 all32 0,
   rwbW 0x600A8 all32 0, roW 0x600AC .one 2, rwW 0x600B4 all32]

/-- UPKEEP: drift and patrol (R186). -/
def fbRows : List RegRow :=
  [rwbW 0x60100 0x1FF 72, rwbW 0x60104 0xF 4, rwbW 0x60108 0xFFFF001F 0x30000C, rwbW 0x6010C 0xFFFF 0x281E,
   rwbW 0x60110 0x1FF 30, rwbW 0x60114 0xFFF 600, rwbW 0x60118 0x7B 0, roW 0x6011C .one 4, rwW 0x6012C all32,
   roW 0x60130 .one 3, rwW 0x6013C all32, roW 0x60140 .one 4, roW 0x60150 bySg, selW 0x60180 0xFF1F77,
   rwbW 0x60184 0x800000FF 0 .drf, roW 0x60188 .drfDie]

/-- PERSIST (R214). -/
def perRows : List RegRow :=
  [roW 0x70000 .one 4, rwbW 0x70010 0x11F 6] ++ rlW 0x70014 ++ rlW 0x7001C ++
  [rwbW 0x70024 0x1FFF 6144, roW 0x70028, rwbW 0x7002C 0x11FFF 0x11068, roW 0x70030, rwW 0x70034 all32,
   woW 0x70038 0xFFFF, rwbW 0x7003C 3 0] ++ rlW 0x70040 ++ [roW 0x70048 .one 3] ++ rlW 0x70054 ++
  [roW 0x7005C .one 2, rwW 0x70064 all32, selW 0x70068 all32, roW 0x7006C .one 2, rwbW 0x70074 0x3FFF 1000, roW 0x70078]

def byTwr : Inst := .by_ 0x80060 11 0 4096

/-- TWIN (R236). -/
def twRows : List RegRow :=
  [roW 0x80000, rwbW 0x80004 0xFF03 0x1900] ++ rlW 0x80008 ++ rlW 0x80010 ++
  [rwbW 0x80018 all32 0, rwbW 0x8001C all32 0] ++ rlW 0x80020 ++ rlW 0x80028 ++ rlW 0x80030 ++ rlW 0x80038 ++
  [roW 0x80040, rwbW 0x80044 0x7FFF 10000, roW 0x80048, rwW 0x8004C all32, roW 0x80050, rwbW 0x80054 0xF8000FFF 0] ++
  rlW 0x80058 ++ [selW 0x80060 0xFFF, roW 0x80064 byTwr 2, roW 0x8006C .one 3]

def byCr : Inst := .by_ 0x90000 11 0 4096
def bySeam : Inst := .by_ 0x90100 0 0 2

/-- CRYPTO (R339). -/
def cryRows : List RegRow :=
  [selW 0x90000 0xFFF, roW 0x90004 byCr] ++ rlW 0x90008 byCr ++
  [rwbW 0x90010 1 0 byCr, roW 0x90014 byCr, rwW 0x90018 all32 byCr, roW 0x9001C byCr, rwW 0x90020 all32 byCr,
   selW 0x90100 1, rwbW 0x90104 0xF0000FFF 0 bySeam, roW 0x90108 bySeam] ++ rlW 0x9010C bySeam ++
  rlW 0x90114 bySeam ++ [rwbW 0x90120 0x1FFF 2000] ++ rlW 0x90124 ++
  [roW 0x9012C, rwW 0x90130 all32, roW 0x90134, rwW 0x90138 all32, roW 0x9013C .one 3]

def byRail : Inst := .by_ 0xA0000 3 0 12

/-- POWER (R365). -/
def pwrRows : List RegRow :=
  [selW 0xA0000 0xF, roW 0xA0004 byRail 5, rwW 0xA0018 all32 byRail, woW 0xA001C 1 byRail, roW 0xA0100,
   rwbW 0xA0104 7 0, rwbW 0xA0108 0x8000FFFF 0x80000014, roW 0xA010C .one 4, roW 0xA0120 .one 13]

/-- THERMAL (R366). The thresholds' resets are R359's. -/
def thRows : List RegRow :=
  [selW 0xB0000 0x1FF, roW 0xB0004 .tsens 4, rwbW 0xB0100 all32 0x6E69645F, rwbW 0xB0104 0xFF 100,
   rwbW 0xB0108 all32 0x55504B46, rwbW 0xB010C 0xFF 20, rwbW 0xB0110 all32 0x645F5A55, rwbW 0xB0114 0xFF 40,
   rwbW 0xB0118 all32 0x4B46413C, rwbW 0xB011C 0xFF 20, rwbW 0xB0120 all32 0x37322D28, rwbW 0xB0124 0xFF 20,
   rwbW 0xB0130 0xFFFF1CF1 0x0A321C31, roW 0xB0134 .one 2, rwW 0xB013C all32, roW 0xB0140, rwW 0xB0144 all32, roW 0xB0148]

def byCnt : Inst := .by_ 0xC0000 5 0 64

/-- PERF (R398). -/
def perfRows : List RegRow :=
  [selW 0xC0000 0x3F, rwbW 0xC0004 0xE00000FF 0 byCnt, rwbW 0xC0008 0x07FFC1FF 0x07FFC100 byCnt,
   rwbW 0xC000C all32 0 byCnt, rwbW 0xC0010 0xFFF 0 byCnt, rwbW 0xC0014 all32 0 byCnt, rwbW 0xC0018 0xFFF 0 byCnt] ++
  rlW 0xC001C byCnt ++
  [roW 0xC0024 byCnt, woW 0xC0028 1 byCnt, rwbW 0xC0100 1 0, roW 0xC0104 .one 2, rwbW 0xC0200 0xFFFFF 0 .one 7,
   rwbW 0xC021C 0xFFFFF 1000000, rwbW 0xC1000 0xF 0 .one 256 16, roW 0xC1004 .one 256 16, roW 0xC1008 .one 256 16,
   roW 0xC100C .one 256 16]

def byCu : Inst := .by_ 0xD0000 1 0 4

/-- CHECK (R399). -/
def cuRows : List RegRow :=
  [selW 0xD0000 3, rwW 0xD0004 0x1F byCu] ++ rlW 0xD0008 byCu ++ [woW 0xD0010 all32 byCu, woW 0xD0014 all32 byCu] ++
  rlW 0xD0018 byCu ++
  [rwW 0xD0020 all32 byCu, rwW 0xD0024 0xFFF byCu, rwW 0xD0028 all32 byCu, rwW 0xD002C all32 byCu, rwW 0xD0030 0x3F byCu,
   rwbW 0xD0034 3 0 byCu, rwW 0xD0038 all32 byCu, rwW 0xD003C 0xFFF byCu, rwW 0xD0040 all32 byCu,
   rwW 0xD0044 0xC0000001 byCu, roW 0xD0048 byCu 2] ++ rlW 0xD0050 byCu ++ [roW 0xD0100]

/-- TALLY (R420). -/
def tlyRows : List RegRow :=
  [selW 0xE0000 all32, selW 0xE0004 all32, roW 0xE0008, woW 0xE000C 1, roW 0xE0040 .one 32] ++ rlW 0xE0100 ++
  rlW 0xE0108 ++ rlW 0xE0110 ++ rlW 0xE0118 ++ [roW 0xE0120, rwW 0xE0124 all32, rwbW 0xE0128 0x3FF 100, roW 0xE012C]

/-- SEED (R421). -/
def seedRows : List RegRow :=
  [selW 0xF0000 0x7FFF, rwW 0xF0004 all32, woW 0xF0008 0x17F, woW 0xF000C all32, woW 0xF0010 all32, roW 0xF0014 .one 3,
   rwbW 0xF0100 1 0, roW 0xF0104 .one 2, rwW 0xF010C all32, roW 0xF0110 .one 2]

def byQ : Inst := .by_ 0x100000 1 0 3
def byF : Inst := .by_ 0x100040 2 0 8
def byHk : Inst := .by_ 0x100130 6 0 128

/-- FOREMAN (R259). -/
def foreRows : List RegRow :=
  [selW 0x100000 3, roW 0x100004 byQ, rwbW 0x100008 0xF 1 byQ, roW 0x10000C byQ 2, rwW 0x100014 all32 byQ, roW 0x100018 byQ,
   selW 0x100040 7, rwbW 0x100044 0x1F 0x1E byF, roW 0x100048 byF 4, rwbW 0x100100 0xFFFFFF 100000] ++
  rlW 0x100104 ++ rlW 0x10010C ++
  [roW 0x100114 .one 2, rwW 0x10011C all32, roW 0x100120 .one 4, selW 0x100130 0x7F, roW 0x100134 byHk, selW 0x100138 0xFFFFF,
   rwW 0x10013C all32, roW 0x100140 .one 2]

def bySrc : Inst := .by_ 0x110000 9 0 576

/-- EVENT (R313). -/
def evtRows : List RegRow :=
  [selW 0x110000 0x3FF, roW 0x110004 bySrc 2, woW 0x11000C all32 bySrc, rwbW 0x110010 0x31F 0 bySrc] ++
  rlW 0x110014 bySrc ++ [roW 0x11001C bySrc, roW 0x110100 .one 18, rwbW 0x110200 0xFFFF0003 0x640003, roW 0x110204 .one 2]

def byMem : Inst := .by_ 0x120000 11 8 16

/-- SCRATCH (R400). -/
def scrRows : List RegRow :=
  [selW 0x120000 0xF0F, rwbW 0x120004 0x7F 10 byMem, roW 0x120008 byMem 5, roW 0x12001C .scr 2, roW 0x120100,
   rwW 0x120104 all32, roW 0x120108 .one 2]

/-- DEBUG (R379). -/
def dbgRows : List RegRow :=
  [roW 0x130000, rwbW 0x130004 0x103 3, roW 0x130008, rwW 0x13000C all32, rwW 0x130010 0xFF, woW 0x130014 0xF,
   selW 0x130018 0x1FFFFF, rwW 0x13001C all32, rwW 0x130040 all32, rwW 0x130044 0xFFF, woW 0x130048 0xF, rwW 0x13004C all32,
   rwW 0x130050 all32, roW 0x130054, rwW 0x130080 all32 .one 18, roW 0x130100 .one 2, rwW 0x130140 all32, rwW 0x130144 all32,
   rwW 0x130148 0x7FF, woW 0x13014C all32, woW 0x130150 1, roW 0x130154, rwW 0x130158 all32, roW 0x13015C .one 13]

/-- The rows of the block that holds byte offset `off` (R293). -/
def blockRows (off : Nat) : List RegRow :=
  match off / 0x10000 with
  | 0x00 => glbRows | 0x01 => pwRows | 0x02 => clsRows | 0x03 => regRows | 0x04 => hopRows | 0x05 => medRows
  | 0x06 => upkRows ++ fbRows | 0x07 => perRows | 0x08 => twRows | 0x09 => cryRows | 0x0A => pwrRows | 0x0B => thRows
  | 0x0C => perfRows | 0x0D => cuRows | 0x0E => tlyRows | 0x0F => seedRows | 0x10 => foreRows | 0x11 => evtRows
  | 0x12 => scrRows | 0x13 => dbgRows | _ => []

/-- Does this row hold a word at `off`? -/
def RegRow.covers (r : RegRow) (off : Nat) : Bool :=
  r.off ≤ off && (off - r.off) % r.stride = 0 && (off - r.off) / r.stride < r.n

/-- The row of a register offset; none when unassigned (R294). -/
def rowAt (off : Nat) : Option RegRow := (blockRows off).find? (·.covers off)

/-! ### Tables (R302) -/

/-- A table word: how it is accessed, its writable bits, its reset value. -/
structure TWord where
  acc : Acc
  mask : Nat
  reset : Nat
  deriving DecidableEq, Repr

/-- Default reactions, windows and limits of the rails (R342, R348, R349). Windows in 0.1 % of nominal. -/
def railReact : List Nat := [2, 0, 0, 2, 1, 1, 1, 2, 2, 2, 2, 2]
def railOv : List Nat := [57, 31, 50, 30, 30, 30, 50, 30, 50, 50, 50, 50]
def railUv : List Nat := [71, 62, 50, 30, 30, 30, 50, 30, 50, 50, 50, 50]
def railLim : List Nat := [4500, 150, 50, 15000, 4500, 1200, 300, 3200, 600, 1600, 800, 1400]
/-- Groups as PWR_RSTAT.GROUP codes them: 0 AON, 1 CORE, 2 LINK, 3 HOPPER, 4 MEDIA, 5 none. -/
def railGroup : List Nat := [5, 5, 0, 1, 2, 2, 2, 3, 3, 4, 4, 4]
/-- Nominal voltages in mV (R342). -/
def railNom : List Nat := [7000, 32000, 3300, 750, 850, 1200, 1800, 1350, 1800, 2500, 1200, 5000]
/-- Bring-up order (R344). -/
def railOrder : List Nat := [3, 6, 8, 7, 10, 9, 11, 4, 5]

def lget (l : List Nat) (n : Nat) : Nat := (l[n]?).getD 0

/-- The table word at a plate index from 0x8_0000 upward; none when unassigned. -/
def tableAt (i : Nat) : Option TWord :=
  if 0x80000 ≤ i && i < 0x84000 then
    match i % 4 with
    | 0 => some ⟨.rwb, 0xFFE00000, 0⟩ | 1 => some ⟨.rwb, 0x7FFF3FFF, 0⟩ | 2 => some ⟨.ro, 0, 0⟩ | _ => some ⟨.ro, 0, 0⟩
  else if 0x90000 ≤ i && i < 0xD8000 then
    let e := (i - 0x90000) % 0x480 / 2
    if e < 64 then (if i % 2 = 0 then some ⟨.rwb, 0xBFFF3FFF, 0⟩ else some ⟨.rwb, 0x7FFF, 0⟩)
    else some ⟨.ro, 0, if i % 2 = 0 then 0x40000000 else 0⟩
  else if 0xD8000 ≤ i && i < 0xD8200 then
    (if i % 2 = 0 then some ⟨.rwb, 0xFFFFFF, 0x80000⟩ else some ⟨.rwb, 0x1F1F, 0⟩)
  else if 0xE0000 ≤ i && i < 0x100040 then some ⟨.wo, all32, 0⟩
  else if 0x101000 ≤ i && i < 0x101030 then
    let k := (i - 0x101000) / 4
    match i % 4 with
    | 0 => some ⟨.rwb, if k < 3 then 0 else 0xC0000000, lget railReact k * 2 ^ 30⟩
    | 1 => some ⟨.rwb, if k < 3 then 0 else 0xFFFF, lget railOv k * 256 + lget railUv k⟩
    | 2 => some ⟨.rwb, 0xFFFF, lget railLim k⟩
    | _ => some ⟨.ro, 0, 0⟩
  else if 0x102000 ≤ i && i < 0x102400 then
    match i % 16 with
    | 0 => some ⟨.rwb, 0x8FFFFFFF, 0⟩
    | w => if w < 13 then some ⟨.rwb, all32, 0⟩ else some ⟨.ro, 0, 0⟩
  else if 0x103000 ≤ i && i < 0x103200 then
    match i % 4 with
    | 0 => some ⟨.rwb, 0xFCFF03FF, 0⟩ | _ => some ⟨.rwb, all32, 0⟩
  else none

/-! ### Plate keys -/

/-- Storage key of plate `idx` for instance `inst`. -/
def pkey (inst idx : Nat) : Nat := inst * 0x200000 + idx

/-- Reset routing of event sources (R422, R425): LOG in bits 9:8, T A M F H in bits 4:0. -/
def routeReset (s : Nat) : Nat :=
  if s < 256 then 0x111 else if s < 326 then 0x11E else if s < 526 then 0x116 else if s < 538 then 0x21E
  else if s < 546 then 0x016
  else lget [0x11E, 0x21E, 0x01E, 0x116, 0x11E, 0x11E, 0x016, 0x016, 0x116, 0x11E, 0x21E, 0x016, 0x116, 0x016, 0x016,
    0x11E, 0x11E, 0x016, 0x016, 0x21E, 0x016, 0x116] (s - 546)

/-- Reset value of a stored plate: the row's, except where it differs per instance (FORE_ASSIGN, EVT_ROUTE, the rail
policy, DRF_ENTRY's factory offset). The image's hook and trigger entries are written at image load (R434). -/
def plateReset (key : Nat) : Nat :=
  let idx := key % 0x200000
  let inst := key / 0x200000
  if idx < 0x80000 then
    if idx = 0x40011 then (if inst = 0 then 1 else if inst = 1 then 3 else 0x1E)
    else if idx = 0x44004 then routeReset inst
    else if idx = 0x18061 then
      (Config.factoryOffset (inst / 65536) (inst / 256 % 256) (inst / 8 % 32) (inst % 8)).toNat
    else match rowAt (4 * idx) with
      | some r => r.reset
      | none => 0
  else match tableAt idx with
    | some t => t.reset
    | none => 0

/-- Writable bits of a plate: the row's, less what R313 makes read-only per source. -/
def plateMask (key : Nat) : Nat :=
  let idx := key % 0x200000
  let inst := key / 0x200000
  if idx < 0x80000 then
    if idx = 0x44004 then (if inst < 256 then 0x31F else if inst < 568 then 0x31E else 0)
    else match rowAt (4 * idx) with
      | some r => r.mask
      | none => 0
  else match tableAt idx with
    | some t => t.mask
    | none => 0

/-- Access kind of a plate index; none when unassigned (R237). -/
def plateAcc (idx : Nat) : Option Acc :=
  if idx < 0x80000 then (rowAt (4 * idx)).map (·.acc) else (tableAt idx).map (·.acc)

/-- A plate of a table as stored. -/
def pget (t : Tbl Word) (key : Nat) : Word :=
  match t.find? (fun e => e.1 == key) with
  | some e => e.2
  | none => BitVec.ofNat 32 (plateReset key)

/-- Store a plate, keeping the canonical form. -/
def pput (t : Tbl Word) (key : Nat) (v : Word) : Tbl Word :=
  tput (BitVec.ofNat 32 (plateReset key)) t key v

/-- The table word that a selected view shows (R303): CLS_ALLOW, CLS_TMR, REG_W0–REG_W3. -/
def viewOf (inst idx : Nat) : Option Nat :=
  if idx = 0x8001 then some (0xD8000 + 2 * inst)
  else if idx = 0x8002 then some (0xD8001 + 2 * inst)
  else if 0xC001 ≤ idx && idx < 0xC005 then some (0x80000 + 4 * inst + (idx - 0xC001))
  else none

end Sys2Proof.Machine
end

