-- ==== Sys2Proof/Machine/Operands.lean ====
section
/-!
DEFINITION. How operands name things: plate values in force, regions, LD maps, device addresses, frame positions and
channels, map entries, and the bounds a request is measured against.
-/

namespace Sys2Proof.Machine

/-! ### Plates in force -/

/-- Applied value of a register plate of instance `inst` at byte offset `off`. -/
def Mod.w (m : Mod) (inst off : Nat) : Word := pget m.cfg.plates (pkey inst (off / 4))

/-- Applied value of a table word. -/
def Mod.tab (m : Mod) (idx : Nat) : Word := pget m.cfg.plates idx

/-- The same table word before the last boundary (R25). -/
def Mod.tabPrev (m : Mod) (idx : Nat) : Word := pget m.cfg.prev idx

/-- Write a plate (the module's own update or an applied transaction). -/
def Mod.setPlate (m : Mod) (key : Nat) (v : Word) : Mod :=
  { m with cfg := { m.cfg with plates := pput m.cfg.plates key v } }

/-- Write a register plate by instance and offset. -/
def Mod.setW (m : Mod) (inst off : Nat) (v : Word) : Mod := m.setPlate (pkey inst (off / 4)) v

/-- A field that admission uses: the lower of its value now and before the last boundary, so that an increase takes
effect one frame late and a decrease at once (R25). -/
def effField (m : Mod) (idx hi lo : Nat) : Nat := min (bits (m.tab idx) hi lo) (bits (m.tabPrev idx) hi lo)

/-! ### Sub-tables of the state -/

def Mod.isl (m : Mod) (i : Nat) : Isl := tget {} m.time.isl i
def Mod.setIsl (m : Mod) (i : Nat) (f : Isl → Isl) : Mod :=
  { m with time := { m.time with isl := tmod {} m.time.isl i f } }
def Mod.port (m : Mod) (p : Nat) : Port := tget {} m.host.ports p
def Mod.setPort (m : Mod) (p : Nat) (f : Port → Port) : Mod :=
  { m with host := { m.host with ports := tmod {} m.host.ports p f } }
def Mod.lp (m : Mod) (l : Nat) : Lp := tget {} m.host.lps l
def Mod.setLp (m : Mod) (l : Nat) (f : Lp → Lp) : Mod := { m with host := { m.host with lps := tmod {} m.host.lps l f } }
def Mod.aux (m : Mod) (l : Nat) : LpAux := tget {} m.host.aux l
def Mod.setAux (m : Mod) (l : Nat) (f : LpAux → LpAux) : Mod :=
  { m with host := { m.host with aux := tmod {} m.host.aux l f } }
def Mod.frame (m : Mod) (f : Nat) : Frame := tget {} m.hop.frames f
def Mod.setFrame (m : Mod) (n : Nat) (f : Frame → Frame) : Mod :=
  { m with hop := { m.hop with frames := tmod {} m.hop.frames n f } }
def Mod.hch (m : Mod) (c : Nat) : HopCh := tget {} m.hop.chans c
def Mod.setHch (m : Mod) (c : Nat) (f : HopCh → HopCh) : Mod := { m with hop := { m.hop with chans := tmod {} m.hop.chans c f } }
def Mod.mch (m : Mod) (c : Nat) : MedCh := tget {} m.med.chans c
def Mod.setMch (m : Mod) (c : Nat) (f : MedCh → MedCh) : Mod := { m with med := { m.med with chans := tmod {} m.med.chans c f } }
def Mod.die (m : Mod) (n : Nat) : Die := tget {} m.med.dies n
def Mod.setDie (m : Mod) (n : Nat) (f : Die → Die) : Mod := { m with med := { m.med with dies := tmod {} m.med.dies n f } }
/-- Stripe blocks are keyed stripe group × 16,384 + block. -/
def bkey (sg blk : Nat) : Nat := sg * 16384 + blk
def Mod.blk (m : Mod) (k : Nat) : Blk := tget {} m.upk.blks k
def Mod.setBlk (m : Mod) (k : Nat) (f : Blk → Blk) : Mod := { m with upk := { m.upk with blks := tmod {} m.upk.blks k f } }
def Mod.master (m : Mod) (i : Nat) : Master := tget {} m.path.masters i
def Mod.setMaster (m : Mod) (i : Nat) (f : Master → Master) : Mod :=
  { m with path := { m.path with masters := tmod {} m.path.masters i f } }
def Mod.pathQ (m : Mod) (p : Nat) : PathQ := tget {} m.path.queues p
def Mod.setPathQ (m : Mod) (p : Nat) (f : PathQ → PathQ) : Mod :=
  { m with path := { m.path with queues := tmod {} m.path.queues p f } }
/-- A write that changes nothing is recorded as no-change for its master (R9, R295, R393, R394): a count that no register shows. Log entry 113
(DESIGN CHOICE). -/
def Mod.noteNoChange (m : Mod) (who : Nat) : Mod := { m with path := { m.path with noChange := tmod 0 m.path.noChange who (· + 1) } }
def Mod.fm (m : Mod) (i : Nat) : Foreman := tget {} m.fore.fm i
def Mod.setFm (m : Mod) (i : Nat) (f : Foreman → Foreman) : Mod := { m with fore := { m.fore with fm := tmod {} m.fore.fm i f } }
def Mod.queue (m : Mod) (i : Nat) : Queue := tget {} m.fore.qs i
def Mod.setQueue (m : Mod) (i : Nat) (f : Queue → Queue) : Mod := { m with fore := { m.fore with qs := tmod {} m.fore.qs i f } }
def Mod.hook (m : Mod) (i : Nat) : Hook := tget {} m.fore.hooks i
def Mod.setHook (m : Mod) (i : Nat) (f : Hook → Hook) : Mod := { m with fore := { m.fore with hooks := tmod {} m.fore.hooks i f } }
def Mod.src (m : Mod) (i : Nat) : Src := tget {} m.evt.srcs i
def Mod.setSrc (m : Mod) (i : Nat) (f : Src → Src) : Mod := { m with evt := { m.evt with srcs := tmod {} m.evt.srcs i f } }
def Mod.rail (m : Mod) (k : Nat) : Rail := tget {} m.pwr.rails k
def Mod.setRail (m : Mod) (k : Nat) (f : Rail → Rail) : Mod := { m with pwr := { m.pwr with rails := tmod {} m.pwr.rails k f } }
def Mod.therm (m : Mod) (i : Nat) : Therm := tget {} m.th.t i
def Mod.setTherm (m : Mod) (i : Nat) (f : Therm → Therm) : Mod := { m with th := { m.th with t := tmod {} m.th.t i f } }
def Mod.cu (m : Mod) (i : Nat) : Cu := tget {} m.perf.cus i
def Mod.setCu (m : Mod) (i : Nat) (f : Cu → Cu) : Mod := { m with perf := { m.perf with cus := tmod {} m.perf.cus i f } }
def Mod.scr (m : Mod) (i : Nat) : Scr := tget {} m.perf.scr i
def Mod.setScr (m : Mod) (i : Nat) (f : Scr → Scr) : Mod := { m with perf := { m.perf with scr := tmod {} m.perf.scr i f } }
def Mod.twr (m : Mod) (r : Nat) : TwReg := tget {} m.twin.regs r
def Mod.setTwr (m : Mod) (r : Nat) (f : TwReg → TwReg) : Mod := { m with twin := { m.twin with regs := tmod {} m.twin.regs r f } }
def Mod.crec (m : Mod) (r : Nat) : CRec := tget {} m.cry.recs r
def Mod.setCrec (m : Mod) (r : Nat) (f : CRec → CRec) : Mod := { m with cry := { m.cry with recs := tmod {} m.cry.recs r f } }
def Mod.slot (m : Mod) (n : Nat) : Option Slot := tget none m.cry.slots n
def Mod.setSlot (m : Mod) (n : Nat) (s : Option Slot) : Mod := { m with cry := { m.cry with slots := tput none m.cry.slots n s } }
def Mod.seam (m : Mod) (e : Nat) : Seam := tget {} m.cry.seams e
def Mod.setSeam (m : Mod) (e : Nat) (f : Seam → Seam) : Mod := { m with cry := { m.cry with seams := tmod {} m.cry.seams e f } }
def Mod.emit (m : Mod) (o : Out) : Mod := { m with out := m.out ++ [o] }

/-! ### Time -/

/-- Frame number (R21). -/
def Mod.frameNo (m : Mod) : Nat := m.time.dtc / 1000

/-- The period of an island's working clock in whole ns (R11, R19): a LINK island's clock follows its port's rate; the clocks of the
other islands have periods of 1 ns or less, which the resolution of 1 ns hides. -/
def Mod.islPeriod (m : Mod) (i : Nat) : Nat :=
  if i < 16 then (match (m.port i).rate with | .g64 => 1 | .g32 => 2 | .g16 => 4) else 1
/-- The stamp island `i` takes now from its own copy (R19), quantised to one period of its clock. AON (41) has the DTC itself. That
the stamp is rounded down: log entry 84 (DESIGN CHOICE). -/
def Mod.stamp (m : Mod) (i : Nat) : Nat := Int.toNat (m.time.dtc + (m.isl i).off) / m.islPeriod i * m.islPeriod i

/-- Islands by number (R402). -/
def islTwin : Nat := 16
def islXbar : Nat := 17
def islCrypt : Nat := 18
def islHop : Nat := 19
def islMed (c : Nat) : Nat := 20 + c
def islFore : Nat := 40
def islAon : Nat := 41

/-- Draw the next open value of the model. -/
def Mod.draw (m : Mod) : Nat × Mod := (m.time.fresh, { m with time := { m.time with fresh := m.time.fresh + 1 } })

/-- Seconds of operation with CORE powered, over the module's life, saturating (GLB_OPSEC). -/
def Mod.opsecNow (m : Mod) : Nat :=
  min 0xFFFFFFFF (m.nv.opsec + (if m.pwr.started then (m.time.dtc - m.time.opsecAt) / 1000000000 else 0))

/-- Media seconds (R169). -/
def Mod.ms (m : Mod) : Nat := m.time.dtc / 1000000000 + m.fb.gapsum

/-! ### Regions (R304) -/

def Mod.rw0 (m : Mod) (r : Nat) : Word := m.tab (0x80000 + 4 * r)
def Mod.rw1 (m : Mod) (r : Nat) : Word := m.tab (0x80001 + 4 * r)
def rValid (w : Word) : Bool := bit w 31
def rClass (w : Word) : Nat := bits w 30 28
def rSetB (w : Word) : Bool := bit w 27
def rMirror (w : Word) : Nat := bits w 26 25
def rHome (w : Word) : Nat := bits w 24 24
def rShared (w : Word) : Bool := bit w 23
def rTags (w : Word) : Bool := bit w 22
def rPlain (w : Word) : Bool := bit w 21
def rCount (w : Word) : Nat := bits w 30 16
def rBase (w : Word) : Nat := bits w 13 0

/-- Valid regions of a plate table. -/
def validRegions (t : Tbl Word) : List Nat :=
  t.filterMap (fun e => if 0x80000 ≤ e.1 && e.1 < 0x84000 && e.1 % 4 == 0 && bit e.2 31
    then some ((e.1 - 0x80000) / 4) else none)

def regIn (t : Tbl Word) (r gran : Nat) : Bool :=
  let w := pget t (0x80001 + 4 * r)
  rBase w ≤ gran && gran < rBase w + rCount w

/-- The region of a device granule. -/
def regionOfT (t : Tbl Word) (gran : Nat) : Option Nat := (validRegions t).find? (fun r => regIn t r gran)
def Mod.regionOf (m : Mod) (gran : Nat) : Option Nat := regionOfT m.cfg.plates gran

/-- Granule, page and line arithmetic of the device space (R91): a line is 64 bytes, a page 64 lines, a granule 2^18
pages. -/
def pageOfLine (l : Nat) : Nat := l / 64
def granOfPage (p : Nat) : Nat := p / 262144
def granOfLine (l : Nat) : Nat := l / 16777216
/-- Pages of a region, in device-space order. -/
def regPage0 (w1 : Word) : Nat := rBase w1 * 262144
def regPages (w1 : Word) : Nat := rCount w1 * 262144
/-- Addressable granules of a region: a tagged region's last eighth funds its tags (R334). -/
def regGranules (w0 w1 : Word) : Nat := if rTags w0 then rCount w1 - rCount w1 / 8 else rCount w1

/-- Class of a region's requests: a region entering Tight-Pinned keeps its previous class until its pin load is done,
which is what `pinned` lists (R109). -/
def clsOf (n : Nat) : Cls := match n with | 0 => .tight | 1 => .pinned | 2 => .standard | _ => .bulk

/-- The class in effect for a region. -/
def Mod.clsNow (m : Mod) (r : Nat) : Cls :=
  let c := clsOf (rClass (m.rw0 r))
  if c = .pinned && !m.hop.pinned.contains r then clsOf (tget 0 m.hop.pinPrev r) else c

/-- Mapped pages of a region (R304 word 3). -/
def Mod.regMapped (m : Mod) (r : Nat) : List Nat :=
  let w1 := m.rw1 r
  let p0 := regPage0 w1
  (m.hop.map.filter (fun e => p0 ≤ e.1 && e.1 < p0 + regPages w1)).map (·.1)

/-! ### LD maps (R305) -/

structure LdEnt where
  e : Nat
  dpa : Nat
  dev : Nat
  count : Nat
  deriving DecidableEq, Repr

/-- Valid LD map entries of LP `l` in a plate table. -/
def ldEntsT (t : Tbl Word) (l : Nat) : List LdEnt :=
  t.filterMap (fun e =>
    let lo := 0x90000 + 0x480 * l
    if lo ≤ e.1 && e.1 < lo + 0x480 && e.1 % 2 == 0 && bit e.2 31 then
      some { e := (e.1 - lo) / 2, dpa := bits e.2 29 16, dev := bits e.2 13 0, count := bits (pget t (e.1 + 1)) 14 0 }
    else none)
def Mod.ldEnts (m : Mod) (l : Nat) : List LdEnt := ldEntsT m.cfg.plates l

/-- LPs that hold a valid entry, in a plate table. -/
def ldLps (t : Tbl Word) : List Nat :=
  (t.filterMap (fun e => if 0x90000 ≤ e.1 && e.1 < 0xD8000 && e.1 % 2 == 0 && bit e.2 31
    then some ((e.1 - 0x90000) / 0x480) else none)).eraseDups

/-- LPs bound to region `r` (BOUND). -/
def boundLps (t : Tbl Word) (r : Nat) : List Nat :=
  (ldLps t).filter (fun l => (ldEntsT t l).any (fun en => regionOfT t en.dev == some r))

/-- The device granule of an LP's DPA granule. -/
def Mod.dpaGran (m : Mod) (l g : Nat) : Option Nat :=
  match (m.ldEnts l).find? (fun en => en.dpa ≤ g && g < en.dpa + en.count) with
  | some en => some (en.dev + (g - en.dpa))
  | none => none

/-- DPA of a device line for LP `l`, if its map names it. -/
def Mod.devToDpa (m : Mod) (l lineNo : Nat) : Option Nat :=
  let g := granOfLine lineNo
  match (m.ldEnts l).find? (fun en => en.dev ≤ g && g < en.dev + en.count) with
  | some en => some ((en.dpa + (g - en.dev)) * 16777216 + lineNo % 16777216)
  | none => none

/-- LPs whose map names a granule. -/
def Mod.lpsOfGran (m : Mod) (g : Nat) : List Nat :=
  (ldLps m.cfg.plates).filter (fun l => (m.ldEnts l).any (fun en => en.dev ≤ g && g < en.dev + en.count))

/-! ### HDM decoding (R46) -/

/-- DPA that a committed decoder gives a host physical address: this LD's share of an interleave of `ways` targets at
granularity `gran`, by the specification's modulo rule. -/
def Hdm.dpa (d : Hdm) (hpa : Nat) : Option Nat :=
  if d.base ≤ hpa && hpa < d.base + d.size then
    let off := hpa - d.base
    if off / d.gran % d.ways = d.pos then some (d.skip + off / (d.gran * d.ways) * d.gran + off % d.gran) else none
  else none

/-- The device line of a request: decoders first, then the LD map, then a region (R47). -/
def Mod.decodeHpa (m : Mod) (l hpa : Nat) : Option Nat :=
  match ((List.range 4).filterMap (fun i => (tget none (m.lp l).hdm i).bind (·.dpa hpa))).head? with
  | none => none
  | some dpa =>
    match m.dpaGran l (dpa / 0x40000000) with
    | none => none
    | some g => if (match m.regionOf g with | some r => !(m.twr r).held | none => false) then some (g * 16777216 + dpa % 0x40000000 / 64) else none

/-! ### Hopper geometry (R87–R91, R115) -/

def spill0 : Nat := 16777216
def mapPos0 : Nat := 17825792
/-- Channels in the layout; one that fails while the module runs leaves it at the restart (R115). -/
def Mod.hcList (m : Mod) : List Nat := (List.range 54).filter (fun c => !(m.hch c).out)
/-- The channel of a frame position (R88; R115 step 4 with channels fenced). -/
def Mod.chanOf (m : Mod) (p : Nat) : Nat := let l := m.hcList; lget l (p % max 1 l.length)
/-- Spill frames of the layout: each fenced channel takes 466,032 (R115). -/
def Mod.spillTotal (m : Mod) : Nat := 1048576 - 466032 * (54 - m.hcList.length)
/-- The map and the metadata keep their sizes behind the spill frames that the layout has (R90, R115). -/
def Mod.mapBase (m : Mod) : Nat := spill0 + m.spillTotal
def Mod.metaBase (m : Mod) : Nat := m.mapBase + 5242880
def Mod.posEnd (m : Mod) : Nat := 466032 * m.hcList.length
/-- Where a line of a frame position lies (R88): channel, slot, bank, row and column; and its 8 check bytes: bank, row, byte. The row
and bank follow from the slot, p divided by the channels of the layout. -/
structure HopLoc where
  ch : Nat
  slot : Nat
  bank : Nat
  row : Nat
  col : Nat
  ckBank : Nat
  ckRow : Nat
  ckByte : Nat
  deriving DecidableEq, Repr
def hopLocOf (ch slot j : Nat) : HopLoc :=
  let b := slot % 16
  let i := slot / 16
  { ch, slot, bank := b, row := 2 * i + j / 32, col := 64 * (j % 32), ckBank := Nat.xor b 8, ckRow := 58254 + i / 4,
    ckByte := 512 * (i % 4) + 8 * j }
def Mod.hopLoc (m : Mod) (p j : Nat) : HopLoc := hopLocOf (m.chanOf p) (p / max 1 m.hcList.length) j
def setOf (page : Nat) : Nat := page % 2097152
def tagOf (page : Nat) : Nat := page / 2097152

/-! ### Map entries (R133, R125) -/

def mkEntry (sg ch blk pg : Nat) : Nat := 2 ^ 38 + sg * 2 ^ 33 + ch * 2 ^ 29 + blk * 2 ^ 15 + pg * 2 ^ 4
def mkSpill (f : Nat) : Nat := 2 ^ 39 + (f - spill0)
def enForm (e : Nat) : Nat := e / 2 ^ 38 % 4
def enSg (e : Nat) : Nat := e / 2 ^ 33 % 32
def enCh (e : Nat) : Nat := e / 2 ^ 29 % 16
def enBlk (e : Nat) : Nat := e / 2 ^ 15 % 16384
def enPg (e : Nat) : Nat := e / 2 ^ 4 % 2048
def enSpill (e : Nat) : Nat := spill0 + e % 2 ^ 20
/-- Parity index P of a stripe block; Q is the next (R125). -/
def parityP (blk : Nat) : Nat := 2 * (blk % 5)
def isParity (blk x : Nat) : Bool := x = parityP blk || x = parityP blk + 1
/-- Data dies of a block in ascending channel index. -/
def dataDies (blk : Nat) : List Nat := (List.range 10).filter (fun x => !isParity blk x)
/-- Die number of channel index `x` in stripe group `sg` (R122, R123). -/
def dieOf (sg x : Nat) : Nat := 10 * (x + 10 * (sg / 10)) + sg % 10
/-- Media channel of channel index `x` in stripe group `sg`. -/
def mcOf (sg x : Nat) : Nat := x + 10 * (sg / 10)

/-- Is a media-form entry well-formed for a region confined to set B or A (R133)? -/
def entryOk (e : Nat) (confined : Option Bool) : Bool :=
  enForm e != 3 && (enForm e != 1 ||
    (enSg e < 20 && enCh e < 10 && !isParity (enBlk e) (enCh e) &&
      (match confined with | none => true | some b => (10 ≤ enSg e) == b)))

/-- The live entry of a page. -/
def Mod.entry (m : Mod) (page : Nat) : Nat := tget 0 m.hop.map page
/-- The media location a page has, through its spill frame if it has one; 0 for none. -/
def Mod.mediaLoc (m : Mod) (page : Nat) : Nat :=
  let e := m.entry page
  if enForm e = 2 then (m.frame (enSpill e)).saved else if enForm e = 1 then e else 0

/-! ### Map cache (R95) -/

def mcSet (page : Nat) : Nat := let l := page / 12; Nat.xor (Nat.xor l (l / 2 ^ 13)) (l / 2 ^ 26) % 8192
def Mod.mcHit (m : Mod) (page : Nat) : Bool := (tget [] m.hop.mcache (mcSet page)).contains (page / 12)
/-- Use a cached line, or bring it in over the least recently used of 16. -/
def Mod.mcTouch (m : Mod) (page : Nat) : Mod :=
  { m with hop := { m.hop with mcache := tmod [] m.hop.mcache (mcSet page) (fun l => ((page / 12) :: l.erase (page / 12)).take 16) } }

/-! ### Bounds (R37, R47, R69, R71, R278) -/

/-- Link adder in ns (R37). -/
def linkAdd (w : LinkWidth) (r : LinkRate) : Nat :=
  match w, r with
  | .x16, .g64 => 0 | .x16, .g32 => 40 | .x16, .g16 => 120
  | .x8, .g64 => 4 | .x8, .g32 => 48 | .x8, .g16 => 136
  | .x4, .g64 => 12 | .x4, .g32 => 64 | .x4, .g16 => 168
def Mod.linkAdd (m : Mod) (lp : Nat) : Nat := let p := m.port (lp / 16); Machine.linkAdd p.width p.rate

/-- Base bound of a class (R69): read, write or resident partial, non-resident partial. A MemInv is bounded as a read
(R48). Tight-Pinned lines are always resident. -/
def baseBound (c : Cls) (op : ReqOp) (resident : Bool) : Nat :=
  match c, op with
  | .tight, .read | .tight, .inv | .pinned, .read | .pinned, .inv => 240
  | .tight, .write | .pinned, .write => 120
  | .tight, .ptl => if resident then 120 else 250
  | .pinned, .ptl => 120
  | .standard, .read | .standard, .inv => 900
  | .standard, .write => 600
  | .standard, .ptl => if resident then 600 else 900
  | .bulk, .read | .bulk, .inv => 6000
  | .bulk, .write => 4000
  | .bulk, .ptl => if resident then 4000 else 6000

/-- Feature adders (R71): integrity tags, Seam, Sync mirror. Bulk takes none, and neither does a MemInv (R48). -/
def featureAdd (c : Cls) (op : ReqOp) (resident tags seam sync : Bool) : Nat :=
  if c = .bulk || op = .inv then 0
  else
    (if tags && !(op = .ptl && !resident) then 10 else 0) + (if seam then 60 else 0) +
    (if sync && (op = .write || op = .ptl) then 140 else 0)

/-- The default budget of a program (FORE_STEPDEF). -/
def Mod.stepDef (m : Mod) : Nat := bits (m.w 0 0x100100) 23 0

end Sys2Proof.Machine
end

