-- ==== Sys2Proof/Machine/Crypto.lean ====
section
/-!
DEFINITION. The ciphers and checks the module computes: AES-256 in XTS mode (R317), AES-CMAC verifiers and tags (R321,
R333), and the four CRCs of the check units (R390, R391). AES is FIPS 197's; its byte 0 is the least significant byte
of the words the spec writes (little-endian, spec/00_scope.md, Conventions).
-/

namespace Sys2Proof.Machine

/-- The AES S-box (FIPS 197). -/
def sboxTab : Array Nat := (
    [99, 124, 119, 123, 242, 107, 111, 197, 48, 1, 103, 43, 254, 215, 171, 118, 202, 130, 201, 125, 250, 89, 71,
   240, 173, 212, 162, 175, 156, 164, 114, 192, 183, 253, 147, 38, 54, 63, 247, 204, 52, 165, 229, 241, 113, 216,
   49, 21, 4, 199, 35, 195, 24, 150, 5, 154, 7, 18, 128, 226, 235, 39, 178, 117] ++
    [9, 131, 44, 26, 27, 110, 90, 160, 82, 59, 214, 179, 41, 227, 47, 132, 83, 209, 0, 237, 32, 252, 177, 91, 106,
   203, 190, 57, 74, 76, 88, 207, 208, 239, 170, 251, 67, 77, 51, 133, 69, 249, 2, 127, 80, 60, 159, 168, 81, 163,
   64, 143, 146, 157, 56, 245, 188, 182, 218, 33, 16, 255, 243, 210] ++
    [205, 12, 19, 236, 95, 151, 68, 23, 196, 167, 126, 61, 100, 93, 25, 115, 96, 129, 79, 220, 34, 42, 144, 136, 70,
   238, 184, 20, 222, 94, 11, 219, 224, 50, 58, 10, 73, 6, 36, 92, 194, 211, 172, 98, 145, 149, 228, 121, 231, 200,
   55, 109, 141, 213, 78, 169, 108, 86, 244, 234, 101, 122, 174, 8] ++
    [186, 120, 37, 46, 28, 166, 180, 198, 232, 221, 116, 31, 75, 189, 139, 138, 112, 62, 181, 102, 72, 3, 246, 14,
   97, 53, 87, 185, 134, 193, 29, 158, 225, 248, 152, 17, 105, 217, 142, 148, 155, 30, 135, 233, 206, 85, 40, 223,
   140, 161, 137, 13, 191, 230, 66, 104, 65, 153, 45, 15, 176, 84, 187, 22]).toArray

def sbox (x : Nat) : Nat := (sboxTab[x % 256]?).getD 0

/-- The inverse S-box. -/
def invSbox (x : Nat) : Nat := ((List.range 256).find? (fun i => sbox i = x)).getD 0

/-- Multiplication by x in GF(2^8) of AES. -/
def xtime (b : Nat) : Nat := if b < 128 then 2 * b else Nat.xor (2 * b - 256) 0x1B

/-- Multiplication in GF(2^8) of AES, `n` bits of the second factor. -/
def gmul : Nat → Nat → Nat → Nat
  | 0, _, _ => 0
  | n + 1, a, b => Nat.xor (if b % 2 = 1 then a else 0) (gmul n (xtime a) (b / 2))

def xorL (a b : List Nat) : List Nat := List.zipWith Nat.xor a b

/-- `n` bytes of a number, least significant first, as numbers. -/
def toBytes : Nat → Nat → List Nat
  | 0, _ => []
  | n + 1, v => v % 256 :: toBytes n (v / 256)

def ofBytes : List Nat → Nat
  | [] => 0
  | b :: t => b + 256 * ofBytes t

/-- Round constants (FIPS 197, key expansion of AES-256). -/
def rcon (i : Nat) : Nat := 2 ^ (i - 1)

/-- Extend a reversed list of 4-byte key words to `fuel` more words. -/
def expandStep : Nat → Nat → List (List Nat) → List (List Nat)
  | 0, _, ws => ws
  | fuel + 1, i, ws =>
    let prev := ws.headD []
    let t :=
      if i % 8 = 0 then
        match prev.drop 1 ++ prev.take 1 with
        | a :: r => Nat.xor (sbox a) (rcon (i / 8)) :: r.map sbox
        | [] => []
      else if i % 8 = 4 then prev.map sbox else prev
    expandStep fuel (i + 1) (xorL ((ws[7]?).getD []) t :: ws)

/-- The 15 round keys of AES-256, 16 bytes each. -/
def roundKeys (key : List Nat) : List (List Nat) :=
  let w0 := (List.range 8).map (fun i => (key.drop (4 * i)).take 4)
  let ws := (expandStep 52 8 w0.reverse).reverse
  (List.range 15).map (fun r => ((ws.drop (4 * r)).take 4).flatten)

def pick (s : List Nat) (idx : List Nat) : List Nat := idx.map (fun i => lget s i)
def shiftRows (s : List Nat) : List Nat := pick s [0, 5, 10, 15, 4, 9, 14, 3, 8, 13, 2, 7, 12, 1, 6, 11]
def invShiftRows (s : List Nat) : List Nat := pick s [0, 13, 10, 7, 4, 1, 14, 11, 8, 5, 2, 15, 12, 9, 6, 3]

/-- One column times the circulant (a, b, c, d). -/
def mixCol (a b c d : Nat) (s : List Nat) : List Nat :=
  let g := fun (k i : Nat) => gmul 4 (lget s i) k
  (List.range 4).map (fun r => Nat.xor (Nat.xor (g a r) (g b ((r + 1) % 4))) (Nat.xor (g c ((r + 2) % 4)) (g d ((r + 3) % 4))))

def mixCols (a b c d : Nat) (s : List Nat) : List Nat :=
  ((List.range 4).map (fun c' => mixCol a b c d ((s.drop (4 * c')).take 4))).flatten

/-- AES-256 encryption of one 16-byte block. -/
def aesEnc (key blk : List Nat) : List Nat :=
  let ks := roundKeys key
  let rk := fun i => (ks[i]?).getD []
  let s := (List.range 13).foldl (fun s i => xorL (mixCols 2 3 1 1 (shiftRows (s.map sbox))) (rk (i + 1))) (xorL blk (rk 0))
  xorL (shiftRows (s.map sbox)) (rk 14)

/-- AES-256 decryption of one 16-byte block. -/
def aesDec (key blk : List Nat) : List Nat :=
  let ks := roundKeys key
  let rk := fun i => (ks[i]?).getD []
  let s := (List.range 13).foldl
    (fun s i => mixCols 14 11 13 9 (xorL ((invShiftRows s).map invSbox) (rk (13 - i)))) (xorL blk (rk 14))
  xorL ((invShiftRows s).map invSbox) (rk 0)

/-- A number times α in GF(2^128), XTS form (IEEE 1619). -/
def mulAlpha (v : Nat) : Nat := if v < 2 ^ 127 then 2 * v else Nat.xor (2 * v - 2 ^ 128) 0x87

/-- The tweak of a line (R317): line number in bits 39:0, generation in bits 87:40. -/
def tweak (lineNo gen : Nat) : Nat := lineNo % 2 ^ 40 + gen % 2 ^ 48 * 2 ^ 40

/-- The four 16-byte blocks of a line, each whitened by the encrypted tweak times α^j around the block cipher `f`. -/
def xts (f : List Nat → List Nat) (t : Nat) (line : Nat) : Nat :=
  let go := (List.range 4).foldl (fun (acc : List Nat × Nat × Nat) _ =>
      let tb := toBytes 16 acc.2.1
      (acc.1 ++ xorL (f (xorL (toBytes 16 acc.2.2) tb)) tb, mulAlpha acc.2.1, acc.2.2 / 2 ^ 128)) ([], t, line)
  ofBytes go.1

def keyBytes (k : BitVec 256) : List Nat := toBytes 32 k.toNat

/-- Encrypt and decrypt a line under a key use (R317). -/
def encLine (k : KeyUse) (lineNo : Nat) (d : Line) : Line :=
  let t := ofBytes (aesEnc (keyBytes k.k2) (toBytes 16 (tweak lineNo k.gen)))
  BitVec.ofNat 512 (xts (aesEnc (keyBytes k.k1)) t d.toNat)
def decLine (k : KeyUse) (lineNo : Nat) (c : Line) : Line :=
  let t := ofBytes (aesEnc (keyBytes k.k2) (toBytes 16 (tweak lineNo k.gen)))
  BitVec.ofNat 512 (xts (aesDec (keyBytes k.k1)) t c.toNat)

/-- Doubling in CMAC (SP 800-38B): big-endian, so on the byte list most significant first. -/
def cmacDbl (b : List Nat) : List Nat :=
  let v := ofBytes b.reverse
  (toBytes 16 (mulAlpha v)).reverse

/-- AES-CMAC of a byte message (SP 800-38B), 16 bytes. -/
def cmac (key msg : List Nat) : List Nat :=
  let l := aesEnc key (List.replicate 16 0)
  let k1 := cmacDbl l
  let n := max 1 ((msg.length + 15) / 16)
  let last := msg.drop (16 * (n - 1))
  let lastX := if last.length = 16 then xorL last k1
    else xorL ((last ++ [0x80] ++ List.replicate 16 0).take 16) (cmacDbl k1)
  let x := (List.range (n - 1)).foldl (fun x i => aesEnc key (xorL x ((msg.drop (16 * i)).take 16))) (List.replicate 16 0)
  aesEnc key (xorL x lastX)

/-- The leftmost 64 bits of a CMAC, as the number those eight bytes spell little-endian. -/
def left64 (b : List Nat) : Dword := BitVec.ofNat 64 (ofBytes (b.take 8))

/-- The verifier of a region's keys (R321). -/
def verifier (s : Slot) (gen region : Nat) (tagged : Bool) : Dword :=
  let msg := toBytes 8 gen ++ toBytes 8 region
  let v := xorL (cmac (keyBytes s.k1) msg) (cmac (keyBytes s.k2) msg)
  left64 (if tagged then xorL v (cmac (keyBytes s.kt) msg) else v)

/-- The integrity tag of a line's ciphertext (R333). -/
def lineTag (k : KeyUse) (lineNo : Nat) (c : Line) : Dword :=
  left64 (cmac (keyBytes k.kt) (toBytes 8 lineNo ++ toBytes 8 k.gen ++ toBytes 64 c.toNat))

/-- The stored cell of a plaintext line. -/
def sealLine (k : KeyUse) (lineNo : Nat) (tagged : Bool) (d : Line) : Cell :=
  let c := encLine k lineNo d
  { ct := c, tag := if tagged then lineTag k lineNo c else 0 }

/-! ### CRCs (R390, R391) -/

/-- One step of a reflected CRC register. -/
def crcBitR (poly v : Nat) : Nat := if v % 2 = 1 then Nat.xor (v / 2) poly else v / 2
/-- One step of a non-reflected CRC register of `w` bits. -/
def crcBitN (w poly v : Nat) : Nat := if v / 2 ^ (w - 1) % 2 = 1 then Nat.xor (2 * v % 2 ^ w) poly else 2 * v % 2 ^ w

def iter {α : Type} (f : α → α) : Nat → α → α
  | 0, x => x
  | n + 1, x => iter f n (f x)

/-- Running value after one byte. Polynomials of POLY 0 and 1 are in reflected order. -/
def crcByte (poly : Nat) (v b : Nat) : Nat :=
  match poly with
  | 0 => iter (crcBitR 0x82F63B78) 8 (Nat.xor v b)
  | 1 => iter (crcBitR 0xEDB88320) 8 (Nat.xor v b)
  | 2 => iter (crcBitN 64 0x42F0E1EBA9EA3693) 8 (Nat.xor v (b * 2 ^ 56))
  | _ => iter (crcBitN 16 0x8BB7) 8 (Nat.xor v (b * 2 ^ 8))

def crcInit (poly : Nat) : Nat := if poly < 2 then 0xFFFFFFFF else 0
def crcFinal (poly v : Nat) : Nat := if poly < 2 then Nat.xor v 0xFFFFFFFF else v

/-- CRC-32C of a byte list (R137, R402, R411 and elsewhere). -/
def crc32c (l : List Byte) : Nat := crcFinal 0 (l.foldl (fun v b => crcByte 0 v b.toNat) (crcInit 0))

end Sys2Proof.Machine
end

