-- ==== Sys2Proof/Machine/Flags.lean ====
section
/-!
DEFINITION. Flags and counts: the occurrence counts with their acknowledge registers (R300) and the sources they feed
(R422–R425), the quantities that registers and levels are computed from, and the level causes of every source (R309,
R422, R425).
-/

namespace Sys2Proof.Machine

/-! ### Occurrence counts: their keys -/

def cDem (l : Nat) : Nat := l
def cDpo (l : Nat) : Nat := 256 + l
def cUnmap (l : Nat) : Nat := 512 + l
def cDisc (l : Nat) : Nat := 768 + l
def cLdisc (p : Nat) : Nat := 1024 + p
def cMedUnc (c : Nat) : Nat := 1040 + c
def cHopStv (h : Nat) : Nat := 1060 + h
def cHopUnc (h : Nat) : Nat := 1114 + h
def cDevice (d : Nat) : Nat := 1168 + d
def cDie (n : Nat) : Nat := 1195 + n
def cRail (k : Nat) : Nat := 1395 + k
def cForeman (f : Nat) : Nat := 1420 + f
def cHoldup : Nat := 1430
def cPf : Nat := 1431
def cSus : Nat := 1432
def cEvac : Nat := 1433
def cThSus : Nat := 1434
def cThTrip : Nat := 1435
def cSvf : Nat := 1436
def cFrag : Nat := 1437
def cOvd : Nat := 1438
def cFb : Nat := 1439
def cRet : Nat := 1440
def cDdone : Nat := 1441
def cEndur : Nat := 1442
def cLost : Nat := 1443
def cPwf : Nat := 1444
def cSeed : Nat := 1445
def cQrst (q : Nat) : Nat := 1446 + q
def cScrFail : Nat := 1450
def cDbe : Nat := 1451
def cSwfail : Nat := 1452
def cBrk : Nat := 1453
def cKeyf : Nat := 1454
def cDbg : Nat := 1455
def cSignal : Nat := 1456
def cTime : Nat := 1457
def cFw : Nat := 1458
def cWrd (r : Nat) : Nat := 0x1000 + r
def cTagf (r : Nat) : Nat := 0x2000 + r

/-- The sources a count feeds (R422, R424, R425). -/
def keySrcs (k : Nat) : List Nat :=
  if k < 256 then [k, 559] else if k < 512 then [k - 256, 558] else if k < 768 then [k - 512, 566]
  else if k < 1024 then [k - 768, 566] else if k < 1040 then [256 + (k - 1024)] else if k < 1060 then [273 + (k - 1040)]
  else if k < 1114 then [293 + (k - 1060) / 9, 557] else if k < 1168 then [293 + (k - 1114) / 9]
  else if k < 1195 then [299 + (k - 1168)] else if k < 1395 then [326 + (k - 1195)] else if k < 1407 then [526 + (k - 1395)]
  else if 1420 ≤ k && k < 1428 then [538 + (k - 1420)]
  else if k = cHoldup then [546] else if k = cPf || k = cSus || k = cEvac then [547]
  else if k = cThSus || k = cThTrip then [548] else if k = cSvf then [549]
  else if k = cFrag || k = cOvd || k = cFb then [550] else if k = cRet || k = cDdone || k = cEndur then [551]
  else if k = cLost then [553] else if k = cPwf || k = cSeed then [554] else if 1446 ≤ k && k < 1449 then [555]
  else if k = cScrFail || k = cDbe then [556] else if k = cSwfail then [560] else if k = cBrk then [561]
  else if k = cKeyf then [562] else if k = cDbg then [563] else if k = cSignal then [564] else if k = cTime then [565]
  else if k = cFw then [567] else if 0x1000 ≤ k && k < 0x3000 then [562] else []

def Mod.occ (m : Mod) (k : Nat) : Occ := tget {} m.evt.occ k
/-- Is the cause of count `k` present (R300)? -/
def Occ.present (o : Occ) : Bool := o.cnt % 2 ^ 32 != o.ack.toNat
def Mod.cause (m : Mod) (k : Nat) : Bool := (m.occ k).present
/-- A 32-bit count as read, and the two halves of a 64-bit one. -/
def Mod.cntW (m : Mod) (k : Nat) : Word := loW (m.occ k).cnt
def Mod.cntHi (m : Mod) (k : Nat) : Word := hiW (m.occ k).cnt
/-- Listed counts that feed source `s`. -/
def Mod.srcOcc (m : Mod) (s : Nat) : List (Nat × Occ) := m.evt.occ.filter (fun e => (keySrcs e.1).contains s)
/-- EVT_SRCCNT (R310). -/
def Mod.srcCnt (m : Mod) (s : Nat) : Nat := total ((m.srcOcc s).map (fun e => e.2.cnt % 2 ^ 32)) % 2 ^ 32
/-- A counted cause of `s` is present. -/
def Mod.counted (m : Mod) (s : Nat) : Bool := (m.srcOcc s).any (fun e => e.2.present)
/-- Sources with counted causes: EVT_SRCSTAT.HASCNT (R313, R422, R425). -/
def hasCnt (s : Nat) : Bool := s != 272 && s != 552 && s < 568

/-! ### Hopper and budget quantities -/

def isSpill (f : Nat) : Bool := spill0 ≤ f && f < mapPos0
def Mod.spillUsed (m : Mod) : Nat := m.hop.frames.countP (fun e => isSpill e.1 && e.2.v)
def Mod.spillFree (m : Mod) : Nat := m.spillTotal - m.spillUsed
/-- RwD credits held by hosts over all ports. -/
def Mod.rwdHeld (m : Mod) : Nat := total (m.host.ports.map (fun e => e.2.rwdCr))
def ReqOp.isWrite : ReqOp → Bool
  | .write | .ptl => true
  | _ => false
/-- An LWR or LZERO admitted and not yet acknowledged (R277). -/
def LineOp.inFlight (o : LineOp) : Bool := (o.kind = 2 || o.kind = 3) && o.status.isNone && o.msn.isNone
/-- Writes admitted that have not dirtied a frame. -/
def Mod.inFlight (m : Mod) : Nat :=
  m.host.reqs.countP (fun r => r.op.isWrite && r.answer.isNone && !r.free) +
    m.fore.fm.countP (fun e => match e.2.wait with | .line o => o.inFlight | _ => false) +
    (match m.dbg.mcmd with | some o => o.inFlight.toNat | none => 0)
/-- The allocation reserve (R101). -/
def Mod.reserve (m : Mod) : Nat := m.rwdHeld + m.inFlight + 256
def Mod.dirtyFrames (m : Mod) : Nat := m.hop.frames.countP (fun e => e.2.d)
/-- The 4 KiB group of a frame's tag block: block 4s + w of the set area, f − 16,777,216 of the spill area (R336). -/
def tagGroup (f : Nat) : Nat := if isSpill f then 2 ^ 21 + (f - spill0) / 8 else (4 * (f / 8) + f % 8) / 8
/-- Dirty sidecar frames: 4 KiB groups of eight tag blocks with a dirty block (R188, R336). -/
def Mod.sidecars (m : Mod) : Nat :=
  ((m.hop.frames.filter (fun e => e.2.tagDirty != 0 && !e.2.imgHeld)).map (fun e => tagGroup e.1)).eraseDups.length
/-- Metered dirty data DT in bytes (R107, R188, R193). -/
def Mod.dt (m : Mod) : Nat :=
  4096 * (m.hop.frames.countP (fun e => e.2.d && !e.2.imgHeld) + m.sidecars + m.rwdHeld + m.inFlight)
def Mod.budget (m : Mod) : Nat := m.per.budget
def Mod.imgHeldN (m : Mod) : Nat := m.hop.frames.countP (fun e => e.2.imgHeld)
def shareUse (m : Mod) (s : Share) : Nat := m.hop.merge.countP (fun e => e.share = s)
/-- Occupied or capacity of a merge-buffer share (R102). -/
def Mod.shareCap (m : Mod) (s : Share) : Nat :=
  let w := m.w 0 0x4010C
  match s with | .host => bits w 7 0 | .fore => bits w 15 8 | .tag => bits w 23 16
def Mod.pinnedFrames (m : Mod) : Nat := m.hop.frames.countP (fun e => e.2.v && (e.2.p || e.2.lpin))
def Mod.pwqN (m : Mod) (c : Nat) (tight : Bool) : Nat := m.hop.pwq.countP (fun e => e.ch = c && e.tightPool == tight)
/-- A cause of R82 holds: the dirty budget, the free-frame reserve, the HOST merge share. -/
def Mod.rwdCause (m : Mod) : Bool :=
  m.dt + 4096 > m.budget || m.spillFree < m.reserve || shareUse m .host ≥ m.shareCap .host
/-- RwD withheld for the dirty budget (R51). -/
def Mod.budgetHold (m : Mod) : Bool := m.dt + 4096 > m.budget
/-- The four thresholds of R83. -/
def Mod.waitHigh (m : Mod) : Bool :=
  450 ≤ m.host.wStdA || 450 ≤ m.host.wStdB || 4000 ≤ m.host.wBulkA || 4000 ≤ m.host.wBulkB

/-! ### Media and block quantities -/

def sgDies (g : Nat) : List Nat := (List.range 10).map (dieOf g)
def Mod.dieFailed (m : Mod) (n : Nat) : Bool := (m.die n).failed
def Mod.sgFailed (m : Mod) (g : Nat) : Nat := (sgDies g).countP (m.dieFailed ·)
def Mod.sgHalted (m : Mod) (g : Nat) : Bool := 2 ≤ m.sgFailed g
def bitsOf (n : Nat) (p : Nat → Bool) : Nat := total ((List.range n).map (fun i => if p i then 2 ^ i else 0))
/-- Stripe groups of a channel set. -/
def setSgs (b : Bool) : List Nat := (List.range 10).map (fun i => if b then 10 + i else i)
def Mod.chFailedIn (m : Mod) (b : Bool) : Nat := (setSgs b).countP (fun c => (m.mch c).failed)
/-- A set is halted when every one of its groups is (R144, R165). -/
def Mod.setHalted (m : Mod) (b : Bool) : Bool := (setSgs b).all (fun g => m.sgHalted g)
def Blk.cycles (b : Blk) : Nat := (b.cyc.map (·.2)).foldl max 0
def Mod.sgBlks (m : Mod) (g : Nat) : List Blk := (m.upk.blks.filter (fun e => e.1 / 16384 = g)).map (·.2)
def Blk.usable (b : Blk) : Bool := b.st != .donor && b.st != .dead
def Mod.sgUsable (m : Mod) (g : Nat) : Nat := 16384 - (m.sgBlks g).countP (fun b => !b.usable)
def Mod.sgFree (m : Mod) (g : Nat) : Nat := 16384 - (m.sgBlks g).countP (fun b => b.st != .free)
def Mod.sgPending (m : Mod) (g : Nat) : Nat := (m.sgBlks g).countP (fun b => b.st = .pendingReset || b.st = .resetting)
def Mod.setFree (m : Mod) (b : Bool) : Nat := total ((setSgs b).map m.sgFree)
def Mod.sgMax (m : Mod) (g : Nat) : Nat := ((m.sgBlks g).filter Blk.usable |>.map Blk.cycles).foldl max 0
def Mod.sgMin (m : Mod) (g : Nat) : Nat :=
  let l := (m.sgBlks g).filter Blk.usable
  if l.length < m.sgUsable g then 0 else (l.map Blk.cycles).foldl min 0xFFFFF
def Mod.sgCycSum (m : Mod) (g : Nat) : Nat :=
  total (((m.sgBlks g).filter Blk.usable).map (fun b => total (b.cyc.map (·.2))))
def Mod.spread (m : Mod) (g : Nat) : Nat := m.sgMax g - m.sgMin g
/-- Spare margin of a set (R150). -/
def Mod.margin (m : Mod) (b : Bool) : Int := (total ((setSgs b).map m.sgUsable) : Int) - 132096
/-- Endurance used in units of 0.01 % (R163). -/
def Mod.endurUsed (m : Mod) : Nat :=
  let u := total ((List.range 20).map m.sgUsable)
  if u = 0 then 0 else total ((List.range 20).map m.sgCycSum) * 10000 / (3000000 * u)
/-- Thresholds of R163: the level that a use has reached. -/
def endurLevel (used : Nat) : Nat :=
  if used < 5000 then 0 else if used < 8000 then 1 else if used < 9000 then 2 else if used < 9500 then 3 else 4
def Mod.rclTh (m : Mod) : Nat × Nat := let w := m.w 0 0x60040; (bits w 15 0, bits w 31 16)
def Mod.rotLimit (m : Mod) : Nat := bits (m.w 0 0x60048) 15 0

/-! ### Twin quantities -/

def Mod.linkUp (m : Mod) : Bool := m.twin.trained && m.twin.helloed
/-- Lag of the Lagged records acknowledged to a host and not covered by an ACK, ns (R223, R225). Log entry 81 (DEDUCED). -/
def Mod.lagNow (m : Mod) : Nat :=
  (m.twin.recs.map (fun r => match r.ackedAt with
    | some t => if r.sync then 0 else m.time.dtc - t
    | none => 0)).foldl max 0
/-- This module is a region's home (R215, R217). A takeover changes the home side of the entry (R230). -/
def Mod.homeHere (m : Mod) (r : Nat) : Bool :=
  let w := m.rw0 r
  rValid w && rMirror w != 0 && !(m.twr r).held && rHome w = m.twin.side
/-- A mirrored region with KEYOK clear while the pair mirrors (R226, R425). -/
def Mod.keyBad (m : Mod) : Bool :=
  m.twin.pair = .paired && (validRegions m.cfg.plates).any (fun r => rMirror (m.rw0 r) != 0 && !(m.twr r).keyok)

/-! ### Encryption quantities -/

/-- The Seam engine that serves region `r`. -/
def Mod.seamOf (m : Mod) (r : Nat) : Option Nat :=
  (List.range 2).find? (fun e => (m.seam e).st != .idle && (m.seam e).region = r)
/-- Security state of a region: 0 Open, 1 Sealed, 2 Locked, 3 Erasing (R323, R331). -/
def Mod.secOf (m : Mod) (r : Nat) : Nat :=
  if !rValid (m.rw0 r) then 2
  else if (m.crec r).erasing then 3
  else if (m.slot r).isNone then 2
  else if (m.crec r).seam && (match m.seamOf r with | some e => (m.slot (4096 + e)).isNone | none => true) then 2
  else if bit (m.w r 0x90010) 0 then 1 else 0

/-! ### Modes -/

def Mod.suspectStart (m : Mod) : Bool := m.cause cSus
def Mod.hudeg (m : Mod) : Bool := m.per.tested && (m.per.cap < 3600 || 600 < m.per.esr)
def Mod.evacRunning (m : Mod) : Bool := m.per.evac.isSome || m.per.orderly.isSome
def Mod.timeSus (m : Mod) : Bool := m.time.isl.any (fun e => e.2.suspect)
def Mod.timeStall (m : Mod) : Bool := m.time.isl.any (fun e => e.2.stalled)
def thClass (i : Nat) : Nat := if i < 6 then 0 else if i < 9 then 3 else if i < 11 then 2 else if i < 12 then 4 else if i < 64 then 2 else 1
def thIndexOk (i : Nat) : Bool := i < 12 || (16 ≤ i && i < 43) || (64 ≤ i && i < 264)
def Mod.overdueN (m : Mod) : Nat := m.fb.refq.countP (·.overdue)
def LinkState.up (s : LinkState) : Bool := s = .l0 || s = .l1
def Mod.lpHasRuns (m : Mod) (l : Nat) : Bool := !(m.ldEnts l).isEmpty

/-- The level causes of each source (R422, R425). -/
def Mod.level (m : Mod) (s : Nat) : Bool :=
  if s < 256 then (m.lp s).viral
  else if s < 272 then
    let p := s - 256
    !(m.port p).link.up && (List.range 16).any (fun d => m.lpHasRuns (16 * p + d))
  else if s = 272 then m.nv.paired.isSome && !m.linkUp
  else if s < 293 then (m.mch (s - 273)).failed
  else if s < 299 then (List.range 9).any (fun i => let c := m.hch (9 * (s - 293) + i); c.degraded || c.failed)
  else if s < 326 then (m.hch (2 * (s - 299))).failed || (m.hch (2 * (s - 299) + 1)).failed
  else if s < 526 then m.dieFailed (s - 326)
  else if s < 538 then let r := (m.rail (s - 526)).st; r = .faulted || r = .shut || r = .failed
  else if s < 546 then (m.fm (s - 538)).stopped
  else match s with
    | 546 => m.hudeg || m.per.term = 3 || (m.per.everBudget && m.dt > m.budget)
    | 547 => m.imgHeldN != 0
    | 548 => m.th.t.any (fun e => e.2.level != 0 || e.2.rateHi)
    | 549 => (List.range 2).any (fun e => (m.seam e).st = .stopped)
    | 550 => m.overdueN != 0
    | 551 => m.upk.warned || m.upk.rmostly || m.upk.ronly || (match m.upk.dcmd with | some d => d.stuck | none => false)
    | 552 => (List.range 20).any (fun g => m.spread g > 2 * m.rotLimit)
    | 556 => m.perf.scr.any (fun e => e.2.failed)
    | 561 => m.lagNow > bits (m.w 0 0x80044) 14 0 || m.keyBad || m.tx.sbWide
    | 565 => m.timeSus || m.timeStall
    | _ => false

/-- Is the source pending by its causes (R309)? Sources 568–575 never are (R425). -/
def Mod.causes (m : Mod) (s : Nat) : Bool := s < 568 && (m.counted s || m.level s)

end Sys2Proof.Machine
end

