-- ==== Sys2Proof/Machine/Read.lean ====
section
/-!
DEFINITION. What a register word reads as (R9, R294–R296, R303): the live value of a word for given select values. A
word reads as its stored writable bits together with the read-only fields computed here from the state.
-/

namespace Sys2Proof.Machine

/-! ### Instances (R295) -/

/-- The value of the select register at `off` in a select context. -/
def selV (sel : Tbl Word) (off : Nat) : Word := tget 0 sel off

/-- The instance a selected word names; none when the select value names nothing. -/
def instOf (sel : Tbl Word) (i : Inst) : Option Nat :=
  match i with
  | .one => some 0
  | .by_ off hi lo n => let v := bits (selV sel off) hi lo; if v < n then some v else none
  | .port => some (bits (selV sel 0x10000) 7 0 / 16)
  | .die =>
    let c := bits (selV sel 0x50000) 4 0
    let d := bits (selV sel 0x50040) 3 0
    if c < 20 && d < 10 then some (10 * c + d) else none
  | .drf =>
    let w := selV sel 0x60180
    if bits w 23 16 < 200 && bits w 12 8 < 28 && bits w 2 0 != 0 then
      some (bits w 23 16 * 65536 + bits w 12 8 * 256 + bits w 6 4 * 8 + bits w 2 0) else none
  | .drfDie =>
    let w := selV sel 0x60180
    if bits w 23 16 < 200 && bits w 12 8 < 28 && bits w 2 0 != 0 then some (bits w 23 16) else none
  | .tsens => let v := bits (selV sel 0xB0000) 8 0; if thIndexOk v then some v else none
  | .scr => some (bits (selV sel 0x120000) 11 8 * 16 + bits (selV sel 0x120000) 3 0)

/-! ### Small encoders -/

def s16 (v : Int) : Nat := (v % 65536).toNat
def LinkState.code : LinkState → Nat | .down => 0 | .training => 1 | .l0 => 2 | .recovery => 3 | .l1 => 4
def widthCode : LinkWidth → Nat | .x16 => 0 | .x8 => 1 | .x4 => 2
def rateCode : LinkRate → Nat | .g64 => 0 | .g32 => 1 | .g16 => 2
def RailSt.code : RailSt → Nat
  | .off => 0 | .ramping => 1 | .inWindow => 2 | .faulted => 3 | .retrying => 4 | .shut => 5 | .failed => 6
def PairSt.code : PairSt → Nat | .unpaired => 0 | .attaching => 1 | .paired => 2 | .broken => 3 | .detaching => 4 | .refused => 5
def Mir.code : Mir → Nat | .inactive => 0 | .resync => 1 | .mirrored => 2 | .broken => 3 | .refused => 4 | .held => 5 | .stale => 6
def SeamSt.code : SeamSt → Nat | .idle => 0 | .starting => 1 | .running => 2 | .finishing => 3 | .stopped => 4 | .suspended => 5
def permille (a b : Nat) : Nat := if b = 0 then 0 else min 1000 (a * 1000 / b)
def orW (l : List Word) : Word := l.foldl (· ||| ·) 0

/-- Sum of the allowances of the 16 LPs of a port: the credits it advertises (R49, R73). -/
def Mod.credits (m : Mod) (p : Nat) : Nat :=
  total ((List.range 16).map (fun d =>
    let w := m.tab (0xD8000 + 2 * (16 * p + d)); bits w 7 0 + bits w 15 8 + bits w 23 16))

/-- LD map entries that are DC extents. Log entry 32 (DESIGN CHOICE). -/
def Mod.extents (m : Mod) (l : Nat) : List LdEnt := (m.ldEnts l).filter (fun e => 64 ≤ e.e)

/-! ### Blocks in AON: GLB, PERSIST, POWER, THERMAL, EVENT, DEBUG -/

def Mod.allPend (m : Mod) : Nat :=
  total ((m.fore.commitQ ++ m.fore.staged).map (fun t => t.writes.length))

/-- One-write transactions of a path or program not yet applied or discarded (R299). `who` as masters are numbered. -/
def Mod.pathPend (m : Mod) (who : Nat) : Nat :=
  if who < 3 then
    (tget ({} : PathQ) m.path.queues who).q.countP (fun w => match plateAcc (w.idx % 0x200000) with
        | some .rwb => true
        | _ => false) +
      (m.fore.commitQ ++ m.fore.staged).countP (fun t => t.path == some who)
  else (m.fore.commitQ ++ m.fore.staged).countP (fun t => t.one && (match t.foreman with
    | some (f, _) => 3 + f == who
    | none => false))

def glbR (m : Mod) (who off : Nat) : Word :=
  match off with
  | 0x00 => 0x4B4C7256
  | 0x04 => fld 24 Config.step.toNat ||| fld 16 1
  | 0x08 => if m.nv2.fwRun < 3 then tget (Config.fwVersion m.nv2.fwRun) m.nv2.fwVer m.nv2.fwRun else 0
  | 0x0C => fld 2 m.nv2.fwNext ||| fld 0 m.nv2.fwRun
  | 0x10 => fld 28 m.pwr.phase ||| fld 25 m.pwr.pstate ||| fld 20 m.path.ctlPort ||| flag 11 (bit (m.w 0 0x14) 0) |||
      flag 10 m.timeSus ||| flag 9 m.timeStall ||| flag 8 m.suspectStart ||| flag 7 m.upk.ronly |||
      flag 6 m.upk.rmostly ||| flag 5 (m.twin.pair = .broken) ||| flag 4 m.evacRunning |||
      flag 3 m.per.debounce.isSome ||| flag 2 (m.per.budget = 0) ||| flag 1 m.evt.alert ||| flag 0 (m.pwr.phase = 5)
  | 0x18 => satFld 16 16 (m.pathPend who) ||| satFld 0 16 m.allPend
  | 0x1C => loW m.time.dtc | 0x20 => hiW m.time.dtc
  | 0x24 => loW m.frameNo | 0x28 => hiW m.frameNo
  | 0x2C => sat32 m.opsecNow | 0x30 => sat32 m.nv.pwrcyc | 0x34 => fld 0 m.path.slotId
  | 0x38 => fld 0 (min who 3) | 0x3C => sat32 m.path.badacc
  | _ => 0

def perR (m : Mod) (sel : Tbl Word) (off : Nat) : Word :=
  match off - 0x70000 with
  | 0x00 => flag 9 m.rep.safe ||| flag 8 (2 * m.dt > 3 * m.budget) ||| flag 7 (m.imgHeldN != 0) ||| flag 6 m.hudeg |||
      flag 5 m.per.testing ||| flag 4 m.evacRunning ||| flag 3 m.per.debounce.isSome ||| flag 2 m.suspectStart |||
      flag 1 (m.per.budget != 0) ||| flag 0 m.per.tested
  | 0x04 => satFld 0 16 m.per.vhu
  | 0x08 => satFld 16 16 m.per.esr ||| satFld 0 16 m.per.cap
  | 0x0C => if m.per.tested then sat32 ((m.time.dtc - m.per.testAt) / 1000000000) else 0
  | 0x10 => flag 8 m.per.testing
  | 0x14 => loW m.budget | 0x18 => hiW m.budget | 0x1C => loW m.dt | 0x20 => hiW m.dt
  | 0x28 => fld 0 m.per.term | 0x30 => m.cntW cPf
  | 0x3C => flag 0 (m.per.orderly = some 1)
  | 0x40 => loW m.rep.evseq | 0x44 => hiW m.rep.evseq | 0x48 => fld 0 m.rep.evcause | 0x4C => sat32 m.rep.evtime
  | 0x50 => fld 0 m.rep.start | 0x54 => loW m.rep.lost | 0x58 => hiW m.rep.lost | 0x5C => loW m.rep.rollList.length
  | 0x60 => m.cntW cSus
  | 0x6C => match m.rep.rollList[(selV sel 0x70068).toNat]? with
    | some p => loW p
    | none => 0xFFFFFFFF
  | 0x70 => sat32 m.imgHeldN | 0x78 => sat32 m.nv.dsc
  | _ => 0

/-- A condition of R352 is unmet. -/
def Mod.dozeBlocked (m : Mod) : Bool :=
  let low := bits (m.w 0 0x40104) 7 0
  m.dt * 100 ≥ low * m.budget ||
  m.upk.rclRunA || m.upk.rclRunB || !m.upk.rotRun.isEmpty || !m.med.moves.isEmpty ||
  (List.range 20).any (fun g => m.sgFree g < m.rclTh.1 && !m.sgHalted g) ||
  m.fb.refq.any (fun r => match r.due with | some d => d ≤ m.ms + 3600 | none => true) ||
  !m.med.staged.isEmpty || !m.med.jopen.isEmpty || m.med.ckRun.isSome ||
  (List.range 2).any (fun e => let s := (m.seam e).st; s != .idle && s != .suspended && s != .stopped) ||
  m.per.testing ||
  (m.per.tested && m.per.testAt + bits (m.w 0 0x70010) 4 0 * 3600000000000 ≤ m.time.dtc + 1000000000) ||
  m.twin.regs.any (fun e => e.2.st = .mirrored || e.2.st = .resync) ||
  m.fore.fm.any (fun e => e.2.prog.isSome && (match e.2.wait with
    | .plate .. => false | .event .. => false | .frames _ => false | _ => true) || e.2.halted)

/-- Monitor channels of a rail's voltage and current (R343). -/
def railVch (k : Nat) : Nat := if k = 0 then 2 else if k = 1 then 3 else k + 2
def chanW (l : List (BitVec 16)) (c : Nat) : Nat := ((l[c]?).getD 0).toNat

def pwrR (m : Mod) (off i : Nat) : Word :=
  let o := off - 0xA0000
  if 0x124 ≤ o && o < 0x154 then
    let k := (o - 0x124) / 4
    fld 16 (chanW m.pwr.snap (2 * k + 1)) ||| fld 0 (chanW m.pwr.snap (2 * k))
  else match o with
  | 0x04 => fld 29 (m.rail i).st.code ||| fld 26 (lget railGroup i) ||| fld 23 (m.rail i).kind |||
      satFld 21 2 ((m.rail i).retryAt.countP (fun t => m.time.dtc < t + 3600000000000))
  | 0x08 => fld 0 (chanW m.pwr.chans (railVch i))
  | 0x0C => if i < 2 then 0 else fld 0 (chanW m.pwr.chans (i + 12))
  | 0x10 => satFld 0 16 (m.rail i).ipeak
  | 0x14 => m.cntW (cRail i)
  | 0x100 => flag 9 m.dozeBlocked ||| flag 8 m.pwr.waking ||| fld 4 (bits (m.w 0 0xA0104) 2 0) ||| fld 0 m.pwr.pstate
  | 0x10C => fld 0 (chanW m.pwr.chans 0) | 0x110 => fld 0 (chanW m.pwr.chans 1)
  | 0x114 => satFld 0 16 m.pwr.pin | 0x118 => satFld 0 16 m.pwr.pmax
  | 0x120 => fld 28 m.pwr.snapRail ||| fld 25 m.pwr.snapKind
  | _ => 0

/-- The reading that holds the highest level: index, with the lowest index among equals (TH_STAT). -/
def Mod.thTop (m : Mod) : Nat × Nat :=
  let lv := fun (t : Therm) => if t.rateHi then max t.level 2 else t.level
  match bestBy (fun a b => lv a.2 > lv b.2) m.th.t with
  | some e => (lv e.2, e.1)
  | none => (0, 0)

/-- Credit pacing in force: the share in percent (R361). -/
def Mod.pace (m : Mod) : Option Nat :=
  let w := m.w 0 0xB0130
  let lv := fun (t : Therm) => if t.rateHi then max t.level 2 else t.level
  if m.th.t.any (fun e => 3 ≤ lv e.2) then some (bits w 31 24)
  else if m.th.t.any (fun e => thClass e.1 != 1 && lv e.2 = 2) then some (bits w 23 16) else none

def thR (m : Mod) (off i : Nat) : Word :=
  let t := m.therm i
  match off - 0xB0000 with
  | 0x04 => fld 16 (s16 t.temp) ||| flag 15 t.suspect ||| flag 14 (16 ≤ i) ||| flag 13 t.unchecked |||
      fld 10 (thClass i) ||| fld 7 t.level ||| flag 6 t.rateHi
  | 0x08 => if i < 12 then fld 0 (s16 t.raw) else 0
  | 0x0C => fld 0 (s16 t.rate)
  | 0x10 => fld 0 (match t.peak with | some p => s16 p | none => 0)
  | 0x134 =>
    let top := m.thTop
    fld 29 top.1 ||| (if top.1 = 0 then 0 else fld 26 (thClass top.2) ||| fld 17 top.2) ||| flag 16 m.pace.isSome |||
      satFld 8 8 (m.th.t.countP (fun e => e.1 < 12 && e.2.suspect)) |||
      satFld 4 4 (m.th.restarts.countP (fun x => m.time.dtc < x + 3600000000000))
  | 0x138 => m.cntW cThSus | 0x140 => m.cntW cThTrip | 0x148 => m.nv.lastTrip
  | _ => 0

/-- EVT_SRCSTAT (R313). -/
def Mod.srcStat (m : Mod) (s : Nat) : Word :=
  flag 31 (m.src s).pending ||| flag 30 (m.level s) ||| flag 29 (m.counted s) ||| flag 28 (hasCnt s) ||| fld 0 (m.src s).done

def evtR (m : Mod) (off i : Nat) : Word :=
  let o := off - 0x110000
  if 0x100 ≤ o && o < 0x148 then
    let k := (o - 0x100) / 4
    loW (bitsOf 32 (fun b => (m.src (32 * k + b)).pending))
  else match o with
  | 0x04 => m.srcStat i
  | 0x08 => loW (m.srcCnt i)
  | 0x14 => loW (m.src i).time | 0x18 => hiW (m.src i).time | 0x1C => loW (m.src i).rise
  | 0x204 => flag 31 m.evt.alert |||
      satFld 0 10 ((List.range 568).countP (fun s => (m.src s).pending && bit (m.w s 0x110010) 3))
  | 0x208 => sat32 m.evt.drop
  | _ => 0

/-- Bytes of a program result (R62). -/
def PRes.bytes (r : PRes) : List Byte :=
  leBytes 1 r.state ++ leBytes 1 r.trap ++ leBytes 2 0 ++ leBytes 4 r.used ++ leBytes 4 r.txres ++ leBytes 8 r.txnum ++
    (r.gout.map (fun g => leBytes 8 g.toNat)).flatten

/-- Result of a ticket of queue `q` (R62): the stored result of the last 256 tickets, queued, running, or unknown. -/
def Mod.result (m : Mod) (q t : Nat) : PRes :=
  let qu := m.queue q
  let zero : PRes := { state := 5, trap := 0, used := 0, txres := 0, txnum := 0, gout := [0, 0, 0, 0] }
  if qu.ticket ≤ t || t = 0 || t + 256 < qu.ticket then zero
  else match qu.results.find? (fun e => e.1 == t) with
    | some e => e.2
    | none => match m.fore.fm.find? (fun e => match e.2.prog with
        | some p => p.org.ticket == t && p.org.src == 2 + q
        | none => false) with
      | some e => { zero with state := 1, used := e.2.steps, txres := e.2.txres, txnum := e.2.txnum }
      | none => { zero with state := 0 }

/-- Little-endian word `k` of a byte list. -/
def wordAt (l : List Byte) (k : Nat) : Word := loW (ofLe ((l.drop (4 * k)).take 4))

def dbgR (m : Mod) (off : Nat) : Word :=
  let o := off - 0x130000
  if 0x15C ≤ o then wordAt (m.result 2 (m.w 0 0x130158).toNat).bytes ((o - 0x15C) / 4)
  else match o with
  | 0x00 => flag 7 (m.dbg.ir = 0 || m.dbg.ir = 4 || m.dbg.ir = 5) ||| flag 6 (bit (m.w 0 0x130004) 8 && 1 ≤ m.dbg.level) |||
      flag 5 (m.fore.fm.any (fun e => e.2.halted)) ||| fld 2 m.dbg.req ||| fld 0 m.dbg.level
  | 0x08 => m.cntW cDbg
  | 0x10 => fld 8 (bitsOf 8 (fun f => (m.fm f).halted))
  | 0x54 => m.dbg.mstat
  | 0x100 => sat32 m.tly.trcDrop | 0x104 => sat32 m.tly.trcSent | 0x154 => loW m.dbg.dqTkt
  | _ => 0

/-! ### LINK: PW, bandwidth meters -/

def pwR (m : Mod) (off i : Nat) : Word :=
  match off - 0x10000 with
  | 0x04 => let p := m.port i
    fld 29 p.link.code ||| fld 27 (widthCode p.width) ||| fld 25 (rateCode p.rate) ||| flag 24 p.reversed |||
      flag 23 p.perst ||| flag 22 (m.path.ctlPort = i) ||| fld 0 (linkAdd p.width p.rate)
  | 0x08 => fld 16 (m.credits i) ||| fld 0 (m.credits i)
  | 0x0C => sat32 (m.port i).replay
  | 0x10 => m.cntW (cLdisc i)
  | 0x18 => sat32 (m.port i).retrain
  | 0x1C => flag 1 (!(m.port i).link.up) ||| flag 0 (m.cause (cLdisc i))
  | 0x40 => flag 31 (m.lp i).viral ||| flag 30 (m.lp i).enabled ||| flag 29 (bit (m.w i 0x10048) 0) |||
      satFld 26 3 ((m.lp i).hdm.countP (fun e => e.2.isSome)) ||| satFld 16 10 (m.extents i).length
  | 0x44 => satFld 16 16 (total ((m.extents i).map (·.count))) ||| satFld 0 16 (m.lp i).static
  | 0x4C => m.cntW (cUnmap i) | 0x54 => m.cntW (cDisc i)
  | 0x5C => satFld 16 16 (m.aux i).discState ||| satFld 0 16 (m.aux i).discShared
  | 0x60 => sat32 (m.aux i).proto
  | 0x64 => flag 1 (m.cause (cDisc i)) ||| flag 0 (m.cause (cUnmap i))
  | _ => 0

/-- Owner of a window timer: 0 free, 1 meters, 2 thermal (R387, FORE_CLAIM). -/
def timerOwnerT (t : Tbl Word) (n : Nat) : Nat :=
  if bits (pget t (pkey 0 (0xB0130 / 4))) 12 10 = n then 2
  else if bits (pget t (pkey 0 (0xC0200 / 4 + n))) 19 0 != 0 &&
    t.any (fun e => 0x30400 ≤ e.1 && e.1 < 0x30800 && e.1 % 4 == 0 && bit e.2 3 && bits e.2 2 0 == n) then 1
  else 0

/-- Window length of a timer: the thermal model's is 1,000,000 frames (R387). -/
def Mod.timerLen (m : Mod) (n : Nat) : Nat :=
  if timerOwnerT m.cfg.plates n = 2 then 1000000 else bits (m.w 0 (0xC0200 + 4 * n)) 19 0

def perfR (m : Mod) (off i : Nat) : Word :=
  let o := off - 0xC0000
  if 0x1000 ≤ o then
    let l := (o - 0x1000) / 16
    match o % 16 with
    | 0 => flag 31 (m.aux l).short
    | 4 => sat32 (m.aux l).bwRd | 8 => sat32 (m.aux l).bwWr | _ => loW (m.aux l).bwWin
  else if 0x200 ≤ o && o < 0x220 then fld 0 (m.timerLen ((o - 0x200) / 4))
  else match o with
  | 0x1C => loW (tget ({} : Ctr) m.perf.ctrs i).val | 0x20 => hiW (tget ({} : Ctr) m.perf.ctrs i).val
  | 0x24 => let c := tget ({} : Ctr) m.perf.ctrs i; flag 31 (c.wraps != 0) ||| satFld 0 8 c.wraps
  | 0x104 => loW (bitsOf 32 (fun n => (tget ({} : Ctr) m.perf.ctrs n).wraps != 0))
  | 0x108 => loW (bitsOf 32 (fun n => (tget ({} : Ctr) m.perf.ctrs (32 + n)).wraps != 0))
  | _ => 0

/-! ### XBAR and HOP: CLASS, REGION, HOPPER -/

def sumAll (m : Mod) (hi lo : Nat) : Nat := total ((List.range 256).map (fun l => bits (m.tab (0xD8001 + 2 * l)) hi lo))

/-- A write-flagged deadline poison that the acknowledge register has not reached (R85, R86): occurrence `e` of the count is not seen
while fewer occurrences follow it than are unseen. -/
def Mod.wrLostOpen (m : Mod) (l : Nat) : Bool :=
  let o := m.occ (cDpo l)
  let behind := fun (x : Nat) => (o.cnt % 2 ^ 32 + 2 ^ 32 - x) % 2 ^ 32
  (m.aux l).wrLost.any (fun e => decide (behind e < behind o.ack.toNat))

def clsR (m : Mod) (off i : Nat) : Word :=
  let l := m.lp i
  match off - 0x20000 with
  | 0x0C => satFld 24 8 l.outD ||| satFld 16 8 l.outB ||| satFld 8 8 l.outS ||| satFld 0 8 l.outT
  | 0x10 => m.cntW (cDem i) | 0x14 => m.cntHi (cDem i) | 0x1C => m.cntW (cDpo i) | 0x20 => m.cntHi (cDpo i)
  | 0x28 => satFld 16 16 (tget 0 l.why 1) ||| satFld 0 16 (tget 0 l.why 0)
  | 0x2C => satFld 16 16 (tget 0 l.why 3) ||| satFld 0 16 (tget 0 l.why 2)
  | 0x30 => flag 3 (m.wrLostOpen i) |||
      flag 2 (l.outD != 0 || (l.lastDem != 0 && m.frameNo ≤ l.lastDem)) ||| flag 1 (m.cause (cDpo i)) |||
      flag 0 (m.cause (cDem i))
  | 0x34 => satFld 0 12 l.outD
  | 0x100 => satFld 8 5 (sumAll m 12 8) ||| satFld 0 5 (sumAll m 4 0)
  | 0x104 => satFld 16 16 m.host.peakB ||| satFld 0 16 m.host.peakA
  | 0x108 => flag 3 (4000 ≤ m.host.wBulkB) ||| flag 2 (4000 ≤ m.host.wBulkA) ||| flag 1 (450 ≤ m.host.wStdB) |||
      flag 0 (450 ≤ m.host.wStdA)
  | 0x10C => (if m.rwdCause then 0xFFFF0000 else 0) ||| (if m.host.gate then 0xFFFF else 0)
  | 0x110 => sat32 (total (((validRegions m.cfg.plates).filter (fun r => rClass (m.rw0 r) = 1)).map (fun r => rCount (m.rw1 r))))
  | _ => 0

/-- Words 2 and 3 of a region entry (R304). -/
def Mod.rw2 (m : Mod) (r : Nat) : Word :=
  fld 30 (m.secOf r) ||| flag 29 (m.crec r).seam ||| flag 28 (m.hop.pinned.contains r) ||| flag 27 (m.twr r).held |||
    satFld 0 9 (boundLps m.cfg.plates r).length
def Mod.rw3 (m : Mod) (r : Nat) : Word := if rValid (m.rw0 r) then sat32 (m.regMapped r).length else 0

def tightGib (m : Mod) (b : Bool) : Nat :=
  total (((validRegions m.cfg.plates).filter (fun r => rClass (m.rw0 r) = 0 && rSetB (m.rw0 r) == b)).map (fun r => rCount (m.rw1 r)))

def regR (m : Mod) (off i : Nat) : Word :=
  match off - 0x30000 with
  | 0x0C => m.rw2 i | 0x10 => m.rw3 i
  | 0x100 => satFld 16 16 (tightGib m true) ||| satFld 0 16 (tightGib m false)
  | 0x104 => satFld 0 15 (16384 - total ((validRegions m.cfg.plates).map (fun r => rCount (m.rw1 r))))
  | _ => 0

def hopR (m : Mod) (off i : Nat) : Word :=
  let c := m.hch i
  match off - 0x40000 with
  | 0x04 => flag 6 (m.hop.selfRef && !c.failed) ||| flag 5 (m.cause (cHopStv i)) ||| flag 4 (m.cause (cHopUnc i)) |||
      flag 3 c.degraded ||| flag 2 c.failed ||| flag 1 c.fenced ||| flag 0 (c.trained && !c.failed)
  | 0x14 => satFld 0 8 c.starve
  | 0x18 => m.cntW (cHopStv i) | 0x20 => sat32 c.corr | 0x24 => fld 0 c.lanes.toNat | 0x28 => m.cntW (cHopUnc i)
  | 0x30 => flag 31 c.flipArm ||| fld 0 c.flipLanes.toNat
  | 0x34 => satFld 8 8 (32 - m.pwqN i true) ||| satFld 0 8 (32 - m.pwqN i false)
  | 0x38 => sat32 c.refs | 0x3C => sat32 c.detours
  | 0x114 => sat32 m.dirtyFrames | 0x118 => satFld 0 21 m.spillUsed | 0x11C => satFld 0 21 m.spillFree
  | 0x120 => sat32 m.reserve | 0x124 => satFld 0 24 m.pinnedFrames
  | 0x128 => match m.hop.pinLoad with
    | some (r, n, b) => flag 31 (!b) ||| fld 16 r ||| fld 0 (permille n (regPages (m.rw1 r)))
    | none => 0
  | 0x12C => loW (bitsOf 54 (fun h => (m.hch h).failed)) | 0x130 => hiW (bitsOf 54 (fun h => (m.hch h).failed))
  | 0x134 => sat32 (m.hop.frames.countP (fun e => e.2.f))
  | 0x138 => satFld 16 8 (shareUse m .tag) ||| satFld 8 8 (shareUse m .fore) ||| satFld 0 8 (shareUse m .host)
  | _ => 0

/-! ### MEDIA, UPKEEP -/

/-- Units of a stripe row: all ten, or the two copies of a journal-mode page (R135). -/
def Writer.journalMode : Writer → Bool
  | .tally | .journal | .root | .crypto | .roll => true
  | _ => false
def Row.units (r : Row) : List Nat := if r.wr.journalMode then [2 * (r.wl % 5), 2 * (r.wl % 5) + 1] else List.range 10
/-- Units still to be programmed, in the order they may start: the two copies of a journal-mode page one after the other (R135). -/
def Row.left (r : Row) : List Nat :=
  let l := if r.dead then [] else r.units.filter (fun x => !r.verified.getLsbD x && !r.skip.getLsbD x)
  if r.wr.journalMode then l.take 1 else l
/-- Evacuate's term of the busy limit (R127, R197): nothing more starts. -/
def Mod.evacTerm (m : Mod) : Nat := if m.per.evac.isSome then 0 else 2
/-- Busy limit of a stripe group (R127). -/
def Mod.busyLimit (m : Mod) (g : Nat) : Nat := min (min (bits (m.w 0 0x50100) 1 0) (2 - m.sgFailed g)) m.evacTerm
/-- Is the die busy: from the start of a program or reset to its result (R126)? -/
def Mod.dieBusy (m : Mod) (n : Nat) : Bool := (m.die n).op.isSome
def Mod.sgBusy (m : Mod) (g : Nat) : Nat := (sgDies g).countP (m.dieBusy ·)
/-- A row or a reset is under way: one of its units or die-blocks has started. -/
def Mod.begun (m : Mod) (reset : Bool) (key : Nat) : Bool := m.med.dies.any (fun e => match e.2.op with
  | some o => o.reset == reset && o.key == key | none => false)
/-- Program units and resets of a stripe group still to be done, oldest first: channel index, whether a reset, row or block. -/
def Mod.sgWork (m : Mod) (g : Nat) : List (Nat × Bool × Nat) :=
  ((m.upk.blks.filter (fun e => e.1 / 16384 = g && e.2.st = .resetting)).map (fun e =>
    ((List.range 10).filter (fun x => !e.2.resetDone.getLsbD x && !m.dieFailed (dieOf g x))).map (fun x => (x, true, e.1)))).flatten ++
  ((m.med.rows.filter (fun r => r.started && r.sg = g)).map (fun r =>
    (r.left.filter (fun x => !m.dieFailed (dieOf g x))).map (fun x => (x, false, r.id)))).flatten
/-- The plane of a read's page (R124, R126). -/
def MRead.plane (r : MRead) : Nat := enPg r.loc % 4
/-- A Tight codeword of die `n` is booked or sensed and not transferred (R127, R145). -/
def Mod.dieHeld (m : Mod) (n : Nat) : Bool :=
  m.med.reads.any (fun r => r.book.isSome && (List.range 10).any (fun x =>
    dieOf (enSg r.loc) x = n && !r.got.getLsbD x && !r.bad.getLsbD x))
/-- The read whose codeword a plane senses, or holds in its data register until the transfer (R126). -/
def Mod.planeRead (m : Mod) (n pl : Nat) : Option MRead :=
  m.med.reads.find? (fun r => r.plane = pl && r.sensed && (List.range 10).any (fun x =>
    dieOf (enSg r.loc) x = n && !r.got.getLsbD x && !r.bad.getLsbD x))
/-- MED_DIESTAT.STATE (R126, R145): its own program or reset, a load that waits for one, a codeword being read. -/
def Mod.dieState (m : Mod) (n : Nat) : Nat :=
  let x := n / 10 % 10
  let g := n % 10 + (if n < 100 then 0 else 10)
  if (m.die n).failed then 5
  else match (m.die n).op with
    | some o => if o.reset then 4 else 3
    | none => if (m.sgWork g).any (fun e => e.1 == x && !e.2.1) then 2
      else if m.med.reads.any (fun r => enSg r.loc == g && (r.book.isSome || r.rebuild || enCh r.loc == x) &&
        !r.got.getLsbD x && !r.bad.getLsbD x) then 1 else 0

def medR (m : Mod) (off i : Nat) : Word :=
  let c := m.mch i
  match off - 0x50000 with
  | 0x04 => satFld 8 4 ((List.range 10).countP (fun d => m.dieBusy (10 * i + d))) ||| flag 3 (m.cause (cMedUnc i)) |||
      flag 2 c.failed ||| flag 1 c.fenced ||| flag 0 (c.trained && !c.failed)
  | 0x08 => sat32 c.xfer | 0x0C => sat32 c.txfer | 0x10 => sat32 c.recon | 0x14 => sat32 c.abandon
  | 0x18 => m.cntW (cMedUnc i)
  | 0x20 =>
    let s := if i < 10 then m.host.wStdA else m.host.wStdB
    let b := if i < 10 then m.host.wBulkA else m.host.wBulkB
    satFld 16 16 (b / 10) ||| satFld 0 16 s
  | 0x44 => flag 3 (m.dieHeld i) ||| fld 0 (m.dieState i)
  | 0x48 => sat32 (m.die i).prog | 0x4C => sat32 (m.die i).pfail | 0x50 => sat32 (m.die i).bits
  | 0x54 => sat32 (m.die i).unc | 0x58 => sat32 (m.die i).rst
  | 0x110 => loW m.med.ckLast | 0x114 => hiW m.med.ckLast | 0x118 => loW m.med.jdur | 0x11C => hiW m.med.jdur
  | 0x120 => satFld 0 24 (m.med.staged.length + total (m.med.jopen.map (fun p => p.recs.length)))
  | 0x124 => flag 31 m.med.ckRun.isSome |||
      fld 30 ((match m.med.ckRun with | some r => r.seq | none => m.med.ckLast) % 2) |||
      fld 0 (match m.med.ckRun with | some r => permille r.done 163840 | none => if m.med.ckLast = 0 then 0 else 1000)
  | 0x128 => loW (bitsOf 20 (fun g => m.sgFailed g = 1)) | 0x12C => loW (bitsOf 20 (fun g => m.sgHalted g))
  | 0x130 => loW (bitsOf 20 (fun c => (m.mch c).failed))
  | 0x134 => satFld 0 8 ((List.range 200).countP (fun n => m.dieFailed n))
  | _ => 0

/-- UPK_RMDAYS (R164): the last seven days are the day of the DTC and the six before it; the losses of both sets are set against the lower
margin. Log entry 95 (DESIGN CHOICE). -/
def Mod.rmDays (m : Mod) : Nat :=
  let day := m.time.dtc / 86400000000000
  let n := m.upk.losses.countP (fun d => day < d + 7)
  let mg := min (m.margin false) (m.margin true)
  if n = 0 then 0xFFFF else min 0xFFFF (((mg - bits (m.w 0 0x60058) 15 0).toNat) * 7 / n)

/-- UPK_WAMP over the last 3,600 s; 100, its reset value, where no host page was cleaned in them. Log entry 96 (DESIGN CHOICE). -/
def Mod.wampNow (m : Mod) : Nat :=
  let s := m.time.dtc / 1000000000
  let l := m.upk.wamp.filter (fun e => s < e.2.2 + 3600)
  let h := total (l.map (fun e => e.2.1))
  if h = 0 then 100 else total (l.map (·.1)) * 100 / h

def upkR (m : Mod) (off i : Nat) : Word :=
  match off - 0x60000 with
  | 0x04 => satFld 16 16 (m.sgPending i) ||| satFld 0 16 (m.sgFree i)
  | 0x08 => satFld 16 16 (16384 - m.sgUsable i) ||| satFld 0 16 (m.sgUsable i)
  | 0x0C => satFld 0 20 (m.sgMax i) | 0x10 => satFld 0 20 (m.sgMin i)
  | 0x14 => satFld 0 20 (if m.sgUsable i = 0 then 0 else m.sgCycSum i / (10 * m.sgUsable i))
  | 0x18 => sat32 (tget 0 m.upk.retSg i)
  | 0x1C => flag 31 (m.upk.rotRun.contains i) ||| satFld 0 20 (m.spread i)
  | 0x64 => satFld 16 16 (m.margin true).toNat ||| satFld 0 16 (m.margin false).toNat
  | 0x68 => fld 4 m.upk.cause ||| flag 3 m.upk.ronly ||| flag 2 m.upk.rmostly ||| flag 1 m.upk.warned |||
      flag 0 (m.setFree false ≤ 192 || m.setFree true ≤ 192)
  | 0x6C => fld 16 m.upk.level ||| satFld 0 16 m.endurUsed
  | 0x70 => satFld 0 16 m.rmDays
  | 0x74 => loW m.upk.rclMv | 0x78 => hiW m.upk.rclMv | 0x7C => loW m.upk.rotMv | 0x80 => hiW m.upk.rotMv
  | 0x84 => sat32 m.upk.rclDrop | 0x88 => satFld 0 16 m.wampNow | 0x8C => m.cntW cRet | 0x94 => sat32 m.upk.noIdx
  | 0xA0 => match m.upk.dcmd with | some d => fld 30 d.kind ||| fld 0 d.region | none => 0
  | 0xAC => match m.upk.dcmd with
    | some d => flag 31 true ||| flag 30 d.stuck ||| fld 27 d.phase
    | none => 0
  | 0xB0 => m.cntW cDdone
  | 0x11C => fld 29 m.fb.gapsrc ||| fld 0 (permille (m.fb.passTotal - m.fb.passLeft) m.fb.passTotal)
  | 0x120 => sat32 m.fb.passes | 0x124 => satFld 0 20 m.fb.behind.length | 0x128 => m.cntW cFrag
  | 0x130 => satFld 0 20 m.fb.refq.length | 0x134 => sat32 m.fb.refdone | 0x138 => m.cntW cOvd
  | 0x140 => satFld 0 20 m.overdueN | 0x144 => sat32 m.fb.unref | 0x148 => sat32 m.fb.gap | 0x14C => loW m.ms
  | 0x150 => loW (tget 0 m.fb.w i / 2 ^ 32)
  | 0x184 => fld 8 (Config.factoryOffset (i / 65536) (i / 256 % 256) (i / 8 % 32) (i % 8)).toNat
  | 0x188 => fld 16 (m.die i).tbucket ||| fld 0 (s16 (m.therm (64 + i)).temp)
  | _ => 0

/-! ### TWIN, CRYPTO -/

/-- Pages left to resync (TW_RSPG): bitmaps, and what a whole-region resync has not reached. -/
def Mod.resyncLeft (m : Mod) : Nat :=
  total (m.twin.regs.map (fun e => e.2.pages.length + (match e.2.rest with | some n => regPages (m.rw1 e.1) - n | none => 0)))
def twR (m : Mod) (off i : Nat) : Word :=
  let t := m.twin
  match off - 0x80000 with
  | 0x00 => fld 12 t.pair.code ||| fld 8 t.refuse ||| flag 7 (t.regs.any (fun e => e.2.st = .resync)) |||
      flag 6 (m.cause cBrk) ||| flag 5 m.tx.sbWide ||| flag 4 m.tx.sbLive ||| flag 3 m.linkUp ||| flag 2 t.trained |||
      fld 1 t.side ||| flag 0 (bit (m.w 0 0x80004) 0)
  | 0x08 => loW Config.moduleId.toNat | 0x0C => hiW Config.moduleId.toNat
  | 0x10 => loW t.peer.toNat | 0x14 => hiW t.peer.toNat
  | 0x20 => loW m.nv.epoch | 0x24 => hiW m.nv.epoch | 0x28 => loW t.txmsn | 0x2C => hiW t.txmsn
  | 0x30 => loW t.ackmsn | 0x34 => hiW t.ackmsn | 0x38 => loW t.rxmsn | 0x3C => hiW t.rxmsn
  | 0x40 => satFld 16 16 (max t.lagPeak m.lagNow) ||| satFld 0 16 m.lagNow
  | 0x48 => m.cntW cBrk | 0x50 => fld 0 t.cause
  | 0x54 => fld 28 t.cmd
  | 0x58 => loW m.resyncLeft | 0x5C => hiW m.resyncLeft
  | 0x64 => flag 8 (m.twr i).keyok ||| flag 7 (m.homeHere i) ||| fld 4 (rMirror (m.rw0 i)) |||
      fld 0 (if m.keyBad && !(m.twr i).keyok && (m.twr i).st = .mirrored then 3 else (m.twr i).st.code)
  | 0x68 => sat32 (m.twr i).pages.length
  | 0x6C => sat32 t.replay | 0x70 => sat32 t.takes | 0x74 => sat32 t.sbmiss
  | _ => 0

def cryR (m : Mod) (off i : Nat) : Word :=
  let s := m.seam i
  match off - 0x90000 with
  | 0x04 => fld 30 (m.secOf i) ||| flag 29 (m.crec i).seam ||| flag 28 (m.slot i).isSome ||| flag 27 (m.crec i).ver.isSome |||
      flag 26 (rValid (m.rw0 i) && rTags (m.rw0 i)) ||| flag 25 (m.cry.pend.contains i) ||| flag 24 (m.seamOf i).isSome
  | 0x08 => loW (m.crec i).gen | 0x0C => hiW (m.crec i).gen
  | 0x14 => m.cntW (cWrd i) | 0x1C => m.cntW (cTagf i)
  | 0x104 => flag 31 (s.st != .idle)
  | 0x108 => fld 29 s.st.code ||| fld 0 (permille s.done (m.regMapped s.region).length)
  | 0x10C => loW s.ptr | 0x110 => hiW s.ptr | 0x114 => loW s.gen | 0x118 => hiW s.gen
  | 0x124 => loW m.nv.gennext | 0x128 => hiW m.nv.gennext
  | 0x12C => m.cntW cKeyf | 0x134 => m.cntW cSvf
  | 0x13C => satFld 0 13 m.cry.slots.length | 0x140 => sat32 m.cry.erased
  | 0x144 => satFld 0 4 (total (((validRegions m.cfg.plates).filter
      (fun r => rTags (m.rw0 r) && rClass (m.rw0 r) = 1)).map (fun r => rCount (m.rw1 r))))
  | _ => 0

/-! ### FORE: CHECK, TALLY, FOREMAN, SCRATCH; SEED -/

/-- The value added to a CRC register at its end, as 64 bits (R390, R391). -/
def cuFinal (poly : Nat) : Nat := if poly < 2 then 0xFFFFFFFF else 0

def cuR (m : Mod) (off i : Nat) : Word :=
  let c := m.cu i
  match off - 0xD0000 with
  | 0x04 => fld 0 c.cfg
  | 0x08 => loW c.run.toNat | 0x0C => hiW c.run.toNat
  | 0x18 => loW (Nat.xor c.run.toNat (cuFinal (c.cfg % 4))) | 0x1C => hiW (Nat.xor c.run.toNat (cuFinal (c.cfg % 4)))
  | 0x20 => loW c.faddr | 0x24 => hiW c.faddr | 0x28 => loW c.seq | 0x2C => hiW c.seq | 0x30 => fld 0 c.boff
  | 0x38 => loW c.scaddr | 0x3C => hiW c.scaddr | 0x40 => loW c.sclen | 0x44 => flag 0 c.raw
  | 0x48 => fld 29 c.state ||| fld 24 c.status | 0x4C => loW c.done | 0x50 => loW c.err | 0x54 => hiW c.err
  | 0x100 => orW ((List.range 4).map (fun n => let u := m.cu n
      fld (8 * n) ((if u.held.isSome then 128 else 0) + (if u.state = 1 then 64 else 0) + (u.held.getD 0))))
  | _ => 0

/-- The 124 bytes of a Tally record before its CRC, then the CRC (R402). -/
def Rec.bytes (r : Rec) : List Byte :=
  let b := leBytes 8 r.seq ++ leBytes 8 r.stamp ++ leBytes 4 r.opsec ++ leBytes 4 r.pwrcyc ++ leBytes 2 r.type ++
    leBytes 2 r.source ++ leBytes 1 r.nsnap ++ leBytes 1 r.trig ++ leBytes 1 r.island ++ leBytes 1 r.flags ++
    ((r.snap ++ List.replicate (12 - r.snap.length) (0 : Word)).map (fun w => leBytes 4 w.toNat)).flatten ++
    r.payload ++ List.replicate (44 - r.payload.length) 0
  b ++ leBytes 4 (crc32c b)

/-- Oldest sequence still in the ring, oldest in the Tally area (0 when it holds none). -/
def Mod.tlyTail (m : Mod) : Nat := max m.tly.base (m.tly.head + 1 - 8192)
def Mod.tlyMtail (m : Mod) : Nat := match m.nv2.tpages with | p :: _ => p.first | [] => 0

/-- The record a master's TLY_SEL names: from the ring, or from its fetch buffer (R409, R410). No record that the model holds
fails its CRC, so BADCRC reads 0. -/
def Mod.tlySel (m : Mod) (ma : Master) : Nat × Option Rec :=
  let s := (selV ma.sel 0xE0000).toNat + (selV ma.sel 0xE0004).toNat * 2 ^ 32
  if m.tlyTail ≤ s && s ≤ m.tly.head && m.tly.head != 0 then
    (1, tget none m.tly.ring (s % 8192))
  else match ma.fetch.find? (fun e => e.seq == s) with
    | some e => (2, some e)
    | none => (0, none)

def tlyR (m : Mod) (ma : Master) (off : Nat) : Word :=
  let o := off - 0xE0000
  if 0x40 ≤ o && o < 0xC0 then
    match (m.tlySel ma).2 with
    | some r => wordAt r.bytes ((o - 0x40) / 4)
    | none => 0
  else match o with
  | 0x08 => fld 30 (m.tlySel ma).1
  | 0x100 => loW m.tly.head | 0x104 => hiW m.tly.head | 0x108 => loW m.tlyTail | 0x10C => hiW m.tlyTail
  | 0x110 => loW m.tlyMtail | 0x114 => hiW m.tlyMtail | 0x118 => loW m.tly.pers | 0x11C => hiW m.tly.pers
  | 0x120 => m.cntW cLost | 0x12C => sat32 m.tly.merr
  | _ => 0

/-- The valid copy of a Seed Store page: the one with the higher sequence among those in their proper slot (R413). -/
def SPage.cur (p : SPage) : Option Copy :=
  let v0 := p.c0.ok && p.c0.seq % 2 = 0
  let v1 := p.c1.ok && p.c1.seq % 2 = 1
  if v0 && v1 then (if p.c1.seq > p.c0.seq then some p.c1 else some p.c0)
  else if v0 then some p.c0 else if v1 then some p.c1 else none
/-- The 16-byte header of a copy of page `p` in slot `s`, which stands behind its 256 data bytes (R411). -/
def Copy.header (c : Copy) (p s : Nat) : List Byte :=
  let h : List Byte := leBytes 4 c.seq ++ leBytes 1 p ++ leBytes 1 s ++ leBytes 3 c.writes ++ leBytes 3 0
  h ++ leBytes 4 (crc32c (c.data ++ h))

def Mod.spage (m : Mod) (p : Nat) : SPage := tget {} m.nv.pages p
/-- Contents of a user page; an unreadable page reads 0xFF (R413). -/
def Mod.pageBytes (m : Mod) (p : Nat) : List Byte :=
  match (m.spage p).cur with | some c => c.data | none => List.replicate 256 0xFF

def Mod.recalling (m : Mod) : Bool :=
  m.nv.compat && (match m.seed.recallUntil with | some t => decide (m.time.dtc < t) | none => false)

def seedR (m : Mod) (ma : Master) (off : Nat) : Word :=
  let a := bits (selV ma.sel 0xF0000) 14 0
  match off - 0xF0000 with
  | 0x14 => flag 31 ma.seedBusy ||| flag 30 m.recalling ||| flag 29 ((m.spage (a / 256)).cur.isNone) |||
      flag 28 (match ma.seedBuf with | some b => b.written | none => false) ||| fld 12 ma.wunl ||| fld 4 ma.runl |||
      fld 0 ma.seedStatus
  | 0x18 => match (m.spage (a / 256)).cur with | some c => loW c.seq | none => 0
  | 0x1C => match (m.spage (a / 256)).cur with | some c => satFld 0 24 c.writes | none => 0
  | 0x100 => fld 16 (bitsOf 8 (fun z => tget 0 m.nv.pwdR z != 0) + 256 * bitsOf 8 (fun z => tget 0 m.nv.pwdW z != 0)) ||| flag 0 m.nv.compat
  | 0x104 => fld 16 16 ||| satFld 0 16 m.nv.spareUsed
  | 0x108 => m.cntW cPwf | 0x110 => sat32 m.nv.moves | 0x114 => sat32 m.nv.worn
  | _ => 0

/-- What a word of the program store holds that nothing has written in this start: the running image's base shift, or zero (R241). -/
def Mod.psFill (m : Mod) (a : Nat) : Word := if a < 0x70000 && m.nv2.fwRun < 3 then Config.imageBaseWord m.nv2.fwRun a else 0
def Mod.psWord (m : Mod) (a : Nat) : Word := tget (m.psFill a) m.fore.store a
def Queue.count (q : Queue) : Nat := (q.wp + 128 - q.rp) % 128
def Wait.isWait : Wait → Bool
  | .plate .. => true
  | .event .. => true
  | .frames _ => true
  | _ => false

/-- FORE_FSTAT.STATE (R259): a free foreman stalls for work once programs are accepted (R246). -/
def Mod.fstate (m : Mod) (f : Nat) : Nat :=
  let x := m.fm f
  if x.stopped then 4 else match x.prog with
    | some _ => if x.wait.isWait then 3 else 2
    | none => if m.fore.ready then 1 else 0

def foreR (m : Mod) (sel : Tbl Word) (off i : Nat) : Word :=
  let q := m.queue i
  let x := m.fm i
  match off - 0x100000 with
  | 0x04 => flag 31 q.resetting ||| fld 24 q.wp ||| fld 16 q.rp |||
      satFld 8 8 (m.fore.fm.countP (fun e => match e.2.prog with | some p => (match p.q with | some (n, _) => n == i | none => false) | none => false)) |||
      satFld 0 7 q.count
  | 0x0C => loW q.ticket | 0x10 => m.cntW (cQrst i) | 0x18 => sat32 q.done
  | 0x48 => fld 29 (m.fstate i) ||| (match x.prog with
      | some p => fld 26 p.org.src ||| fld 0 ((if p.org.src < 2 then p.org.hook else p.org.ticket) % 65536)
      | none => 0)
  | 0x4C => loW x.pc | 0x50 => sat32 x.steps
  | 0x54 => match x.tx with
    | some t => flag 31 true ||| flag 30 t.full.isSome ||| satFld 0 10 t.writes.length
    | none => 0
  | 0x104 => loW m.fore.txnum | 0x108 => hiW m.fore.txnum | 0x10C => loW m.fore.txapp | 0x110 => hiW m.fore.txapp
  | 0x114 => sat32 m.fore.txfail | 0x118 => m.cntW cSwfail
  | 0x120 => fld 16 m.fore.lastSrc ||| fld 8 m.fore.lastSub ||| fld 0 m.fore.lastCode
  | 0x124 => loW m.fore.lastIdx
  | 0x128 => orW ((List.range 8).map (fun n => fld (16 + 2 * n) (timerOwnerT m.cfg.plates n))) |||
      orW ((List.range 4).map (fun n => fld (8 + 2 * n)
        (if bits (m.w n 0xD0034) 1 0 = 1 then 1
         else if bit (m.w 0 0x60118) 3 && bits (m.w 0 0x60118) 6 4 = n then 2
         else if (List.range 2).any (fun e => (m.seam e).st != .idle && (m.seam e).verify && (m.seam e).cu = n) then 3 else 0))) |||
      fld 0 (if bit (m.w 0 0x130004) 8 then 1 else if bit (m.w 0 0x80004) 1 then 2 else 0)
  | 0x12C => sat32 m.fore.hkovr
  | 0x134 => flag 31 (m.hook i).running ||| flag 30 (m.hook i).pending.isSome ||| satFld 0 24 (m.hook i).runs
  | 0x13C => m.psWord (bits (selV sel 0x100138) 19 0)
  | 0x140 => sat32 m.fore.psrej | 0x144 => sat32 m.fore.aborts
  | _ => 0

/-- Spare regions of each memory (R397). -/
def scrSpares (mem : Nat) : Nat := if mem = 8 then 8 else if mem = 9 then 72 else if mem = 10 then 16 else if mem = 12 then 2 else 1

def scrR (m : Mod) (off i : Nat) : Word :=
  let s := m.scr i
  match off - 0x120000 with
  | 0x08 => flag 31 s.failed ||| satFld 0 17 s.region
  | 0x0C => sat32 s.passes | 0x10 => fld 16 (scrSpares i) ||| satFld 0 16 s.used | 0x14 => sat32 s.sbe | 0x18 => sat32 s.dbe
  | 0x1C => sat32 (tget 0 (m.scr (i / 16)).conf (i % 16)) | 0x20 => sat32 (tget 0 (m.scr (i / 16)).wwc (i % 16))
  | 0x100 => m.cntW cScrFail | 0x108 => m.perf.scrLast
  | 0x10C => loW (bitsOf 16 (fun n => (m.scr n).failed))
  | _ => 0

/-! ### A word -/

/-- Which count an acknowledge register belongs to (R300). -/
def ackKey (off i : Nat) : Option Nat :=
  match off with
  | 0x10014 => some (cLdisc i) | 0x10050 => some (cUnmap i) | 0x10058 => some (cDisc i)
  | 0x20018 => some (cDem i) | 0x20024 => some (cDpo i) | 0x4001C => some (cHopStv i) | 0x4002C => some (cHopUnc i)
  | 0x5001C => some (cMedUnc i) | 0x60090 => some cRet | 0x600B4 => some cDdone | 0x6012C => some cFrag
  | 0x6013C => some cOvd | 0x70034 => some cPf | 0x70064 => some cSus | 0x8004C => some cBrk
  | 0x90018 => some (cWrd i) | 0x90020 => some (cTagf i) | 0x90130 => some cKeyf | 0x90138 => some cSvf
  | 0xA0018 => some (cRail i) | 0xB013C => some cThSus | 0xB0144 => some cThTrip | 0xE0124 => some cLost
  | 0xF010C => some cPwf | 0x100014 => some (cQrst i) | 0x10011C => some cSwfail | 0x120104 => some cScrFail
  | 0x13000C => some cDbg | _ => none

/-- Read-only fields of a register word (zero where it has none). -/
def roWord (m : Mod) (who : Nat) (ma : Master) (off i : Nat) : Word :=
  match off / 0x10000 with
  | 0x00 => glbR m who off | 0x01 => pwR m off i | 0x02 => clsR m off i | 0x03 => regR m off i | 0x04 => hopR m off i
  | 0x05 => medR m off i | 0x06 => upkR m off i | 0x07 => perR m ma.sel off | 0x08 => twR m off i | 0x09 => cryR m off i
  | 0x0A => pwrR m off i | 0x0B => thR m off i | 0x0C => perfR m off i | 0x0D => cuR m off i | 0x0E => tlyR m ma off
  | 0x0F => seedR m ma off | 0x10 => foreR m ma.sel off i | 0x11 => evtR m off i | 0x12 => scrR m off i
  | 0x13 => dbgR m off | _ => 0

/-- Words whose stored bits are a command: they read the command running, not what was written (R168, R214, R236, R339,
R190). The mask is the stored bits that still read back. -/
def readBack (off mask : Nat) : Nat :=
  if 0xC0200 ≤ off && off < 0xC0220 then 0 else match off with
  | 0x600A0 => 0 | 0x70010 => 0x1F | 0x80054 => 0x08000FFF | 0x90104 => 0x70000FFF | 0xF0004 => 0 | 0x13001C => 0
  | 0xD0044 => 0 | 0x7003C => 0 | 0xF0100 => 0 | _ => mask

/-- The live value of register plate `idx` (below 0x8_0000) for a select context. -/
def regWord (m : Mod) (who : Nat) (ma : Master) (idx : Nat) : Word :=
  let off := 4 * idx
  match rowAt off with
  | none => 0
  | some r =>
    if r.acc = .wo then 0
    else if r.acc = .sel then selV ma.sel off
    else match instOf ma.sel r.inst with
      | none => 0
      | some i =>
        match ackKey off i with
        | some k => (m.occ k).ack
        | none =>
          let stored := match viewOf i idx with
            | some t => m.tab t
            | none => pget m.cfg.plates (pkey i idx)
          if r.acc = .ro || r.acc = .rl then roWord m who ma off i
          else (stored &&& BitVec.ofNat 32 (readBack off r.mask)) ||| roWord m who ma off i

/-- The live value of a table word. -/
def tableWord (m : Mod) (idx : Nat) : Word :=
  match tableAt idx with
  | none => 0
  | some t =>
    if t.acc = .wo then 0
    else if 0x80000 ≤ idx && idx < 0x84000 && idx % 4 = 2 then m.rw2 ((idx - 0x80000) / 4)
    else if 0x80000 ≤ idx && idx < 0x84000 && idx % 4 = 3 then m.rw3 ((idx - 0x80000) / 4)
    else m.tab idx

/-- The live value of any plate (R237, R272); the indices wrap at 2^32 and unassigned ones read 0. -/
def plateWord (m : Mod) (who : Nat) (ma : Master) (idx : Nat) : Word :=
  if idx < 0x80000 then regWord m who ma idx else tableWord m idx

/-- A read by a master of register or table plate `idx` (R295, R296, R301): the LO word latches its HI half, a HI word
returns the shadow when the tag names its LO, a peak register clears. -/
def readBy (m : Mod) (who idx : Nat) : Word × Mod :=
  let ma := m.master who
  let v := plateWord m who ma idx
  if idx < 0x80000 then
    match rowAt (4 * idx) with
    | none => (0, m)
    | some r =>
      let i := (instOf ma.sel r.inst)
      if r.acc = .rl then
        (v, m.setMaster who (fun x => { x with shadow := plateWord m who ma (idx + 1), tag := some (4 * idx) }))
      else if r.acc = .ro && 0 < idx && ma.tag = some (4 * (idx - 1)) then (ma.shadow, m)
      else match 4 * idx, i with
        | 0x20104, _ => (v, { m with host := { m.host with peakA := 0, peakB := 0 } })
        | 0x80040, _ => (v, { m with twin := { m.twin with lagPeak := 0 } })
        | 0xA0010, some k => (v, m.setRail k (fun x => { x with ipeak := 0 }))
        | 0xA0118, _ => (v, { m with pwr := { m.pwr with pmax := 0 } })
        | 0xB0010, some k => (v, m.setTherm k (fun x => { x with peak := none }))
        | _, _ => (v, m)
  else (v, m)

end Sys2Proof.Machine
end

