-- ==== Sys2Proof/Machine/Parity.lean ====
section
/-!
DEFINITION. The parity of a stripe (R125): P and Q over GF(2^8), and any two codewords rebuilt from the other eight. A codeword's
256 data bytes are its four lines, the lowest first.
-/

namespace Sys2Proof.Machine

/-- The 256 data bytes of a codeword. -/
abbrev Cw := BitVec 2048

/-- The byte 0x01, 0xFE in every byte of a codeword. -/
def cwOnes : Cw := BitVec.ofNat 2048 ((2 ^ 2048 - 1) / 255)
/-- Twice every byte in GF(2^8) with x^8 + x^4 + x^3 + x^2 + 1. -/
def gfTwice (v : Cw) : Cw :=
  let top := (v >>> 7) &&& cwOnes
  ((v <<< 1) &&& ~~~ cwOnes) ^^^ (top ^^^ (top <<< 2) ^^^ (top <<< 3) ^^^ (top <<< 4))
/-- Every byte times the constant `c`. -/
def gfScale (c : Nat) (v : Cw) : Cw :=
  ((List.range 8).foldl (fun (a : Cw × Cw) i => (if c.testBit i then a.1 ^^^ a.2 else a.1, gfTwice a.2)) (0, v)).1
/-- Two bytes multiplied; the inverse of a byte; g to a power, g = 0x02. -/
def gfMul (a b : Nat) : Nat := (gfScale a (BitVec.ofNat 2048 b)).toNat % 256
def gfInv (a : Nat) : Nat := ((List.range 256).find? (fun b => gfMul a b = 1)).getD 0
def gfPow : Nat → Nat
  | 0 => 1
  | n + 1 => gfMul 2 (gfPow n)

/-- P and Q of the data codewords D0 to D7. -/
def parityOfP (d : List Cw) : Cw := d.foldl (· ^^^ ·) 0
def parityOfQ (d : List Cw) : Cw := (d.zipIdx).foldl (fun a e => a ^^^ gfScale (gfPow e.2) e.1) 0

/-- Data codeword `i` rebuilt: `d` the eight data codewords with whatever in the missing places, `gone` those of 0 to 7 that are missing,
P and Q where they are at hand. One missing codeword comes from P, or from Q; two from both. -/
def rebuildData (d : List Cw) (gone : List Nat) (p q : Option Cw) (i : Nat) : Option Cw :=
  let known := (d.zipIdx).map (fun e => if gone.contains e.2 then (0 : Cw) else e.1)
  let a := fun (p : Cw) => p ^^^ parityOfP known
  let b := fun (q : Cw) => q ^^^ parityOfQ known
  match gone.filter (· != i), p, q with
  | [], some p, _ => some (a p)
  | [], none, some q => some (gfScale (gfInv (gfPow i)) (b q))
  | [j], some p, some q =>
    some (gfScale (gfInv (Nat.xor (gfPow i) (gfPow j))) (b q ^^^ gfScale (gfPow j) (a p)))
  | _, _, _ => none

/-- The data codeword stored at channel index `x` of the stripe of a location: the same block, page and codeword. -/
def Mod.cwAt (m : Mod) (loc x k : Nat) : Cw :=
  let mp := tget ({} : MPage) m.med.media (mkEntry (enSg loc) x (enBlk loc) (enPg loc))
  (List.range 4).foldl (fun v i => v ||| ((tget ({} : Cell) mp.lines (4 * k + i)).ct.setWidth 2048 <<< (512 * i))) 0
/-- Codeword `k` of the tag page of a tagged row, on data die 7: bytes 32i to 32i + 31 are the tags of lines 4k to 4k + 3 of data die i's page;
bytes 224 to 255 are 0 (R335). -/
def Mod.tagCw (m : Mod) (loc k : Nat) : Cw :=
  (((dataDies (enBlk loc)).take 7).zipIdx).foldl (fun v e =>
    let mp := tget ({} : MPage) m.med.media (mkEntry (enSg loc) e.1 (enBlk loc) (enPg loc))
    (List.range 4).foldl (fun v j => v ||| ((tget ({} : Cell) mp.lines (4 * k + j)).tag.setWidth 2048 <<< (256 * e.2 + 64 * j))) v) 0
/-- The eight data codewords of a stripe, data die 0 first, and its parity codewords as its row's programming wrote them. -/
def Mod.stripeData (m : Mod) (loc k : Nat) : List Cw :=
  let d := (dataDies (enBlk loc)).map (fun x => m.cwAt loc x k)
  if (m.blk (bkey (enSg loc) (enBlk loc))).tagged then d.take 7 ++ [m.tagCw loc k] else d
def Mod.stripeP (m : Mod) (loc k : Nat) : Cw := parityOfP (m.stripeData loc k)
def Mod.stripeQ (m : Mod) (loc k : Nat) : Cw := parityOfQ (m.stripeData loc k)

/-- The codeword of a location from the channel indices that decoded: as read where its own did, else rebuilt from the first eight
(R125, R139). -/
def Mod.mergeStripe (m : Mod) (loc k : Nat) (got : BitVec 10) : Option Cw :=
  let dies := dataDies (enBlk loc)
  let first := ((List.range 10).filter (fun x => got.getLsbD x)).take 8
  if got.getLsbD (enCh loc) then some (m.cwAt loc (enCh loc) k)
  else
    let gone := (dies.zipIdx).filterMap (fun e => if first.contains e.1 then none else some e.2)
    let p := if first.contains (parityP (enBlk loc)) then some (m.stripeP loc k) else none
    let q := if first.contains (parityP (enBlk loc) + 1) then some (m.stripeQ loc k) else none
    rebuildData (m.stripeData loc k) gone p q (dies.idxOf (enCh loc))

/-- Line `i` of a codeword. -/
def cwLine (v : Cw) (i : Nat) : Line := (v >>> (512 * i)).setWidth 512

end Sys2Proof.Machine
end

