-- ==== Sys2Proof/Machine/Rows.lean ====
section
/-!
DEFINITION. Stripe blocks and rows: which block a writer opens (R147, R151, R152, R155), and the rows that pages and
journal-mode pages are written in (R131, R135).
-/

namespace Sys2Proof.Machine

/-- The Free stripe block of group `g` that is first by `better` on (cycle count, number): unlisted blocks are Free with
no cycles, so the lowest unlisted number stands for them. -/
def Mod.pickFree (m : Mod) (g : Nat) (most : Bool) : Option Nat :=
  let l := m.upk.blks.filter (fun e => e.1 / 16384 = g)
  let used := l.map (fun e => e.1 % 16384)
  let fresh := (lowest (min 16384 (l.length + 1)) (fun b => !used.contains b)).map (fun b => (0, b))
  let cand := (l.filter (fun e => e.2.st = .free)).map (fun e => (e.2.cycles, e.1 % 16384)) ++ fresh.toList
  (bestBy (fun a b => if most then a.1 > b.1 || (a.1 = b.1 && a.2 < b.2) else a.1 < b.1 || (a.1 = b.1 && a.2 < b.2)) cand).map (·.2)

/-- The stripe group of a set with the most Free blocks, halted groups left out, lowest number among equals (R155). -/
def Mod.pickGroup (m : Mod) (b : Bool) : Option Nat :=
  bestBy (fun x y => m.sgFree x > m.sgFree y || (m.sgFree x = m.sgFree y && x < y))
    ((setSgs b).filter (fun g => !m.sgHalted g && m.sgFree g != 0))

/-- Metadata blocks drawn from a set, those of Evacuate's images not counted (R150, R199). -/
def Mod.setMeta (m : Mod) (b : Bool) : Nat :=
  m.upk.blks.countP (fun e => e.2.st = .metadata && e.2.wr != some .evac && (10 ≤ e.1 / 16384) == b)
/-- May this writer open a Free block of the set: its tier (R152), and for metadata the set's allowance of 1,024 (R150)? Secure discard is a
mover, a root and a checkpoint image are checkpoint writes. Log entry 99 (DEDUCED). -/
def Mod.tierOk (m : Mod) (wr : Writer) (b : Bool) : Bool :=
  match wr with
  | .evac => m.setFree b != 0
  | .reclaim | .rotate | .refresh | .secure => 128 < m.setFree b
  | .journal | .root | .ckpt => 128 < m.setFree b && m.setMeta b < 1024
  | .clean => 192 < m.setFree b
  | .index => 192 < m.setFree b && m.setMeta b < 1024 && m.upk.blks.countP (fun e => e.2.st = .metadata && e.2.wr = some .index) < 320
  | .tally | .crypto | .roll => 192 < m.setFree b && m.setMeta b < 1024

/-- Rows of a block, and rows of one of its eight segments (R124, R135, R170). -/
def Writer.rows (wr : Writer) : Nat := if wr.journalMode then 10240 else 512
def Writer.segRows (wr : Writer) : Nat := if wr.journalMode then 1280 else 64
/-- Writers whose blocks are metadata. -/
def Writer.metaBlk (wr : Writer) : Bool := wr.journalMode || wr = .ckpt || wr = .index

/-- The block a writer has open in a set; Rotation's in its group (R160). -/
def Mod.openBlk (m : Mod) (wr : Writer) (b tagged : Bool) (grp : Option Nat) : Option (Nat × Blk) :=
  m.upk.blks.find? (fun e => (e.2.st = .opened || e.2.st = .metadata) && e.2.wr = some wr && e.2.tagged = tagged &&
    (10 ≤ e.1 / 16384) == b && (match grp with | some g => decide (e.1 / 16384 = g) | none => true) &&
    e.2.nextWl < wr.rows && !m.sgHalted (e.1 / 16384))

/-- The writer's open block in a set, opening one if it has none: the least-cycled of the group with most Free blocks, for
Rotation the highest-cycled of its own group (R155, R160). -/
def Mod.withBlk (m : Mod) (wr : Writer) (b tagged : Bool) (grp : Option Nat) : Option (Nat × Mod) :=
  match m.openBlk wr b tagged grp with
  | some (k, _) => some (k, m)
  | none =>
    if m.tierOk wr b then
      match (match grp with | some g => if m.sgHalted g then none else some g | none => m.pickGroup b) with
      | none => none
      | some g => (m.pickFree g grp.isSome).map (fun n =>
          (bkey g n, m.setBlk (bkey g n) (fun x =>
            { x with st := if wr.metaBlk then .metadata else .opened, wr := some wr, tagged := tagged, nextWl := 0 })))
    else none

/-- The next row of a block would go into a segment whose first row verified more than SEG_SPAN ago (R170). -/
def Mod.segOld (m : Mod) (wr : Writer) (b : Blk) : Bool :=
  b.nextWl % wr.segRows != 0 && (match b.ms.find? (fun e => e.1 = b.nextWl / wr.segRows) with
    | some e => decide (e.2.1 + bits (m.w 0 0x60114) 11 0 < m.ms)
    | none => false)
/-- The rest of such a segment is filled; a block whose last segment it is has no further rows. -/
def Mod.segFill (m : Mod) (wr : Writer) (k : Nat) : Mod :=
  m.setBlk k (fun b =>
    let n := (b.nextWl / wr.segRows + 1) * wr.segRows
    { b with nextWl := n, st := if n = wr.rows && b.st = .opened then .full else b.st, idxDue := b.idxDue || (n = wr.rows && b.st = .opened) })
/-- The writer's block with room in a segment that it may still program: filler closes an old segment first (R170). -/
def Mod.rowBlk (m : Mod) (wr : Writer) (b tagged : Bool) (grp : Option Nat) : Option (Nat × Mod) :=
  match m.withBlk wr b tagged grp with
  | none => none
  | some (k, m) =>
    if m.segOld wr (m.blk k) then
      let m := m.segFill wr k
      if (m.blk k).nextWl < wr.rows then some (k, m) else m.withBlk wr b tagged grp
    else some (k, m)

/-- Channel indices of a group whose dies have failed. -/
def Mod.goneMask (m : Mod) (sg : Nat) : BitVec 10 := (List.range 10).foldl (fun v x => if m.dieFailed (dieOf sg x) then v ||| (1#10 <<< x) else v) 0
/-- Take the next row of the writer's block: the row, not yet started but for a journal-mode page. -/
def Mod.newRow (m : Mod) (wr : Writer) (b tagged : Bool) (seq : Nat) (grp : Option Nat := none) : Option (Row × Mod) :=
  (m.rowBlk wr b tagged grp).map (fun (k, m) =>
    let blk := m.blk k
    let r : Row := { id := m.med.nextId, wr, setB := b, sg := k / 16384, blk := k % 16384, wl := blk.nextWl, tagged,
                     pages := [], started := wr.journalMode, since := m.time.dtc, verified := 0, skip := m.goneMask (k / 16384), seq }
    let m := m.setBlk k (fun x => { x with nextWl := x.nextWl + 1, removedSeq := if wr = .journal then max seq x.removedSeq else x.removedSeq })
    (r, { m with med := { m.med with rows := m.med.rows ++ [r], nextId := m.med.nextId + 1 } }))

/-- A row is complete or its wait is over: it is programmed, and its pages' regions have left data in the block (R131, R146). -/
def Mod.rowGo (m : Mod) (r : Row) : Mod :=
  let regs := r.pages.filterMap (fun p => m.regionOf (granOfPage p.page))
  let m := m.setBlk (bkey r.sg r.blk) (fun b => { b with taint := (b.taint ++ regs).eraseDups })
  { m with med := { m.med with rows := lmod (fun x => x.id = r.id) (fun _ => { r with started := true, skip := m.goneMask r.sg }) m.med.rows } }

/-- Write a journal-mode page (R135), or a row of metadata of the writer `wr`: in set A, or set B where A can take none. The page waits as a
row of its units. Log entry 100 (DESIGN CHOICE). -/
def Mod.writeMeta (m : Mod) (wr : Writer) (seq : Nat) : Mod :=
  match m.newRow wr false false seq with
  | some (r, m) => if wr.journalMode then m else m.rowGo r
  | none => match m.newRow wr true false seq with
    | some (r, m) => if wr.journalMode then m else m.rowGo r
    | none => m

/-- Pages that a row holds: 32, or 28 where data die 7 carries tags (R131, R335). -/
def Row.cap (r : Row) : Nat := if r.tagged then 28 else 32

/-- Put a page into the writer's row under assembly (R131), programming the row when it is full. -/
def Mod.addToRow (m : Mod) (wr : Writer) (b tagged : Bool) (grp : Option Nat) (p : RowPage) : Option Mod :=
  let fits := fun (r : Row) => r.wr = wr && r.setB = b && r.tagged = tagged && !r.started && r.pages.length < r.cap &&
    (m.blk (bkey r.sg r.blk)).st = .opened && !m.sgHalted r.sg && (match grp with | some g => decide (r.sg = g) | none => true)
  match (match m.med.rows.find? fits with
    | some r => some (r, m)
    | none => m.newRow wr b tagged 0 grp) with
  | none => none
  | some (r, m) =>
    let r' := { r with pages := r.pages ++ [p], since := if r.pages.isEmpty then m.time.dtc else r.since }
    let m : Mod := { m with med := { m.med with rows := lmod (fun x => x.id = r.id) (fun _ => r') m.med.rows } }
    some (if r'.pages.length = r'.cap then m.rowGo r' else m)

end Sys2Proof.Machine
end

