-- ==== Sys2Proof/Machine/Record.lean ====
section
/-!
DEFINITION. What the module records: general counters (R380–R385), the Tally recorder with triggers, snapshots and the
trace port (R374, R401–R406), event logs (R58, R427, R428), occurrence counts, and the transitions of event sources with
their records, hooks and alerts (R256, R309–R312).
-/

namespace Sys2Proof.Machine

/-! ### General counters -/

def ctrAdd (c : Ctr) (n : Nat) : Ctr :=
  { val := (c.val + n) % 2 ^ 64, wraps := min 255 (c.wraps + (c.val + n) / 2 ^ 64) }

/-- Counters whose configuration word satisfies `p`, while PERF_CTL.RUN is applied (R380, R383). -/
def Mod.ctrsWhere (m : Mod) (p : Nat → Word → Bool) : List Nat :=
  if bit (m.w 0 0xC0100) 0 then (List.range 64).filter (fun n => let w := m.w n 0xC0004; bit w 31 && p n w) else []

def Mod.ctrsAdd (m : Mod) (l : List Nat) (n : Nat) : Mod :=
  { m with perf := { m.perf with ctrs := l.foldl (fun t i => tmod {} t i (ctrAdd · n)) m.perf.ctrs } }

/-- Count `n` happenings of event code `code` (R381). -/
def Mod.happen (m : Mod) (code n : Nat) : Mod :=
  m.ctrsAdd (m.ctrsWhere (fun _ w => !bit w 30 && bits w 7 0 = code)) n

/-- Masters of a filter-mode counter (R382): 0 host, 1 foreman, 2 scan, 3 Seam, 4 debug. -/
def Mod.filterCount (m : Mod) (master : Nat) (lp : Option Nat) (clsBit : Nat) (write : Bool) (lineNo bytes : Nat) : Mod :=
  let a := lineNo * 64
  let sel := fun (unit : Bool) => m.ctrsWhere (fun n w =>
    bit w 30 && bit w 29 == unit &&
    (let f := m.w n 0xC0008
     let lo := (m.w n 0xC000C).toNat + bits (m.w n 0xC0010) 11 0 * 2 ^ 32
     let hi := (m.w n 0xC0014).toNat + bits (m.w n 0xC0018) 11 0 * 2 ^ 32
     (bit f 8 || lp == some (bits f 7 0)) && bit f (14 + clsBit) && bit f (if write then 21 else 20) &&
       bit f (22 + master) && ((lo = 0 && hi = 0) || (lo ≤ a && a < hi))))
  (m.ctrsAdd (sel false) 1).ctrsAdd (sel true) bytes

/-! ### Occurrence counts -/

/-- One occurrence of count `k` (R300). -/
def Mod.bump (m : Mod) (k : Nat) : Mod :=
  { m with evt := { m.evt with occ := tmod {} m.evt.occ k (fun o => { o with cnt := o.cnt + 1 }) } }

/-- Write an acknowledge register. -/
def Mod.setAck (m : Mod) (k : Nat) (v : Word) : Mod :=
  { m with evt := { m.evt with occ := tmod {} m.evt.occ k (fun o => { o with ack := v }) } }

/-! ### Tally -/

/-- Select value of a snapshot with SELSRC set (R405). -/
def snapSel (src : Nat) : Nat :=
  if src < 256 then src else if 273 ≤ src && src < 293 then src - 273 else if 293 ≤ src && src < 299 then 9 * (src - 293)
  else if 299 ≤ src && src < 326 then 2 * (src - 299) else if 326 ≤ src && src < 526 then (src - 326) / 10
  else if 526 ≤ src && src < 538 then src - 526 else src % 4096

/-- The trigger entry of a record: lowest enabled one that matches (R404). -/
def Mod.trigger (m : Mod) (type src : Nat) : Option Nat :=
  (List.range 64).find? (fun t =>
    let w := m.tab (0x102000 + 16 * t)
    bit w 31 && (bits w 27 20 = 0 || bits w 27 20 = type) && bits w 9 0 ≤ src % 1024 && src % 1024 ≤ bits w 19 10)

/-- The snapshot reads of a trigger entry, in word order, with one shadow for the record (R405). -/
def Mod.snaps (m : Mod) (t src : Nat) : List Word :=
  ((List.range 12).foldl (fun (acc : List Word × Word × Option Nat) k =>
    let w := m.tab (0x102000 + 16 * t + 1 + k)
    let idx := bits w 18 0
    if idx = 0 then acc
    else
      let off := 4 * idx
      let sv := if bit w 31 then snapSel src else bits w 30 19
      let ma : Master := { sel := tput 0 [] (off / 0x10000 * 0x10000) (loW sv) }
      let isRl : Bool := match rowAt off with | some r => r.acc == .rl | none => false
      let v := if acc.2.2 = some (off - 4) && 4 ≤ off then acc.2.1 else regWord m 3 ma idx
      (acc.1 ++ [v], if isRl then regWord m 3 ma (idx + 1) else acc.2.1, if isRl then some off else acc.2.2))
    ([], 0, none)).1

/-- A full staged page of 32 records, or the flush limit: one Tally page goes to the medium (R406). -/
def Mod.tallyPage (m : Mod) : Mod :=
  if m.tly.staged = 0 then m
  else
    let first := m.tly.head + 1 - m.tly.staged
    { m.writeMeta .tally first with tly := { m.tly with staged := 0 } }

/-- The trace port takes a copy of the record (R374): 1.32 µs each, 64 frames may wait. -/
def Mod.traceOut (m : Mod) (seq : Nat) : Mod :=
  if bit (m.w 0 0x130004) 8 && 1 ≤ m.dbg.level then
    let q := m.tly.trace.filter (fun t => m.time.dtc < t)
    if 65 ≤ q.length then { m with tly := { m.tly with trace := q, trcDrop := m.tly.trcDrop + 1 } }
    else
      let fin := (q.foldl max m.time.dtc) + 1320
      { m with tly := { m.tly with trace := q ++ [fin], trcSent := m.tly.trcSent + 1 } }.emit (.trace seq)
  else m

/-- The record with the next sequence number (R402–R405). `snap` overrides the snapshots (type 0x0007). -/
def Mod.mkRec (m : Mod) (type src island : Nat) (payload : List Byte) (snap : Option (List Word)) : Rec :=
  let trig : Option Nat := if type = 7 then none else m.trigger type src
  let sn : List Word := match snap with
    | some l => l
    | none => match trig with | some t => m.snaps t src | none => []
  { seq := m.tly.head + 1, stamp := m.stamp island, opsec := m.opsecNow, pwrcyc := m.nv.pwrcyc, type := type,
    source := src % 65536, nsnap := if snap.isSome then 0 else sn.length, trig := trig.getD 255, island := island,
    flags := m.tly.lostBefore.toNat + 2 * (m.isl island).suspect.toNat + 4 * m.per.evac.isSome.toNat,
    snap := sn, payload := payload }

/-- Writing sequence `seq` overwrites a ring slot whose record of this start is not durable (R406). -/
def TlySt.loses (t : TlySt) (seq : Nat) : Bool := t.base + 8192 ≤ seq && t.pers + 8192 < seq

/-- The recorder after a record is written into its ring slot. -/
def TlySt.push (t : TlySt) (now : Nat) (r : Rec) : TlySt :=
  { t with head := r.seq, ring := tput none t.ring (r.seq % 8192) (some r), lostBefore := t.loses r.seq,
           staged := t.staged + 1, oldestAt := if t.staged = 0 then now else t.oldestAt }

/-- A page is staged when 32 records wait (R406). -/
def Mod.tallyFull (m : Mod) : Mod := if 32 ≤ m.tly.staged then m.tallyPage else m

/-- A lost record is counted (R406). -/
def Mod.tallyLost (m : Mod) (lost : Bool) : Mod := if lost then m.bump cLost else m

/-- One Tally record (R401). While the recorder does not run, no record is made (R429). Log entry 40 (DESIGN CHOICE). A fenced region of the
ring holds none: the record is lost (R32, log entry 87). -/
def Mod.tallyWith (m : Mod) (type src island : Nat) (payload : List Byte) (snap : Option (List Word)) : Mod :=
  if m.tly.running then
    let r := m.mkRec type src island payload snap
    let fen : Bool := (m.scr 12).fenced.contains (r.seq % 8192 / 4)
    let t := m.tly.push m.time.dtc r
    let t := if fen then { t with ring := tput none t.ring (r.seq % 8192) none } else t
    (((({ m with tly := t }).tallyLost (m.tly.loses r.seq || fen)).happen 0x19 1).traceOut r.seq).tallyFull
  else m

def Mod.tally (m : Mod) (type src island : Nat) (payload : List Byte) : Mod := m.tallyWith type src island payload none

/-- SOURCE of a record that holds an origin (R403). -/
def Origin.code (o : Origin) : Nat := o.src + 16 * o.org + 256 * o.hook
/-- A type 0x000C record (R465). -/
def Mod.faultRec (m : Mod) (esrc island kind loc detail : Nat) : Mod :=
  m.tally 0x0C esrc island (leBytes 1 kind ++ leBytes 8 loc ++ leBytes 4 detail)
/-- A type 0x000F record: what happened and its value, in fields whose coding the spec leaves open. -/
def Mod.upkeepRec (m : Mod) (esrc kind v : Nat) : Mod :=
  m.tally 0x0F esrc islFore (leBytes 1 (Config.upkeepKind kind).toNat ++ leBytes 8 (Config.upkeepValue kind v).toNat)
/-- A type 0x000E record. -/
def Mod.secRec (m : Mod) (r kind addr : Nat) : Mod := m.tally 0x0E r islCrypt (leBytes 1 kind ++ leBytes 8 addr)
/-- A type 0x0010 record. -/
def Mod.seedRec (m : Mod) (page kind seq : Nat) : Mod := m.tally 0x10 page islAon (leBytes 1 kind ++ leBytes 4 seq)
/-- A type 0x000A record. -/
def Mod.timeRec (m : Mod) (island kind v : Nat) : Mod := m.tally 0x0A island islAon (leBytes 1 kind ++ leBytes 8 v)
/-- A type 0x000B record. -/
def Mod.twinRec (m : Mod) (kind cause epoch first count skipped : Nat) : Mod :=
  m.tally 0x0B 0 islTwin (leBytes 1 kind ++ leBytes 1 cause ++ leBytes 8 epoch ++ leBytes 2 first ++ leBytes 2 count ++
    leBytes 2 skipped)

/-! ### Event logs (R58) -/

def logHost (lp log : Nat) : Nat := 4 * lp + log
def logFm (port log : Nat) : Nat := 1024 + 4 * port + log
def logMgmt : Nat := 2048
def Mod.evLog (m : Mod) (i : Nat) : EvLog := tget {} m.host.logs i
/-- CXL Timestamp in force (R59); zero until one is set. Log entry 34 (PRESUMED). -/
def Mod.cxlTime (m : Mod) : Nat :=
  if m.time.stampBase = 0 && m.time.stampAt = 0 then 0 else m.time.stampBase + (m.time.dtc - m.time.stampAt)

/-- How an LD's policy says a log notifies its owner: 1 MSI-X, 2 a firmware-first interrupt, any other value none. The policy holds one
byte for each log, Informational lowest; the mode is in its low two bits. Log entry 89 (PRESUMED). -/
def notifyMode (policy : Word) (k : Nat) : Nat := policy.toNat / 2 ^ (8 * k) % 4

/-- Add a record; a full log drops it, counts it and shows its overflow. A log whose interrupt the policy enables
notifies its owner. Log entry 82 (DESIGN CHOICE). -/
def Mod.addRec (m : Mod) (i kind src bits_ count tallySeq data : Nat) : Mod :=
  let l := m.evLog i
  if 64 ≤ l.recs.length then
    let l' := { l with ovf := true, overCount := min 65535 (l.overCount + 1),
                       overFirst := if l.ovf then l.overFirst else m.cxlTime, overLast := m.cxlTime }
    { m with host := { m.host with logs := tput {} m.host.logs i l' }, evt := { m.evt with drop := m.evt.drop + 1 } }
  else
    let r : EvRec := { kind, handle := l.next, src, bits := bits_, count, time := m.cxlTime, tally := tallySeq, data }
    let l' := { l with recs := l.recs ++ [r], next := l.next % 65535 + 1 }
    let m := { m with host := { m.host with logs := tput {} m.host.logs i l' } }
    if i = logMgmt then
      if m.host.mgmtUnread then m
      else
        let m := { m with host := { m.host with mgmtUnread := true } }
        if bit (m.w 0 0x110200) 1 then m.emit (.ibi 0xE5) else m
    else
      let owner := if i < 1024 then i / 4 else 256 + (i - 1024) / 4
      match notifyMode (m.lp owner).evPolicy (i % 4) with
      | 1 => m.emit (.interrupt i false)
      | 2 => m.emit (.interrupt i true)
      | _ => m

/-- Records for hosts and the FM are produced until links-off, those for MGMT and Tally until step 7 (R429). -/
def Mod.evacStep (m : Mod) : Nat := match m.per.evac with | some e => e.step | none => 0
def Mod.hostRecs (m : Mod) : Bool := m.evacStep < 5 && 2 ≤ m.pwr.phase
def Mod.lateRecs (m : Mod) : Bool := m.evacStep < 7

/-- A record of the specification's own types to one LD (R428): kind 1 General Media, 2 Memory Module, 3 Dynamic
Capacity. -/
def Mod.ldRec (m : Mod) (l log kind data : Nat) : Mod :=
  if (m.lp l).enabled && m.hostRecs then m.addRec (logHost l log) kind 0 0 0 0 data else m

/-- Such a record to every LD with memory space enabled. -/
def Mod.allLdRec (m : Mod) (log kind data : Nat) : Mod :=
  (m.host.lps.map (·.1)).foldl (fun m l => if l < 256 then m.ldRec l log kind data else m) m

/-! ### Sources -/

def routeOf (m : Mod) (s : Nat) : Word := if s < 568 then m.w s 0x110010 else 0

/-- The log of a source's records: EVT_ROUTE.LOG, and for ESRC 548 the higher of it and the level's log (R426). -/
def Mod.logOf (m : Mod) (s : Nat) : Nat :=
  let l := bits (routeOf m s) 9 8
  if s = 548 then max l (match m.thTop.1 with | 3 => 1 | 4 => 2 | _ => 0) else l

/-- Produce a source's records for the destinations in `dests` (bits 0 HOST, 1 FMLD, 2 MGMT, 3 TALLY) that its route
enables and that exist now (R311, R427, R429). -/
def Mod.produce (m : Mod) (s dests : Nat) : Mod :=
  let w := routeOf m s
  let st := m.srcStat s
  let want := fun (d b : Nat) => dests.testBit d && bit w b
  let cnt := m.srcCnt s
  let tl := want 3 4 && m.tly.running && m.lateRecs
  let m := if tl then m.tally 0x01 s islAon (leBytes 4 cnt ++ leBytes 4 st.toNat) else m
  let ts := if tl then m.tly.head else 0
  let h := want 0 0 && s < 256 && (m.lp s).enabled && m.hostRecs
  let m := if h then m.addRec (logHost s (m.logOf s)) 0 s (bits st 31 28) cnt ts (m.src s).time else m
  let f := want 1 1 && m.hostRecs
  let m := if f then m.addRec (logFm m.path.ctlPort (m.logOf s)) 0 s (bits st 31 28) cnt ts (m.src s).time else m
  let g := want 2 2 && m.lateRecs
  let m := if g then m.addRec logMgmt 0 s (bits st 31 28) cnt ts (m.src s).time else m
  m.setSrc s (fun x => { x with done := Nat.lor x.done (h.toNat + 2 * f.toNat + 4 * g.toNat + 8 * tl.toNat) })

/-! ### Hooks (R255, R256) -/

def Mod.hookW (m : Mod) (h k : Nat) : Word := m.tab (0x103000 + 4 * h + k)
def hookEn (w : Word) : Bool := bit w 31
def hookKind (w : Word) : Nat := bits w 30 28

/-- A firing: pending, or lost and counted when already pending. -/
def Mod.fireHook (m : Mod) (h v : Nat) : Mod :=
  if (m.hook h).pending.isSome then { m with fore := { m.fore with hkovr := m.fore.hkovr + 1 } }
  else m.setHook h (fun x => { x with pending := some (m.time.dtc, v) })

/-- Kind 1 hooks of a source fire at its transition to pending. -/
def Mod.fireSrcHooks (m : Mod) (s : Nat) : Mod :=
  ((List.range 128).filter (fun h => let w := m.hookW h 0; hookEn w && hookKind w = 1 && bits w 9 0 = s)).foldl
    (fun m h => m.fireHook h 0) m

/-! ### Transitions -/

def Mod.holdNs (m : Mod) : Nat := bits (m.w 0 0x110200) 31 16 * 1000

/-- Bring source `s` to the pending state its causes give (R309), with records, hooks and alert at a rise. -/
def Mod.settle (m : Mod) (s : Nat) : Mod :=
  let x := m.src s
  if m.causes s == x.pending then m
  else if x.pending then m.setSrc s (fun x => { x with pending := false })
  else
    let within := match x.lastAt with | some t => decide (m.time.dtc < t + m.holdNs) | none => false
    let now := m.time.dtc
    let m := m.setSrc s (fun x => { x with pending := true, done := 0, time := now, rise := x.rise + 1 })
    let m := if bit (routeOf m s) 3 then { m with evt := { m.evt with released := false } } else m
    let m := m.fireSrcHooks s
    if within then m.setSrc s (fun x => { x with deferred := true })
    else (m.produce s 15).setSrc s (fun x => { x with lastAt := some now, deferred := false })

/-- Every source in turn, the Tally source last, so that records lost by the others are seen; then ALERT_N (R312). In M4
and while AON is unpowered or in reset nothing is evaluated (R429). -/
def Mod.settleAll (m : Mod) : Mod :=
  if m.pwr.pstate = 4 || m.pwr.aonReset then { m with evt := { m.evt with alert := false } }
  else
    let m := ((List.range 553) ++ (List.range 14).map (· + 554) ++ [553]).foldl Mod.settle m
    let a := bit (m.w 0 0x110200) 0 && !m.evt.released && m.evt.srcs.any (fun e => e.2.pending && bit (routeOf m e.1) 3)
    { m with evt := { m.evt with alert := a } }

/-- Acknowledge a source: every counted cause's acknowledge register takes its count (R310). The trip count's pair is
kept in the Seed Store (R366). -/
def Mod.ackSrc (m : Mod) (s : Nat) : Mod :=
  let m := (m.srcOcc s).foldl (fun m e => m.setAck e.1 (loW e.2.cnt)) m
  if s = 548 then { m with nv := { m.nv with tripAck := (m.occ cThTrip).ack } } else m

end Sys2Proof.Machine
end

