-- ==== Sys2Proof/Machine/Validate.lean ====
section
/-!
DEFINITION. The commit unit's validation (R248–R251, R471): which writes of a transaction break which rule in the state
that would result.
-/

namespace Sys2Proof.Machine

/-- Result codes of R248 in their order of precedence (R471). -/
inductive TxCode where
  | full | noplate | range | reserve | conflict
  deriving DecidableEq, Repr

def TxCode.code : TxCode → Nat | .full => 5 | .noplate => 6 | .range => 1 | .reserve => 2 | .conflict => 3
def TxCode.rank : TxCode → Nat | .full => 0 | .noplate => 1 | .range => 2 | .reserve => 3 | .conflict => 4

/-- One broken rule: code, sub-code, and the plate index of a write that breaks it. -/
structure Fail where
  code : TxCode
  sub : Nat
  idx : Nat
  deriving DecidableEq, Repr

def keyIdx (k : Nat) : Nat := k % 0x200000
def keyInst (k : Nat) : Nat := k / 0x200000
def within (v lo hi : Nat) : Bool := lo ≤ v && v ≤ hi
def isKeyIdx (i : Nat) : Bool := 0xE0000 ≤ i && i < 0x100040

/-- The plates after a write: only the writable bits change (R294); key words are never stored here (R320). -/
def writePlate (t : Tbl Word) (w : PWrite) : Tbl Word :=
  if isKeyIdx (keyIdx w.key) then t
  else
    let mk := BitVec.ofNat 32 (plateMask w.key)
    pput t w.key ((pget t w.key &&& ~~~ mk) ||| (w.val &&& mk))
def writePlates (t : Tbl Word) (ws : List PWrite) : Tbl Word := ws.foldl writePlate t

/-! ### Ranges of one word -/

/-- Trip thresholds at reset (R359). -/
def tripMax (c : Nat) : Nat := lget [110, 85, 100, 75, 55] c

/-- A register word within its stated range (R86, R121, R145, R168, R186, R214, R236, R259, R313, R339, R359, R365, R366,
R398–R400, R420); `ps` is the power state, for PWR_PCMD (R351). -/
def regRange (ps off : Nat) (v : Word) : Bool :=
  let f := bits v
  match off with
  | 0x40100 => within (f 22 16) 1 64
  | 0x40104 => f 15 8 ≤ 100 && f 7 0 ≤ 100 && f 7 0 ≤ f 15 8
  | 0x40108 => within (f 3 0) 2 8
  | 0x50100 => within (f 1 0) 1 2
  | 0x50104 => within (f 13 0) 100 10000
  | 0x50108 => within (f 9 0) 20 1000
  | 0x5010C => within (f 31 16) 5 1440 && within (f 15 0) 1 256
  | 0x60040 => within (f 15 0) 256 8192 && within (f 31 16) (f 15 0 + 1) 16384
  | 0x60044 => 192 ≤ f 15 0
  | 0x60048 => within (f 15 0) 500 20000 && 100 ≤ f 31 16 && 2 * f 31 16 ≤ f 15 0
  | 0x6004C => f 7 0 ≤ 50
  | 0x60050 => within (f 19 0) 100000 300000
  | 0x6005C => 256 ≤ f 15 0
  | 0x60060 => within (f 15 0) 10 2000
  | 0x600A0 => f 31 30 ≤ 2
  | 0x60100 => within (f 8 0) 12 336
  | 0x60104 => within (f 3 0) 1 15
  | 0x60108 => within (f 31 16) 8 512 && within (f 4 0) 4 20
  | 0x6010C => within (f 7 0) 1 90 && f 15 8 ≤ 85
  | 0x60110 => within (f 8 0) 1 365
  | 0x60114 => within (f 11 0) 60 3600
  | 0x60118 => f 6 4 ≤ 3
  | 0x70010 => within (f 4 0) 1 24
  | 0x70024 => within (f 12 0) 256 6144
  | 0x7002C => within (f 12 0) 3800 4400
  | 0x7003C => f 1 0 ≤ 1
  | 0x70074 => within (f 13 0) 100 10000
  | 0x80004 => within (f 15 8) 5 90
  | 0x80044 => within (f 14 0) 1000 19000
  | 0x80054 => f 31 28 ≤ 2 || f 31 28 = 4
  | 0x90120 => within (f 12 0) 100 8000
  | 0xA0104 => if ps < 3 then f 2 0 = 3 || f 2 0 = 4 else if ps = 3 then f 2 0 = 0 || f 2 0 = 4 else f 2 0 = 0
  | 0xA0108 => within (f 15 0) 1 60000
  | 0xB0130 => within (f 31 24) 1 100 && within (f 23 16) 1 100 && f 31 24 ≤ f 23 16 && within (f 7 4) 1 15
  | 0xC0004 => f 7 0 ≤ 0x1B
  | 0xD0034 => f 1 0 ≤ 1
  | 0xE0128 => within (f 9 0) 1 1000
  | 0x100008 => within (f 3 0) 1 8
  | 0x100100 => within (f 23 0) 1 10000000
  | 0x110200 => within (f 31 16) 10 10000
  | 0x120004 => f 6 0 ≤ 100
  | _ =>
    if 0xB0100 ≤ off && off < 0xB0128 then
      let c := (off - 0xB0100) / 8
      if off % 8 = 0 then
        f 7 0 < f 15 8 && f 15 8 < f 23 16 && f 23 16 < f 31 24 && within (f 31 24) (tripMax c - 20) (tripMax c)
      else within (f 7 0) 5 250
    else if 0xC0200 ≤ off && off < 0xC0220 then f 19 0 ≤ 1000000
    else true

/-- A table word within its stated range. -/
def tabRange (i : Nat) (v : Word) : Bool :=
  let f := bits v
  if 0x80000 ≤ i && i < 0x84000 then
    (if i % 4 = 0 then f 30 28 ≤ 3 && f 26 25 ≤ 2 else true)
  else if 0xD8000 ≤ i && i < 0xD8200 then
    (if i % 2 = 0 then f 23 16 ≤ 64 && f 15 8 ≤ 64 && f 7 0 ≤ 64 else f 12 8 ≤ 16 && f 4 0 ≤ 16)
  else if 0x101000 ≤ i && i < 0x101030 then
    let k := (i - 0x101000) / 4
    match i % 4 with
    | 0 => 3 ≤ k && (4 ≤ k && k ≤ 6 || f 31 30 != 1)
    | 1 => 3 ≤ k && within (f 15 8) 10 100 && within (f 7 0) 10 100
    | 2 => within (f 15 0) 100 (lget railLim k)
    | _ => true
  else if 0x102000 ≤ i && i < 0x102400 && i % 16 = 0 then f 9 0 ≤ f 19 10
  else if 0x103000 ≤ i && i < 0x103200 then
    let h := (i - 0x103000) / 4
    match i % 4 with
    | 0 => f 30 28 ≤ 3 && f 27 26 != 3 && (f 30 28 != 1 || f 9 0 ≤ 575)
    | 3 => f 31 20 ≤ 2441 && (h < 32 || f 19 0 < 2048)
    | _ => true
  else true

/-- One write within its word's range, judged on the value that the word would hold. -/
def wordRange (ps : Nat) (t1 : Tbl Word) (w : PWrite) : Bool :=
  let i := keyIdx w.key
  if isKeyIdx i then true else if i < 0x80000 then regRange ps (4 * i) (pget t1 w.key) else tabRange i (pget t1 w.key)

/-! ### Rules over several words -/

def reg0 (t : Tbl Word) (off : Nat) : Word := pget t (pkey 0 (off / 4))

/-- Words whose relation is judged together: the thresholds of R153, R164, and a hook's kind and parameter (R255). -/
def orderRule (t1 : Tbl Word) (w : PWrite) : Bool :=
  let i := keyIdx w.key
  if i = 0x60040 / 4 || i = 0x60044 / 4 then bits (reg0 t1 0x60044) 15 0 < bits (reg0 t1 0x60040) 15 0
  else if 0x60054 / 4 ≤ i && i ≤ 0x6005C / 4 then
    bits (reg0 t1 0x6005C) 15 0 < bits (reg0 t1 0x60058) 15 0 && bits (reg0 t1 0x60058) 15 0 < bits (reg0 t1 0x60054) 15 0
  else if 0x103000 ≤ i && i < 0x103200 && i % 4 < 2 then
    let w0 := pget t1 (i - i % 4)
    let p := (pget t1 (i - i % 4 + 1)).toNat
    if hookKind w0 = 2 then 1 ≤ p else if hookKind w0 = 3 then (plateAcc p).isSome else true
  else if i = 0x40011 then
    (List.range 8).any (fun f => bit (pget t1 (pkey f 0x40011)) 0) && (List.range 8).any (fun f => bit (pget t1 (pkey f 0x40011)) 1)
  else true

/-- LPs with a valid LD map entry among granules [a, a + n). -/
def lpsIn (t : Tbl Word) (a n : Nat) : List Nat :=
  (ldLps t).filter (fun l => (ldEntsT t l).any (fun e => e.dev < a + n && a < e.dev + e.count))

/-- The rules of one region's entry (R52, R76, R217, R304, R334). -/
def regionRule (m : Mod) (t0 t1 : Tbl Word) (r : Nat) : Bool :=
  let a0 := pget t0 (0x80000 + 4 * r)
  let a1 := pget t0 (0x80001 + 4 * r)
  let b0 := pget t1 (0x80000 + 4 * r)
  let b1 := pget t1 (0x80001 + 4 * r)
  let held := (m.twr r).held
  let pages := if rValid a0 then (m.hop.map.filter (fun e => regPage0 a1 ≤ e.1 && e.1 < regPage0 a1 + regPages a1)).length else 0
  let moved := rValid a0 != rValid b0 || ((rValid a0 || rValid b0) && (rBase a1 != rBase b1 || rCount a1 != rCount b1))
  let bound := ((if rValid a0 then lpsIn t1 (rBase a1) (rCount a1) else []) ++
    (if rValid b0 then lpsIn t1 (rBase b1) (rCount b1) else [])).eraseDups.length
  (!rValid b0 || (within (rCount b1) 1 16384 && rBase b1 + rCount b1 ≤ 16384 &&
    (validRegions t1).all (fun q => q = r ||
      let c := pget t1 (0x80001 + 4 * q)
      rBase c + rCount c ≤ rBase b1 || rBase b1 + rCount b1 ≤ rBase c))) &&
  !(moved && bound != 0) && !(rValid b0 && !rShared a0 && rShared b0 && bound != 0) &&
  !(rShared a0 && !rShared b0 && 1 < bound) &&
  !(held && (rClass a0 != rClass b0 || rSetB a0 != rSetB b0 || rMirror a0 != rMirror b0 || rHome a0 != rHome b0 || moved)) &&
  !(rSetB a0 != rSetB b0 && pages != 0) &&
  !(rTags a0 != rTags b0 && (pages != 0 || rCount b1 % 8 != 0)) && !(rValid b0 && rTags b0 && rCount b1 % 8 != 0)

/-- Tight-Pinned granules of a residue (R108, R336). -/
def pinnedResidue (t : Tbl Word) (tagged : Bool) (k : Nat) : Nat :=
  total (((validRegions t).filter (fun r => rClass (pget t (0x80000 + 4 * r)) = 1 &&
    (!tagged || rTags (pget t (0x80000 + 4 * r))))).map (fun r =>
      let c := pget t (0x80001 + 4 * r); (List.range (min 16 (rCount c))).countP (fun i => (rBase c + i) % 8 = k)))

def classGran (t : Tbl Word) (p : Word → Bool) : Nat :=
  total (((validRegions t).filter (fun r => p (pget t (0x80000 + 4 * r)))).map (fun r => rCount (pget t (0x80001 + 4 * r))))

/-- The totals a region adds to (R70, R108, R151, R336). -/
def regionTotals (t1 : Tbl Word) (r : Nat) : Bool :=
  let w := pget t1 (0x80000 + 4 * r)
  if !rValid w then true
  else if rClass w = 1 then
    classGran t1 (fun x => rClass x = 1) ≤ 16 && (List.range 8).all (fun k => pinnedResidue t1 false k ≤ 3) &&
      (!rTags w || (List.range 8).all (fun k => pinnedResidue t1 true k ≤ 1))
  else if rClass w = 0 then classGran t1 (fun x => rClass x = 0 && rSetB x == rSetB w) ≤ 8192
  else true

/-- The rules of a static LD map run (R217, R305, R334). -/
def runRule (m : Mod) (t1 : Tbl Word) (l e : Nat) : Bool :=
  let w0 := pget t1 (0x90000 + 0x480 * l + 2 * e)
  let n := bits (pget t1 (0x90001 + 0x480 * l + 2 * e)) 14 0
  let dpa := bits w0 29 16
  let dev := bits w0 13 0
  !bit w0 31 || (within n 1 16384 && dpa + n ≤ (m.lp l).static &&
    (ldEntsT t1 l).all (fun x => x.e = e || x.dpa + x.count ≤ dpa || dpa + n ≤ x.dpa) &&
    (match regionOfT t1 dev with
     | none => false
     | some r =>
       let a := pget t1 (0x80000 + 4 * r)
       let b := pget t1 (0x80001 + 4 * r)
       dev + n ≤ rBase b + regGranules a b && !(m.twr r).held &&
         (rShared a || (ldLps t1).all (fun q => q = l || (ldEntsT t1 q).all (fun x => x.dev + x.count ≤ dev || dev + n ≤ x.dev)))))

/-- Class-table totals: allowances of a port (R73) and all Tight allowances (R117). -/
def allowRule (t1 : Tbl Word) (l : Nat) : Bool :=
  total ((List.range 16).map (fun d => let w := pget t1 (0xD8000 + 2 * (l / 16 * 16 + d)); bits w 7 0 + bits w 15 8 + bits w 23 16)) ≤ 2048 &&
  total ((List.range 256).map (fun k => bits (pget t1 (0xD8000 + 2 * k)) 7 0)) ≤ 1536
def tmrSum (t1 : Tbl Word) (hi lo : Nat) : Nat := total ((List.range 256).map (fun k => bits (pget t1 (0xD8001 + 2 * k)) hi lo))

/-! ### Commands that are plates -/

/-- Slots whose OP word (24) this transaction writes, with the OP; and the words it writes. -/
def opOf (ws : List PWrite) (n : Nat) : Nat :=
  match ws.find? (fun w => keyIdx w.key = 0xE0000 + 32 * n + 24) with
  | some w => bits w.val 1 0
  | none => 0
def keyWords (ws : List PWrite) (n : Nat) : List Nat :=
  (ws.filter (fun w => 0xE0000 + 32 * n ≤ keyIdx w.key && keyIdx w.key < 0xE0000 + 32 * n + 32)).map (fun w => (keyIdx w.key - 0xE0000) % 32)
/-- The transaction starts engine `e`. -/
def seamStartIn (ws : List PWrite) (e : Nat) : Option Word :=
  match ws.find? (fun w => w.key = pkey e (0x90104 / 4)) with
  | some w => if bit w.val 31 then some w.val else none
  | none => none

/-- The key-slot rules (R318, R319, R324). `ahead` are the writes staged before. -/
def slotRule (m : Mod) (t1 : Tbl Word) (ahead ws : List PWrite) (n : Nat) : Bool :=
  let op := opOf ws n
  let kw := keyWords ws n
  let has := fun (a b : Nat) => (List.range (b - a)).all (fun i => kw.contains (a + i))
  if 4096 ≤ n then
    match seamStartIn ws (n - 4096) with
    | none => false
    | some c => op = 1 && has 0 16 && (!rTags (pget t1 (0x80000 + 4 * bits c 11 0)) || has 16 24)
  else
    let w := pget t1 (0x80000 + 4 * n)
    rValid w &&
    (match op with
     | 1 => has 0 16 && (!rTags w || has 16 24) && !(m.crec n).erasing && opOf ahead n != 3
     | 2 => kw = [24] && !(m.crec n).erasing && opOf ahead n != 3 && !(m.crec n).seam
     | 3 => kw = [24] && !(m.twr n).held
     | _ => false)

/-- CRY_SEAMCTL with START (R327, R331, R332): a start of an idle engine, or a resume of a stopped or suspended one. -/
def seamRule (m : Mod) (ws : List PWrite) (e : Nat) (v : Word) : Bool :=
  if !bit v 31 then true
  else
    let r := bits v 11 0
    let s := m.seam e
    match s.st with
    | .idle => (m.secOf r ≤ 1) && !(m.crec r).seam && !(m.twr r).held && opOf ws (4096 + e) = 1
    | .stopped => s.region = r
    | .suspended => s.region = r && (opOf ws (4096 + e) = 1 || (m.slot (4096 + e)).isSome)
    | _ => false

/-- UPK_DCMD (R166, R167), TW_CMD (R234, R236). -/
def dcmdRule (m : Mod) (t1 : Tbl Word) (v : Word) : Bool :=
  bits v 31 30 = 0 || (m.upk.dcmd.isNone && (bits v 31 30 != 2 ||
    (let b := pget t1 (0x80001 + 4 * bits v 11 0); (lpsIn t1 (rBase b) (rCount b)).isEmpty)))
def twCmdRule (t1 : Tbl Word) (v : Word) : Bool :=
  bits v 31 28 != 4 ||
    (let w := pget t1 (0x80000 + 4 * bits v 11 0)
     rValid w && (rMirror w = 1 || (rMirror w = 2 && bit v 27)))

/-! ### Conflicts (R251) -/

/-- A meter claims timer `n`. -/
def meterOn (t : Tbl Word) (n : Nat) : Bool :=
  t.any (fun e => 0x30400 ≤ e.1 && e.1 < 0x30800 && e.1 % 4 == 0 && bit e.2 3 && bits e.2 2 0 == n)

/-- Claimants of check unit `n` in the resulting state: program scan, Fireboss, each Seam engine. -/
def cuClaims (m : Mod) (t1 : Tbl Word) (ws : List PWrite) (n : Nat) : Nat :=
  (bits (pget t1 (pkey n (0xD0034 / 4))) 1 0 = 1 : Bool).toNat + (bit (reg0 t1 0x60118) 3 && bits (reg0 t1 0x60118) 6 4 = n : Bool).toNat +
  (List.range 2).countP (fun e => match seamStartIn ws e with
    | some c => bit c 30 && bits c 29 28 = n
    | none => (m.seam e).st != .idle && (m.seam e).verify && (m.seam e).cu = n)

/-- Conflicts that a write takes part in: their sub-codes. -/
def conflictsOf (m : Mod) (t1 : Tbl Word) (ws : List PWrite) (w : PWrite) : List Nat :=
  let i := keyIdx w.key
  let aux := bit (reg0 t1 0x130004) 8 && bit (reg0 t1 0x80004) 1
  let th := bits (reg0 t1 0xB0130) 12 10
  (if aux && ((i = 0x130004 / 4 && bit w.val 8) || (i = 0x80004 / 4 && bit w.val 1)) then [0x10] else []) ++
  (if meterOn t1 th && (i = 0xB0130 / 4 || i = 0xC0200 / 4 + th ||
      (0x30400 ≤ i && i < 0x30800 && i % 4 = 0 && bit w.val 3 && bits w.val 2 0 = th)) then [0x20 + th] else []) ++
  ((List.range 4).filter (fun n => 2 ≤ cuClaims m t1 ws n &&
    ((i = 0xD0034 / 4 && keyInst w.key = n && bits w.val 1 0 = 1) || (i = 0x60118 / 4 && bit w.val 3 && bits w.val 6 4 = n) ||
     (i = 0x90104 / 4 && bit w.val 31 && bit w.val 30 && bits w.val 29 28 = n)))).map (0x30 + ·) ++
  (if i = 0x4010C / 4 && bits (pget t1 w.key) 23 16 + bits (pget t1 w.key) 15 8 + bits (pget t1 w.key) 7 0 != 64 then [0x40] else [])

/-! ### The verdict -/

/-- Does this write keep every RANGE rule? -/
def rangeOk (m : Mod) (ps : Nat) (t0 t1 : Tbl Word) (ahead ws : List PWrite) (w : PWrite) : Bool :=
  let i := keyIdx w.key
  wordRange ps t1 w && orderRule t1 w &&
  (if 0x80000 ≤ i && i < 0x84000 && i % 4 < 2 then
     regionRule m t0 t1 ((i - 0x80000) / 4) && regionTotals t1 ((i - 0x80000) / 4)
   else if 0x90000 ≤ i && i < 0xD8000 && (i - 0x90000) % 0x480 < 128 then
     runRule m t1 ((i - 0x90000) / 0x480) ((i - 0x90000) % 0x480 / 2)
   else if 0xD8000 ≤ i && i < 0xD8200 && i % 2 = 0 then allowRule t1 ((i - 0xD8000) / 2)
   else if isKeyIdx i then slotRule m t1 ahead ws ((i - 0xE0000) / 32)
   else if i = 0x90104 / 4 then seamRule m ws (keyInst w.key) w.val
   else if i = 0x600A0 / 4 then dcmdRule m t1 w.val
   else if i = 0x80054 / 4 then twCmdRule t1 w.val
   else true)

/-- Every broken rule of a transaction's writes. -/
def failsOf (m : Mod) (t0 : Tbl Word) (ahead : List PWrite) (t : Tx) : List Fail :=
  let t1 := writePlates t0 t.writes
  (match t.full with | some i => [⟨.full, 0, i⟩] | none => []) ++
  (t.writes.map (fun w =>
    let i := keyIdx w.key
    (if (plateAcc i).isNone then [⟨.noplate, 0, w.idx⟩] else []) ++
    (if rangeOk m m.pwr.pstate t0 t1 ahead t.writes w then [] else [⟨.range, 0, w.idx⟩]) ++
    (if 0xD8000 ≤ i && i < 0xD8200 && i % 2 = 1 then
      (if 16 < tmrSum t1 4 0 && bits w.val 4 0 != 0 then [⟨.reserve, 0, w.idx⟩] else []) ++
      (if 16 < tmrSum t1 12 8 && bits w.val 12 8 != 0 then [⟨.reserve, 1, w.idx⟩] else []) else []) ++
    (conflictsOf m t1 t.writes w).map (fun s => ⟨.conflict, s, w.idx⟩))).flatten

/-- The one failure that TXC returns (R471): first code by precedence, lowest sub-code, and the lowest index among the writes
that cause that failure (log entry 24). -/
def verdict (l : List Fail) : Option Fail :=
  match bestBy (fun a b => a.code.rank < b.code.rank) l with
  | none => none
  | some f =>
    let sub := ((l.filter (fun x => x.code = f.code)).map (·.sub)).foldl min f.sub
    let same := (l.filter (fun x => x.code = f.code && x.sub = sub)).map (·.idx)
    some { code := f.code, sub, idx := same.foldl min (same.headD f.idx) }

/-- Writes staged and not yet applied, in order. -/
def Mod.stagedWrites (m : Mod) : List PWrite := (m.fore.staged.map (·.writes)).flatten

/-- Validate a transaction against applied plus staged state (R249). -/
def Mod.validate (m : Mod) (t : Tx) : Option Fail :=
  verdict (failsOf m (writePlates m.cfg.plates m.stagedWrites) m.stagedWrites t)

end Sys2Proof.Machine
end

