-- ==== Sys2Proof/Machine/Hop.lean ====
section
/-!
DEFINITION. The hopper's shared operations: stored poison (R54, R470), keys of a line (R317, R328), frames and ways
(R91–R93, R336), posted writes, spill frames and detours (R98–R101), the line access (R116), media reads (R77, R80,
R139–R142), the map journal (R134, R135).
-/

namespace Sys2Proof.Machine

/-! ### Stored poison -/

def Mod.psn (m : Mod) (page : Nat) : Psn := tget {} m.hop.poison page
def Mod.poisoned (m : Mod) (lineNo : Nat) : Bool := (m.psn (lineNo / 64)).mask.getLsbD (lineNo % 64)
def poisonCap : Nat := 4194304

/-- The poison table and its durable copy (R470). -/
def Mod.setPsn (m : Mod) (page : Nat) (v : Psn) : Mod :=
  { m with hop := { m.hop with poison := tput {} m.hop.poison page v },
           nv2 := { m.nv2 with poison := tput {} m.nv2.poison page v } }

/-- The General Media Event of a mark of source internal, at most one per hold-off to an LD that maps the line (R428). -/
def Mod.mediaEvent (m : Mod) (lineNo : Nat) : Mod :=
  (m.lpsOfGran (granOfLine lineNo)).foldl (fun m l =>
    let a := (m.aux l).mediaEvAt
    if a = 0 || a + m.holdNs ≤ m.time.dtc + 1 then
      (m.setAux l (fun x => { x with mediaEvAt := m.time.dtc + 1 })).ldRec l 2 1 ((m.devToDpa l lineNo).getD 0 * 64)
    else m) m

/-- Store a poison mark, source external or internal (R54, R470). Log entry 28 (DESIGN CHOICE). -/
def Mod.mark (m : Mod) (lineNo : Nat) (ext : Bool) : Mod :=
  let page := lineNo / 64
  let o := m.psn page
  let j := lineNo % 64
  if o.mask = 0 && poisonCap ≤ m.hop.poison.length then m.faultRec 0 islHop 13 (lineNo * 64) 0
  else
    let m := m.setPsn page { mask := mset o.mask j, ext := if ext then mset o.ext j else mclr o.ext j }
    if ext then m else m.mediaEvent lineNo

def Mod.unmark (m : Mod) (lineNo : Nat) : Mod :=
  if m.poisoned lineNo then
    let o := m.psn (lineNo / 64)
    let j := lineNo % 64
    m.setPsn (lineNo / 64) { mask := mclr o.mask j, ext := mclr o.ext j }
  else m

/-- A write of a full line sets or clears its mark. -/
def Mod.remark (m : Mod) (lineNo : Nat) (poison : Bool) : Mod := if poison then m.mark lineNo true else m.unmark lineNo

/-! ### Keys -/

def slotUse (s : Slot) (gen : Nat) : KeyUse := { k1 := s.k1, k2 := s.k2, kt := s.kt, gen }
/-- Line index within a region. -/
def Mod.lineIn (m : Mod) (r lineNo : Nat) : Nat := lineNo - rBase (m.rw1 r) * 16777216
/-- The key of a line now: below the Seam pointer the Seam slot under GEN_new, otherwise the region slot (R328). -/
def Mod.keyFor (m : Mod) (r lineNo : Nat) : Option KeyUse :=
  let c := m.crec r
  match (if c.seam then m.seamOf r else none) with
  | some e => if m.lineIn r lineNo < (m.seam e).ptr then (m.slot (4096 + e)).map (slotUse · c.seamGen)
      else (m.slot r).map (slotUse · c.gen)
  | none => (m.slot r).map (slotUse · c.gen)
def Mod.tagged (m : Mod) (r : Nat) : Bool := rTags (m.rw0 r)
def Mod.seal (m : Mod) (r lineNo : Nat) (k : KeyUse) (d : Line) : Cell := sealLine k lineNo (m.tagged r) d
/-- Does a cell's tag verify (R333)? -/
def tagOk (tagged : Bool) (k : KeyUse) (lineNo : Nat) (c : Cell) : Bool := !tagged || c.zero || lineTag k lineNo c.ct == c.tag
/-- The plaintext of a cell. -/
def decCell (k : KeyUse) (lineNo : Nat) (c : Cell) : Line := if c.zero then 0 else decLine k lineNo c.ct

/-! ### Frames -/

def waySet (page : Nat) : List Nat := (List.range 8).map (8 * setOf page + ·)
/-- Ways that hold a page; the primary before its second copy. -/
def Mod.waysOf (m : Mod) (page : Nat) : List Nat :=
  let l := (waySet page).filter (fun f => (m.frame f).v && (m.frame f).page = page)
  l.filter (fun f => !(m.frame f).dup) ++ l.filter (fun f => (m.frame f).dup)
def Mod.wayOf (m : Mod) (page : Nat) : Option Nat := (m.waysOf page).head?

/-- A line operation holds the page's frame. -/
def Mod.lineHeld (m : Mod) (page : Nat) : Bool :=
  m.fore.fm.any (fun e => match e.2.wait with | .line o => o.line / 64 = page | _ => false) ||
    (match m.dbg.mcmd with | some o => o.line / 64 = page | none => false)

/-- May the way be replaced (R93)? A detached frame still holds dirty lines and is not. -/
def Mod.replaceable (m : Mod) (f : Nat) : Bool :=
  let x := m.frame f
  if x.v then !x.d && !x.f && !x.p && !x.lpin && !x.cleaning && !m.hop.merge.any (fun e => e.lineNo / 64 = x.page) &&
    !m.lineHeld x.page
  else !x.retired && !x.detached

/-- The first replaceable way at or after DTC mod 8, or mod 4 for a tagged page (R93, R336). -/
def Mod.pickWay (m : Mod) (page : Nat) (tagged : Bool) : Option Nat :=
  let n := if tagged then 4 else 8
  ((List.range n).map (fun i => 8 * setOf page + (m.time.dtc % n + i) % n)).find? m.replaceable

/-- Give a way to a page that fills. -/
def Mod.allocWay (m : Mod) (f page : Nat) : Mod := m.setFrame f (fun _ => { v := true, f := true, page })

/-- A posted write whose frame still holds the page it was made for; any other is written nowhere. -/
def Mod.pweLive (m : Mod) (e : Pwe) : Bool :=
  let x := m.frame e.frame
  (x.v || x.detached) && x.page = e.page
/-- The newest value of a line of frame `f`: the youngest posted write, or the frame. -/
def Mod.queued (m : Mod) (f j : Nat) : Option Cell :=
  (m.hop.pwq.reverse.find? (fun e => e.frame = f && e.line = j && m.pweLive e)).map (·.cell)
def Mod.cellAt (m : Mod) (f j : Nat) : Cell := (m.queued f j).getD (tget {} (m.frame f).lines j)

/-- Accesses and posted writes that wait on a frame's channel. -/
def Mod.chanLoad (m : Mod) (f : Nat) : Nat :=
  m.hop.access.countP (fun a => a.ch = m.chanOf f) + m.hop.pwq.countP (fun e => e.ch = m.chanOf f)
/-- The frame that holds line `j` of a page: its way, of the two copies of a Tight-Pinned page the one whose channel grants first (R70;
log entry 85, DEDUCED), its spill frame, a detached frame's dirty line, an earlier spill frame (R96, R100). -/
def Mod.findLine (m : Mod) (page j : Nat) : Option Nat :=
  let ok := fun (f : Nat) => (m.frame f).valid.getLsbD j
  match bestBy (fun a b => decide (m.chanLoad a < m.chanLoad b)) ((m.waysOf page).filter ok) with
  | some f => some f
  | none =>
    let e := m.entry page
    if enForm e = 2 && (m.frame (enSpill e)).v && ok (enSpill e) then some (enSpill e)
    else match m.hop.frames.find? (fun x => x.2.detached && x.2.page = page && x.2.dirtyAll.getLsbD j) with
      | some x => some x.1
      | none => (m.hop.frames.find? (fun x => isSpill x.1 && x.2.v && !x.2.transit && x.2.page = page && x.2.valid.getLsbD j)).map (·.1)

/-- Is the line resident (R69): valid in a way of the directory? -/
def Mod.resident (m : Mod) (lineNo : Nat) : Bool :=
  (m.waysOf (lineNo / 64)).any (fun f => (m.frame f).valid.getLsbD (lineNo % 64))

/-! ### Map -/

/-- A line of the map or the metadata is written: an armed flip of its channel inverts its lanes, once (R113). -/
def Mod.posWrite (m : Mod) (p line : Nat) : Mod :=
  let c := m.chanOf p
  let l := if (m.hch c).flipArm then (m.hch c).flipLanes else 0
  let m := { m with hop := { m.hop with posFlip := tput 0 m.hop.posFlip (64 * p + line) l } }
  if (m.hch c).flipArm then m.setHch c (fun x => { x with flipArm := false }) else m
/-- The lines of the map that hold a page's 5-byte entry (R90, R133): position and line, one or two. -/
def Mod.mapLines (m : Mod) (page : Nat) : List (Nat × Nat) :=
  [5 * page / 64, (5 * page + 4) / 64].eraseDups.map (fun l => (m.mapBase + l / 64, l % 64))
def Mod.setEntry (m : Mod) (page e : Nat) : Mod :=
  (m.mapLines page).foldl (fun m x => m.posWrite x.1 x.2) { m with hop := { m.hop with map := tput 0 m.hop.map page e } }

/-- Media location of a journal-mode row: the page of its first copy (R134, R135). -/
def Row.metaLoc (r : Row) : Nat := mkEntry r.sg (2 * (r.wl % 5)) r.blk (r.wl / 5)
/-- Location of the newest journal page. -/
def Mod.lastJLoc (m : Mod) : Nat := match (m.med.jpages ++ m.med.jopen).find? (fun p => p.seq + 1 = m.med.jnext) with
  | some p => p.loc | none => 0
/-- A journal page as it is written (R134): sequence, DTC, record count, the previous page's location, the CRC-32C, the records. -/
def JRec.bytes (r : JRec) : List Byte := leBytes 4 r.page ++ leBytes 5 r.new ++ leBytes 5 r.old ++ leBytes 1 r.kind ++ leBytes 1 0
def JPage.bytes (p : JPage) : List Byte :=
  let head : List Byte := leBytes 8 p.seq ++ leBytes 8 p.dtc ++ leBytes 2 p.recs.length ++ leBytes 5 p.prev ++ leBytes 5 0
  let body := (p.recs.flatMap JRec.bytes) ++ List.replicate (16 * (254 - p.recs.length)) 0
  head ++ leBytes 4 (crc32c (head ++ leBytes 4 0 ++ body)) ++ body
/-- Start a journal page with the staged records (R135). Where no metadata block can be opened they stay staged. -/
def Mod.journalPage (m : Mod) : Mod :=
  if m.med.staged.isEmpty then m
  else
    let m' := m.writeMeta .journal m.med.jnext
    if m'.med.nextId = m.med.nextId then m
    else
      let p : JPage := { seq := m.med.jnext, dtc := m.time.dtc, recs := (m.med.staged.take 254).map (·.1),
                         loc := match m'.med.rows.getLast? with | some r => r.metaLoc | none => 0, prev := m.lastJLoc }
      { m' with med := { m'.med with staged := m.med.staged.drop 254, jnext := p.seq + 1, jopen := m.med.jopen ++ [p] } }

/-- Stage a journal record; 254 make a page (R134, R135). -/
def Mod.stageJ (m : Mod) (page new old kind : Nat) : Mod :=
  let m := { m with med := { m.med with staged := m.med.staged ++ [({ page, new, old, kind }, m.time.dtc)] } }
  if 254 ≤ m.med.staged.length then m.journalPage else m

/-- A page is removed from its media location by the record that is staged next: its block remembers when, and which journal page must
be durable (R148). -/
def Mod.leaveLoc (m : Mod) (e : Nat) : Mod :=
  if enForm e = 1 then
    m.setBlk (bkey (enSg e) (enBlk e)) (fun x => { x with removedSeq := m.med.jnext + m.med.staged.length / 254, removedAt := m.time.dtc })
  else m

/-- A journaled map update: a spilled page's location stands in its frame's record (R94, R95). -/
def Mod.remap (m : Mod) (page new kind : Nat) : Mod :=
  let old := m.mediaLoc page
  let e := m.entry page
  let m := if enForm e = 2 then m.setFrame (enSpill e) (fun x => { x with saved := new }) else m.setEntry page new
  (m.leaveLoc old).stageJ page new old kind

/-! ### Posted writes -/

/-- Free posted-write entries of a write's kind on a channel (R98). -/
def Mod.pwFree (m : Mod) (c : Nat) (tight : Bool) : Nat :=
  (32 - m.pwqN c false) + (if tight then 32 - m.pwqN c true else 0)
def Mod.hasRoom (m : Mod) (f : Nat) (tight : Bool) : Bool :=
  !(m.hch (m.chanOf f)).failed && m.pwFree (m.chanOf f) tight != 0

/-- Put a line in its channel's queue; it is valid and dirty in the frame (R98). -/
def Mod.enqueue (m : Mod) (f j : Nat) (cell : Cell) (tight tagged : Bool) : Mod :=
  let c := m.chanOf f
  let e : Pwe := { ch := c, tightPool := tight && m.pwqN c true < 32, frame := f, line := j, cell, page := (m.frame f).page }
  let m := { m with hop := { m.hop with pwq := m.hop.pwq ++ [e] } }
  m.setFrame f (fun x =>
    { x with d := true, valid := mset x.valid j, dirty := mset x.dirty j, lastMs := m.time.dtc / 1000000 % 2 ^ 32,
             tagDirty := if tagged then x.tagDirty ||| (1#8 <<< (j / 8)) else x.tagDirty })

/-- A released frame is in the pool again once the accesses granted on it have completed (R101). -/
def Mod.frameIdle (m : Mod) (f : Nat) : Bool := !m.hop.access.any (fun a => a.frame = f) && !m.hop.pwq.any (fun e => e.frame = f)
/-- The lowest free spill frame on channel `c` of the layout. -/
def Mod.spillOn (m : Mod) (c : Nat) : Option Nat :=
  let l := m.hcList
  let n := max 1 l.length
  let off := (l.idxOf c + n - spill0 % n) % n
  ((List.range (m.hop.frames.length + m.hop.access.length + m.hop.pwq.length + 1)).map (fun k => spill0 + off + n * k)).find?
    (fun f => f < spill0 + m.spillTotal && !(m.frame f).v && !(m.frame f).detached && m.frameIdle f)

/-- The spill frame R100 takes: on the channel with the most free entries of the kind, the lowest on a tie. -/
def Mod.pickSpill (m : Mod) (tight : Bool) : Option Nat :=
  let cs := m.hcList.filter (fun c => !(m.hch c).failed && m.pwFree c tight != 0 && (m.spillOn c).isSome)
  (bestBy (fun a b => m.pwFree a tight > m.pwFree b tight) cs).bind m.spillOn

/-- Detach a way: V cleared, D kept, the detached flag set (R100). -/
def Mod.detach (m : Mod) (f : Nat) : Mod := m.setFrame f (fun x => { x with v := false, detached := true })

/-- Write a line to a spill frame; the page's entry takes the spill form. -/
def Mod.placeSpill (m : Mod) (page j : Nat) (cell : Cell) (tight tagged : Bool) : Option Mod :=
  (m.pickSpill tight).map (fun f =>
    let saved := m.mediaLoc page
    let m := (m.waysOf page).foldl Mod.detach m
    let m := (m.setFrame f (fun _ => { v := true, f := true, page, saved })).setEntry page (mkSpill f)
    (m.enqueue f j cell tight tagged).happen 0x0D 1)

/-- A detour from the home channel of frame `f`. -/
def Mod.detour (m : Mod) (f page j : Nat) (cell : Cell) (tight tagged : Bool) : Option Mod :=
  (m.placeSpill page j cell tight tagged).map (fun m =>
    (m.setHch (m.chanOf f) (fun x => { x with detours := x.detours + 1 })).happen 0x0C 1)

/-- Place a full line in the hopper (R98, R100, R70): in the page's way, both copies of a Tight-Pinned page, a way
allocated without a fetch, or a spill frame. None while it must wait: no entry, or a failed channel. A Tight-Pinned page stays in its
two ways and waits for their entries (log entry 37). -/
def Mod.place (m : Mod) (page j : Nat) (cell : Cell) (tight tagged : Bool) : Option Mod :=
  match m.wayOf page with
  | some f =>
    if (m.frame f).p then
      if (m.waysOf page).all (m.hasRoom · tight) then
        some ((m.waysOf page).foldl (fun m f => m.enqueue f j cell tight tagged) m) else none
    else if m.hasRoom f tight then some (m.enqueue f j cell tight tagged)
    else if (m.hch (m.chanOf f)).failed then none
    else m.detour f page j cell tight tagged
  | none => match m.pickWay page tagged with
    | some f =>
      if m.hasRoom f tight then some ((m.allocWay f page).enqueue f j cell tight tagged)
      else m.detour f page j cell tight tagged
    | none => m.placeSpill page j cell tight tagged

/-- The cell that a line write of frame `f` stores: an armed flip inverts its lanes, once (R113). -/
def Mod.written (m : Mod) (f : Nat) (cell : Cell) : Cell :=
  { cell with flip := if (m.hch (m.chanOf f)).flipArm then (m.hch (m.chanOf f)).flipLanes else 0 }
def Mod.disarm (m : Mod) (f : Nat) : Mod :=
  if (m.hch (m.chanOf f)).flipArm then m.setHch (m.chanOf f) (fun x => { x with flipArm := false }) else m

/-- A line fetched from elsewhere enters a frame where it holds none yet. -/
def Mod.fillLine (m : Mod) (f j : Nat) (cell : Cell) (dirty tagged : Bool) : Mod :=
  if (m.frame f).valid.getLsbD j then m
  else
    let c := m.written f cell
    (m.disarm f).setFrame f (fun x =>
      { x with lines := tput {} x.lines j c, valid := mset x.valid j,
               dirty := if dirty then mset x.dirty j else x.dirty, d := x.d || dirty,
               tagDirty := if dirty && tagged then x.tagDirty ||| (1#8 <<< (j / 8)) else x.tagDirty })

/-- Write a line that a frame holds again, corrected (R111, R112, R114). -/
def Mod.rewriteLine (m : Mod) (f j : Nat) (cell : Cell) : Mod :=
  let c := m.written f cell
  (m.disarm f).setFrame f (fun x => { x with lines := tput {} x.lines j c })

/-- Write the oldest posted line of a channel into its frame, with its record (R94, R98). -/
def Mod.drainOne (m : Mod) (c : Nat) : Mod :=
  match m.hop.pwq.find? (fun e => e.ch = c) with
  | none => m
  | some e =>
    let cell := m.written e.frame e.cell
    let live := m.pweLive e
    let m := { m with hop := { m.hop with pwq := m.hop.pwq.erase e } }
    if !live then m else
    (m.disarm e.frame).setFrame e.frame (fun x =>
      { x with lines := tput {} x.lines e.line cell, lastMs := m.time.dtc / 1000000 % 2 ^ 32 })

/-- Drain every posted write (R197, R198 step 3). -/
def Mod.drainAll (m : Mod) : Mod := m.hop.pwq.foldl (fun m e => m.drainOne e.ch) m

/-! ### Line accesses and media reads -/

/-- The requester of a line access (R116) and whether it is a Tight or Tight-Pinned host access (R117). -/
def Mod.askerCl (m : Mod) : Asker → Nat × Bool
  | .req id => (0, m.host.reqs.any (fun r => r.id = id && !r.demoted && (r.cls = .tight || r.cls = .pinned)))
  | .foreman _ => (4, false)
  | .debug => (8, false)
  | .mover _ _ => (5, false)
/-- Ask for a hopper line access, its cell captured in CRYPT's order. -/
def Mod.access (m : Mod) (who : Asker) (f lineNo : Nat) (cached : Bool) : Mod :=
  let l := m.hopLoc f (lineNo % 64)
  let a : Access := { id := m.hop.nextAcc, who, ch := m.chanOf f, frame := f, lineNo, cell := m.cellAt f (lineNo % 64),
                      cached := cached || (m.queued f (lineNo % 64)).isSome, place := (l.bank, l.row, l.col),
                      cl := (m.askerCl who).1, tight := (m.askerCl who).2 }
  { m with hop := { m.hop with access := m.hop.access ++ [a], nextAcc := m.hop.nextAcc + 1 } }

/-- Media data of line `j` at a location. -/
def Mod.mediaCell (m : Mod) (loc j : Nat) : Cell := tget {} (tget ({} : MPage) m.med.media loc).lines j

/-- Unreadable dies of a stripe group: failed ones. -/
def Mod.dieGone (m : Mod) (g x : Nat) : Bool := m.dieFailed (dieOf g x)

/-- A Bulk read, or one of a foreman, the debug port or a mover (R141). Log entry 97 (DEDUCED). -/
def Mod.softAsk (m : Mod) (who : Asker) : Bool :=
  match who with
  | .req id => m.host.reqs.any (fun r => r.id = id && (r.demoted || r.cls = .bulk))
  | _ => true
/-- A media read of the codeword that holds a line. A soft read waits for its target die where that is busy and expected to end within
2 µs; MED's expectation is an open value (R141). -/
def Mod.mread (m : Mod) (who : Asker) (page cw loc : Nat) (book : Option (Nat × Nat)) (stamp : Nat) : Mod :=
  let d := if m.softAsk who && m.dieBusy (dieOf (enSg loc) (enCh loc)) then m.draw else (0, m)
  let m := d.2
  let r : MRead := { id := m.med.nextId, who, page, cw, loc, book, rebuild := false, got := 0, bad := 0, stamp,
                     soft := m.softAsk who && Config.endsSoon d.1 }
  { m with med := { m.med with reads := m.med.reads ++ [r], nextId := m.med.nextId + 1 } }

/-- A booked array read begins: the non-Tight array reads that hold a die of its group in its plane are abandoned and start again, with
their stamp (R80, R141). Log entry 98 (DEDUCED). -/
def Mod.abandon (m : Mod) (loc : Nat) : Mod :=
  let hit := fun (r : MRead) => r.book.isNone && enSg r.loc = enSg loc && enPg r.loc % 4 = enPg loc % 4
  (m.med.reads.filter hit).foldl (fun m r =>
    ({ m with med := { m.med with reads := lmod (fun x => x.id = r.id) (fun x => { x with got := 0, bad := 0 }) m.med.reads } }.setMch
      (mcOf (enSg r.loc) (enCh r.loc)) (fun c => { c with abandon := c.abandon + 1 })).happen 0x11 1) m

/-- Two transfers of 30 ns that start at `a` and `b` do not overlap (R128). -/
def apart (a b : Nat) : Bool := a + 30 ≤ b || b + 30 ≤ a
/-- Every usable die of the group can finish sensing the plane of location `loc` by `t` (R129): its data register is free of another
booking's codeword from that one's transfer to 50 ns before `t`. -/
def Mod.planeFree (m : Mod) (loc t : Nat) : Bool :=
  loc = 0 || m.med.reads.all (fun r => match r.book with
    | some b => r.done || enSg r.loc != enSg loc || r.plane != enPg loc % 4 || b.2 + 80 ≤ t || t + 80 ≤ b.2
    | none => true)
/-- The start of the earliest free Tight slot of a set in [lo, hi] (R77, R78, R129). -/
def Mod.freeSlot (m : Mod) (setB : Bool) (loc lo hi : Nat) : Option Nat :=
  let l := m.med.books.filter (fun b => b.1 = setB.toNat)
  ((List.range (hi + 1 - lo)).map (lo + ·)).find? (fun t =>
    l.all (fun b => apart b.2.1 t) && l.countP (fun b => b.2.1 / 1000 = t / 1000) < 16 &&
      (setSgs setB).all (fun c => (m.mch c).slots.all (fun b => apart b t)) && m.planeFree loc t)
/-- The start of a non-Tight transfer on channel `c` that ends now or later, the earliest that the bookings and the other transfers leave,
with no more than 17 of them in a frame: 33 slots less the Tight reservation of 16 (R78, R128, R129). Log entry
122 (DEDUCED). -/
def Mod.openSlot (m : Mod) (c : Nat) : Nat :=
  let t0 := m.time.dtc - 30
  let bs := (m.med.books.filter (fun b => b.1 = c / 10)).map (·.2.1)
  let own := (m.mch c).slots
  let ok := fun (t : Nat) => (bs ++ own).all (fun b => apart b t) && own.countP (fun b => b / 1000 = t / 1000) < 17
  let cand := t0 :: ((bs ++ own).map (· + 30) ++ [(t0 / 1000 + 1) * 1000, (t0 / 1000 + 2) * 1000])
  match (cand.filter (fun t => t0 ≤ t && ok t)).min? with
  | some t => t
  | none => (t0 / 1000 + 3) * 1000

/-- Book a slot; CLS_BOOK's peaks count the bookings of the frame that contains T. -/
def Mod.book (m : Mod) (setB : Bool) (t : Nat) : Mod :=
  let m := { m with med := { m.med with books := m.med.books ++ [(setB.toNat, t, m.time.dtc)] } }
  let n := m.med.books.countP (fun b => b.1 = setB.toNat && b.2.1 / 1000 = t / 1000)
  let h := if setB then { m.host with peakB := max m.host.peakB n } else { m.host with peakA := max m.host.peakA n }
  ({ m with host := h }).happen 0x03 1

end Sys2Proof.Machine
end

