-- ==== Sys2Proof/Machine/Serve.lean ====
section
/-!
DEFINITION. How a host request is served: credits (R49, R82, R83, R101, R193, R361), classification and admission
(R24, R47, R69–R79, R466), responses (R39, R51), deadline poison (R84, R85), mirroring (R222–R228), reads (R96, R97,
R114, R337), full-line and partial writes (R98–R104, R467), the media reads behind them (R139–R143).
-/

namespace Sys2Proof.Machine

/-! ### Credits -/

/-- No credit at all is returned: before PHASE 4, from an Evacuate commit, in M2 and M3, under GLB_CTL.HOLD, with an island
stalled. -/
def Mod.noCredits (m : Mod) : Bool :=
  m.pwr.phase < 4 || m.pwr.phase = 6 || 2 ≤ m.pwr.pstate || m.per.evac.isSome || bit (m.w 0 0x14) 0 || m.timeStall
def Mod.reqOpen (m : Mod) : Bool := !m.noCredits && !m.host.gate && !m.waitHigh
def Mod.gpfHold (m : Mod) : Bool := m.host.ports.any (fun e => e.2.gpfWait)
def Mod.rwdAllowed (m : Mod) : Bool := !m.noCredits && m.pwr.phase = 5 && m.nv.prec != .clean && !(m.imgHeldN != 0 && m.nv.prec != .armed) && m.per.orderly.isNone && m.per.debounce.isNone && !m.gpfHold && !m.rwdCause
/-- Credits a port may still return in this frame under pacing (R361). -/
def Mod.paceLeft (m : Mod) (used : Nat) : Nat :=
  match m.pace with
  | none => 0xFFFF
  | some p => cdiv (p * 1797) 100 - used
/-- Requests on a port that hold a credit of the channel. -/
def Mod.usedCr (m : Mod) (p : Nat) (wr : Bool) : Nat :=
  m.host.reqs.countP (fun r => r.lp / 16 = p && r.op.isWrite == wr) +
    m.host.held.countP (fun h => h.req.lp / 16 = p && h.req.op.isWrite == wr)

/-- Return up to `n` credits of a channel to a port. -/
def Mod.giveReq (m : Mod) (p n : Nat) : Mod :=
  let q := m.port p
  let k := min n (min (m.paceLeft q.pacedReq) (m.credits p - (q.reqCr + m.usedCr p false)))
  m.setPort p (fun x => { x with reqCr := x.reqCr + k, pacedReq := x.pacedReq + k })
def Mod.giveRwd (m : Mod) (p n : Nat) : Mod :=
  let q := m.port p
  let fit := min ((m.budget - m.dt) / 4096) (m.spillFree - m.reserve)
  let k := min (min n fit) (min (m.paceLeft q.pacedRwd) (m.credits p - (q.rwdCr + m.usedCr p true)))
  m.setPort p (fun x => { x with rwdCr := x.rwdCr + k, pacedRwd := x.pacedRwd + k })

/-- The credit that a response returns (R49). -/
def Mod.returnCredit (m : Mod) (p : Nat) (wr : Bool) : Mod :=
  if wr then (if m.rwdAllowed && m.host.rwdOpen then m.giveRwd p 1 else m)
  else if m.reqOpen then m.giveReq p 1 else m

/-- Every port's credits at a boundary (R82, R83, R101, R361), lowest port first. Log entry 63 (DESIGN CHOICE). -/
def Mod.fillCredits (m : Mod) : Mod :=
  (List.range 16).foldl (fun m p =>
    if (m.port p).link = .l0 then
      let m := m.setPort p (fun x => { x with pacedReq := 0, pacedRwd := 0 })
      let m := if m.reqOpen then m.giveReq p 2048 else m
      if m.rwdAllowed then m.giveRwd p 2048 else m
    else m) m

/-! ### Responses -/

def Lp.out (l : Lp) (c : Cls) : Nat := match c with | .tight | .pinned => l.outT | .standard => l.outS | .bulk => l.outB
/-- Count a request in or out of its LP's outstanding counts (R73, R75). -/
def Lp.countReq (l : Lp) (c : Cls) (demoted : Bool) (f : Nat → Nat) : Lp :=
  if demoted then { l with outD := f l.outD }
  else match c with
    | .tight | .pinned => { l with outT := f l.outT }
    | .standard => { l with outS := f l.outS }
    | .bulk => { l with outB := f l.outB }
/-- The allowance of a class as admission uses it (R25, R73). -/
def Mod.allowance (m : Mod) (l : Nat) (c : Cls) : Nat :=
  match c with
  | .tight | .pinned => effField m (0xD8000 + 2 * l) 7 0
  | .standard => effField m (0xD8000 + 2 * l) 15 8
  | .bulk => effField m (0xD8000 + 2 * l) 23 16

/-- DevLoad of a response (R51; PHASE 4, R442). Log entry 47 (DEDUCED). -/
def Mod.devLoad (m : Mod) (r : Req) : Nat :=
  let l := m.lp r.lp
  if m.pwr.phase = 4 || m.budgetHold || m.upk.rmostly || m.upk.ronly then 3
  else if r.demoted || (l.lastDem != 0 && m.frameNo ≤ l.lastDem) then 2
  else if !r.free && m.allowance r.lp r.cls ≤ 2 * l.out r.cls then 1 else 0

/-- Send a response: DevLoad as it is now (R51), the counts it ends, its credit, the bandwidth meter's read line (R73, R49, R386). -/
def Mod.send (m : Mod) (r : Req) (ans : Option Answer) : Mod :=
  let load := m.devLoad r
  let at_ := m.time.dtc
  let m := if r.free then m else m.setLp r.lp (fun l => l.countReq r.cls r.demoted (· - 1))
  let m := if r.op = .read then m.setAux r.lp (fun a => { a with accRd := a.accRd + 1 }) else m
  let m := m.emit (match r.op, ans with
    | .read, some a => .drs r.lp r.htag a load at_ r.bound
    | .read, none => .drs r.lp r.htag .poison load at_ r.bound
    | _, _ => .cmp r.lp r.htag load at_ r.bound)
  m.returnCredit (r.lp / 16) r.op.isWrite

/-- Complete a request: its response leaves, or is held while the port is not in L0 (R39). -/
def Mod.respond (m : Mod) (r : Req) (ans : Option Answer) : Mod :=
  let m := { m with host := { m.host with reqs := m.host.reqs.filter (fun x => x.id != r.id) } }
  if (m.port (r.lp / 16)).link = .l0 then m.send r ans
  else { m with host := { m.host with held := m.host.held ++ [{ req := r, ans }] } }

/-- A request that still waits for its answer; one decided late never gets another (R84). -/
def Mod.reqById (m : Mod) (id : Nat) : Option Req := m.host.reqs.find? (fun r => r.id = id && !r.late)
def Mod.setReq (m : Mod) (id : Nat) (f : Req → Req) : Mod :=
  { m with host := { m.host with reqs := lmod (fun r => r.id = id) f m.host.reqs } }

/-- Drop a request without a response; its credit comes back with the next boundary's. -/
def Mod.dropReq (m : Mod) (r : Req) : Mod :=
  let m := { m with host := { m.host with reqs := m.host.reqs.filter (fun x => x.id != r.id) } }
  let m := if r.free then m else m.setLp r.lp (fun l => l.countReq r.cls r.demoted (· - 1))
  { m with hop := { m.hop with
      mwait := m.hop.mwait.filter (· != r.id),
      merge := (m.hop.merge.map (fun e => { e with waiting := e.waiting.filter (· != r.id) })).filter
        (fun e => e.acked || !e.waiting.isEmpty || e.fore.isSome) } }

/-- The step that a request is late at (R84): of a media read, whether the transfer is under way and what has decoded. The steps before
and after the hopper and the medium take no time in the model, so codes 1 to 3 and 10 to 12 stand for none it can be late at. -/
def Mod.lateStep (m : Mod) (r : Req) : Nat :=
  if r.step != 6 then r.step
  else match m.med.reads.find? (fun q => q.who = .req r.id) with
    | none => 6
    | some q =>
      if q.bad != 0 || (q.rebuild && q.got != 0) then 8
      else if q.got != 0 || (match q.book with | some b => decide (b.2 ≤ m.time.dtc) | none => false) then 7 else 6

/-- Deadline poison (R84, R85): a read's poisoned response is due at the deadline; a write is discarded, with viral where the host
enabled it. -/
def Mod.poisonReq (m : Mod) (r : Req) : Mod :=
  let wr := r.op.isWrite
  let st := m.lateStep r
  let m := (m.bump (cDpo r.lp)).happen 0x05 1
  let m := m.tally 6 r.lp (r.lp / 16) (leBytes 1 (match r.cls with | .tight => 0 | .pinned => 1 | .standard => 2 | .bulk => 3) ++
    leBytes 1 wr.toNat ++ leBytes 8 (r.line * 64) ++ leBytes 1 st)
  if wr then
    ((m.dropReq r).setLp r.lp (fun l => { l with viral := l.viral || l.viralEn })).setAux r.lp
      (fun a => { a with wrLost := a.wrLost ++ [(m.occ (cDpo r.lp)).cnt % 2 ^ 32] })
  else m.setReq r.id (fun x => { x with late := true, answer := some .poison })
/-- Poisoned responses whose deadline has come leave (R84). -/
def Mod.sendLate (m : Mod) : Mod :=
  (m.host.reqs.filter (fun r => r.late && decide (r.deadline ≤ m.time.dtc))).foldl (fun m r => m.respond r (some .poison)) m

/-! ### Mirroring -/

def Mod.addPage (m : Mod) (r page : Nat) : Mod :=
  m.setTwr r (fun x => if x.pages.contains page then x else { x with pages := x.pages ++ [page] })

/-- A flit leaves: with its sequence number and the acknowledgement of the last good flit (R218). -/
def Mod.flitOut (m : Mod) (f : Flit) : Mod :=
  match f.rcd with
  | some r => m.emit (.twinLine (f.seq % 65536) m.tx.lastGood f.grant r)
  | none => m.emit (.twin (f.seq % 65536) m.tx.lastGood f.grant f.fr)
/-- Send a flit, kept in the replay buffer until it is acknowledged; with 256 unacknowledged it waits, an HB frame ahead of all others
(R218, R220). -/
def Mod.sendFlit (m : Mod) (first : Bool) (f : Flit) : Mod :=
  if m.tx.buf.length < 256 then
    let f := { f with seq := m.tx.flitTx }
    ({ m with tx := { m.tx with flitTx := m.tx.flitTx + 1, buf := m.tx.buf ++ [f] } }).flitOut f
  else { m with tx := { m.tx with outq := if first then f :: m.tx.outq else m.tx.outq ++ [f] } }
/-- Waiting flits take the room that acknowledgements leave. -/
def Mod.flitRoom (m : Mod) : Mod :=
  let n := 256 - m.tx.buf.length
  (m.tx.outq.take n).foldl (fun m f => m.sendFlit false f) { m with tx := { m.tx with outq := m.tx.outq.drop n } }
/-- Send waiting records while there is credit (R222, R225). -/
def Mod.twinPump (m : Mod) : Mod :=
  if m.linkUp then
    (m.twin.recs.filter (fun r => !r.sent)).foldl (fun m r =>
      if m.twin.credits = 0 then m
      else
        let r' := { r with sent := true }
        (({ m with twin := { m.twin with credits := m.twin.credits - 1, recs := lmod (fun x => x.msn = r.msn) (fun _ => r') m.twin.recs },
                   tx := { m.tx with live := m.tx.live + (!r.resync).toNat } }).sendFlit false { rcd := some r' }).happen 0x18 1) m
  else m

/-- Put a record into the stream under the next MSN. -/
def Mod.putRec (m : Mod) (r : TwRec) : Mod :=
  ({ m with twin := { m.twin with txmsn := r.msn, recs := m.twin.recs ++ [r] } }).twinPump

/-- The sidecar line of a line's tag group: its eight tags (R222, R336). -/
def Mod.tagLine (m : Mod) (lineNo : Nat) : Line :=
  (List.range 8).foldl (fun acc i =>
    let j := lineNo % 64 / 8 * 8 + i
    let t : Dword := match m.findLine (lineNo / 64) j with
      | some f => (m.cellAt f j).tag
      | none => (m.mediaCell (m.mediaLoc (lineNo / 64)) j).tag
    acc ||| (t.setWidth 512 <<< (64 * i))) 0

/-- The records of one write in the home's stream: its line or bytes, and the sidecar line of a tagged region; or a bitmap bit
while the pair is broken (R222, R228). Gives the last record's MSN. -/
def Mod.mirror (m : Mod) (reg lineNo gen : Nat) (ct : Line) (poison sync sidecar : Bool) (part : Option (Dword × Line))
    (req : Option Nat) : Option Nat × Mod :=
  if m.homeHere reg then
    let st := (m.twr reg).st
    if m.twin.pair = .paired && (st = .mirrored || st = .resync) then
      let msn := m.twin.txmsn + 1
      let r : TwRec := { msn, region := reg, lineNo, gen, ct, poison, sync, sidecar := false, part, sent := false,
                         ackedAt := if sync then none else some m.time.dtc, req }
      let m := m.putRec r
      if sidecar then
        (some (msn + 1), m.putRec { r with msn := msn + 1, ct := m.tagLine lineNo, poison := false, sidecar := true, part := none })
      else (some msn, m)
    else if st = .broken || st = .refused then (none, m.addPage reg (lineNo / 64))
    else (none, m)
  else (none, m)

/-- Acknowledge the placed writes that no longer wait for the twin. -/
def Mod.releaseSync (m : Mod) (covered : Nat → Bool) : Mod :=
  (m.host.reqs.filter (fun r => r.answer.isSome && (match r.waitMsn with | some n => covered n | none => false))).foldl
    (fun m r => m.respond r r.answer) m

/-- The part of a pair break that touches host writes and the stream (R228): the cause, the bitmap of pages not covered, Sync writes acknowledged, states Broken. -/
def Mod.breakCore (m : Mod) (code : Nat) : Mod :=
  if m.twin.pair = .paired then
    let m := m.bump cBrk
    let m := m.twin.recs.foldl (fun m r => m.addPage r.region (r.lineNo / 64)) m
    let m := m.tx.copying.foldl (fun m e => m.addPage e.1 e.2) m
    let m := { m with twin := { m.twin with pair := .broken, cause := code, lagPeak := max m.twin.lagPeak m.lagNow, recs := [], rsopen := [] }, tx := { m.tx with copying := [] },
                      med := { m.med with moves := m.med.moves.filter (fun v => !v.copy) } }
    let m := (m.twin.regs.filter (fun e => e.2.st = .mirrored || e.2.st = .resync)).foldl
      (fun m e => m.setTwr e.1 (fun x => { x with st := .broken, wasMir := decide (x.st = .mirrored) })) m
    (m.releaseSync (fun _ => true)).twinRec 0 code m.nv.epoch 0 0 0
  else m

/-! ### Classification and admission -/

/-- Reason counts of CLS_WHY0 and CLS_WHY1: 0 ALLOW, 1 TOKEN, 2 SLOT, 3 BULKOVER. Log entry 65 (DEDUCED). -/
def Mod.demote (m : Mod) (l why : Nat) : Mod :=
  ((m.setLp l (fun x => { x with lastDem := m.frameNo + 1, why := tmod 0 x.why why (· + 1) })).bump (cDem l)).happen 0x04 1

/-- Is the page's map entry one that needs a media transfer (R466)? -/
def Mod.needsMedia (m : Mod) (page reg : Nat) : Bool :=
  let e := m.entry page
  enForm e = 1 && !m.hop.badMap.contains page &&
    entryOk e (if rClass (m.rw0 reg) = 0 then some (rSetB (m.rw0 reg)) else none)
/-- A media or reserved form that R133 makes an uncorrectable entry, or one awaiting rebuild (R114). -/
def Mod.entryBad (m : Mod) (page reg : Nat) : Bool :=
  m.hop.badMap.contains page || enForm (m.entry page) = 3 || (enForm (m.entry page) = 1 && !m.needsMedia page reg)

/-- Tests 2 and 3 of R74 for a Tight miss, with R466: the reason it fails for, or the booking's T. -/
def Mod.bookMiss (m : Mod) (l page reg : Nat) : Except Nat (Option Nat) × Mod :=
  let b := rSetB (m.rw0 reg)
  let tok := if b then (m.aux l).tokB else (m.aux l).tokA
  let known := m.mcHit page
  if tok = 0 then (.error 1, m)
  else if known && !m.needsMedia page reg then (.ok none, m)
  else
    let d := if known then (0, m) else m.draw
    let s := Config.mapReadStall d.1 % 31
    let t0 := m.time.dtc
    match m.freeSlot b (m.mediaLoc page) (if known then t0 + 81 else t0 + 126 + s) (t0 + 158) with
    | none => (.error 2, d.2)
    | some t => (.ok (some t), (d.2.book b t).setAux l
        (fun a => if b then { a with tokB := a.tokB - 1 } else { a with tokA := a.tokA - 1 }))

/-- Admission in the order of R74: class demotion reason, or the booking. -/
def Mod.bookReq (m : Mod) (l : Nat) (op : ReqOp) (c : Cls) (lineNo reg : Nat) : (Option Nat × Option Nat) × Mod :=
  let page := lineNo / 64
  let hit : Bool := match m.wayOf page with | some f => !(m.frame f).f | none => false
  let miss : Bool := (op = .read && !hit) || (op = .ptl && !m.resident lineNo)
  if m.allowance l c ≤ (m.lp l).out c then ((some (if c = .bulk then 3 else 0), none), m)
  else if c = .tight && miss then
    match m.bookMiss l page reg with
    | (.error w, m) => ((some w, none), m)
    | (.ok t, m) => ((none, t), m)
  else ((none, none), m)

def clsCode (c : Cls) : Nat := match c with | .tight => 0 | .pinned => 1 | .standard => 2 | .bulk => 3
/-- Enabled bytes of a request (R382). -/
def reqBytes (op : ReqOp) (mask : Dword) : Nat := if op = .ptl then popcount mask else 64

/-- The bandwidth meter counts a write at its stamp (R386). -/
def Mod.meterWrite (m : Mod) (l : Nat) (op : ReqOp) : Mod := if op.isWrite then m.setAux l (fun a => { a with accWr := a.accWr + 1 }) else m
/-- Stamp an unmapped request (R47): it counts against no allowance. -/
def Mod.stampUnmapped (m : Mod) (l : Nat) (op : ReqOp) (tag : Nat) : Req × Mod :=
  let m := m.meterWrite l op
  let r : Req := { id := m.host.nextReq, lp := l, op, htag := tag, line := 0, region := 0, cls := .tight, demoted := false,
                   free := true, stamp := m.stamp (l / 16), deadline := m.time.dtc + 240 + m.linkAdd l, mirror := 0, security := 0,
                   key := none, step := 12, answer := none, waitMsn := none, data := 0, mask := 0, wpoison := false,
                   bound := 240 + m.linkAdd l }
  (r, { m with host := { m.host with nextReq := m.host.nextReq + 1, reqs := m.host.reqs ++ [r] } })

/-- Stamp, classify and book a mapped request (R24, R72, R74, R75): the request and its booking. Log entry 66 (DEDUCED). -/
def Mod.stampReq (m : Mod) (l : Nat) (op : ReqOp) (tag lineNo reg : Nat) (data : Line) (mask : Dword) (poison : Bool) :
    (Req × Option Nat) × Mod :=
  let c := m.clsNow reg
  let w := m.rw0 reg
  let res := m.resident lineNo
  let ad := m.bookReq l op c lineNo reg
  let dem := ad.1.1.isSome
  let m := match ad.1.1 with | some y => ad.2.demote l y | none => ad.2
  let bound := if dem then baseBound .bulk op res
    else baseBound c op res + featureAdd c op res (rTags w) (m.crec reg).seam (rMirror w = 1)
  let m := ((m.happen 0x02 1).meterWrite l op).setLp l (fun x => x.countReq c dem (· + 1))
  let m := m.filterCount 0 (some l) (if dem then 4 else clsCode c) op.isWrite lineNo (reqBytes op mask)
  let r : Req := { id := m.host.nextReq, lp := l, op, htag := tag, line := lineNo, region := reg, cls := c, demoted := dem,
                   free := false, stamp := m.stamp (l / 16), deadline := m.time.dtc + bound + m.linkAdd l, mirror := rMirror w,
                   security := m.secOf reg, key := m.keyFor reg lineNo, step := 12, answer := none, waitMsn := none,
                   data, mask, wpoison := poison, bound := bound + m.linkAdd l, seam := (m.crec reg).seam }
  ((r, ad.1.2), { m with host := { m.host with nextReq := m.host.nextReq + 1, reqs := m.host.reqs ++ [r] } })

/-- A request takes its port's credit; a port outside L0, or a module that serves no host, stamps nothing (R437, R442). -/
def Mod.canStamp (m : Mod) (l : Nat) : Bool := (m.port (l / 16)).link = .l0 && (m.pwr.phase = 4 || m.pwr.phase = 5 || m.pwr.phase = 7) && m.pwr.pstate < 2 && m.per.evac.isNone
def Mod.takeCredit (m : Mod) (l : Nat) (wr : Bool) : Mod :=
  m.setPort (l / 16) (fun p => if wr then { p with rwdCr := p.rwdCr - 1 } else { p with reqCr := p.reqCr - 1 })

/-! ### Reads -/

/-- Bytes of `b` where the mask is set, of `a` elsewhere. -/
def overlay (mask : Dword) (a b : Line) : Line :=
  let m512 : Line := (List.range 64).foldl (fun acc i => if mask.getLsbD i then acc ||| ((255#512) <<< (8 * i)) else acc) 0
  (a &&& ~~~ m512) ||| (b &&& m512)

/-- What earlier-stamped writes to the line that are not yet in the hopper lay over it (R50, R103): the open merge entry,
then the waiting writes in stamp order. -/
def Mod.laid (m : Mod) (lineNo : Nat) : Dword × Line :=
  let e0 : Dword × Line := match m.hop.merge.find? (fun e => e.lineNo = lineNo) with
    | some e => (e.mask, e.data)
    | none => (0, 0)
  (m.host.reqs.filter (fun r => r.op.isWrite && r.answer.isNone && r.line = lineNo && !r.free)).foldl
    (fun a r => let k := if r.op = .write then ~~~ (0 : Dword) else r.mask; (a.1 ||| k, overlay k a.2 r.data)) e0

/-- The plaintext of a cell for a request, with what was laid over it at the stamp. -/
def Req.plain (r : Req) (k : KeyUse) (c : Cell) : Line := overlay r.mask (decCell k r.line c) r.data

/-- Answer a read from a cell: tag, decryption (R333, R337). A tag that fails poisons the stored line. -/
def Mod.tagFail (m : Mod) (reg lineNo : Nat) : Mod := ((m.mark lineNo false).bump (cTagf reg)).secRec reg 1 (lineNo * 64)
def Mod.answerCell (m : Mod) (r : Req) (c : Cell) : Mod :=
  match r.key with
  | none => m.respond r (some .poison)
  | some k =>
    if tagOk (m.tagged r.region) k r.line c then m.respond r (some (.data (r.plain k c)))
    else (m.tagFail r.region r.line).respond r (some .poison)

/-- Will the line be poisoned once the writes stamped before request `id` that still wait have taken effect (R50, R54)? A full line sets
or clears the mark, a poisoned partial write sets it. -/
def Mod.poisonAhead (m : Mod) (lineNo id : Nat) : Bool :=
  (m.host.reqs.filter (fun r => r.op.isWrite && r.answer.isNone && r.line = lineNo && !r.free && r.id < id)).foldl
    (fun b r => if r.op = .write then r.wpoison else b || r.wpoison) (m.poisoned lineNo)
/-- The page's way fills and the page has a media location: a read follows the miss path (R92). -/
def Mod.filling (m : Mod) (page : Nat) : Bool :=
  (match m.wayOf page with | some f => (m.frame f).f | none => false) && enForm (m.entry page) = 1

/-- Serve a stamped read. -/
def Mod.serveRead (m : Mod) (r : Req) (book : Option Nat) : Mod :=
  let page := r.line / 64
  let ov := m.laid r.line
  let fill := m.filling page
  let c := if fill then (m.findLine page (r.line % 64)).map (fun f => m.cellAt f (r.line % 64)) else none
  let r := { r with mask := ov.1, data := ov.2, cell := c }
  let m := m.setReq r.id (fun _ => r)
  let hit : Bool := match m.wayOf page with | some f => !(m.frame f).f | none => false
  let m := m.happen (if hit then 0x06 else 0x07) 1
  if 2 ≤ r.security || m.poisonAhead r.line r.id then m.respond r (some .poison)
  else if ov.1 = ~~~ (0 : Dword) then m.respond r (some (.data ov.2))
  else
    let m' := if hit then m else (m.happen (if m.mcHit page then 0x08 else 0x09) 1).mcTouch page
    match (if fill then none else m.findLine page (r.line % 64)) with
    | some f => (m'.setReq r.id (fun x => { x with step := 5 })).access (.req r.id) f r.line false
    | none =>
      if m.entryBad page r.region then m'.setReq r.id (fun x => { x with step := 4 })
      else if m.mediaLoc page = 0 then m'.respond r (some (.data (overlay ov.1 0 ov.2)))
      else
        let loc := m.mediaLoc page
        let m' := if m'.per.evac.isSome then m' else
          m'.mread (.req r.id) page (r.line % 64 / 4) loc (book.map (fun t => ((rSetB (m.rw0 r.region)).toNat, t))) r.stamp
        m'.setReq r.id (fun x => { x with step := 6 })

/-! ### Full-line writes -/

/-- A host write that is completed and discarded (R467, R52, R165, R210, R323). -/
def Mod.writeBar (m : Mod) (reg security : Nat) : Option Nat :=
  if rShared (m.rw0 reg) then some 0 else if m.upk.ronly || m.suspectStart then some 1 else if security != 0 then some 2 else none
def Mod.discardWhy (m : Mod) (r : Req) : Option Nat := m.writeBar r.region r.security
/-- A discarded write of LP `l` is counted, with its reason. -/
def Mod.countDiscard (m : Mod) (l reg why : Nat) : Mod :=
  let m := m.bump (cDisc l)
  if why = 2 then m.bump (cWrd reg)
  else m.setAux l (fun a => if why = 0 then { a with discShared := a.discShared + 1 } else { a with discState := a.discState + 1 })
def Mod.discardWrite (m : Mod) (r : Req) (why : Nat) : Mod := (m.countDiscard r.lp r.region why).respond r none

/-- Acknowledge a placed write: at once, or when the twin has it (R223). -/
def Mod.ackWrite (m : Mod) (r : Req) (msn : Option Nat) : Mod :=
  let m := m.happen (if r.op = .write then 0x0A else 0x0B) 1
  match (if r.mirror = 1 then msn else none) with
  | some n => m.setReq r.id (fun x => { x with answer := some (.data 0), waitMsn := some n, step := 5 })
  | none => m.respond r none

/-- The full-line write discards the line's open entry; partial writes that waited for the line, or for its record at the twin, are
answered with the record `msn` that carries the line (R82, R103, R223). -/
def Mod.dropMerge (m : Mod) (lineNo : Nat) (msn : Option Nat) : Mod :=
  let w := (m.hop.merge.filter (fun e => e.lineNo = lineNo)).flatMap (fun e => e.waiting ++ e.owe)
  let m := { m with hop := { m.hop with merge := m.hop.merge.filter (fun e => e.lineNo != lineNo) } }
  (m.host.reqs.filter (fun r => w.contains r.id && r.answer.isNone)).foldl (fun m r => m.ackWrite r msn) m

/-- The last record put into the stream between two states. -/
def lastRec (old new : Mod) : Option Nat := if old.twin.txmsn < new.twin.txmsn then some new.twin.txmsn else none
/-- The key a write is stored under: the key its stamp fixed, and where a Seam runs or ran on the region, the line's key now (R72,
R328). -/
def Mod.reqKey (m : Mod) (r : Req) : Option KeyUse :=
  if r.seam || (m.crec r.region).seam then (m.keyFor r.region r.line).orElse (fun _ => r.key) else r.key

/-- A full-line write stamped before request `id` to the same line that has found no place yet (R50). -/
def Mod.fullAhead (m : Mod) (lineNo id : Nat) : Bool :=
  m.host.reqs.any (fun x => x.op = .write && x.answer.isNone && x.key.isSome && !x.free && x.line = lineNo && x.id < id)
/-- Partial writes that still wait for an entry and were stamped before full-line write `id` lay nothing over it (R50, R103).
Log entry 44 (DEDUCED). -/
def Mod.supersede (m : Mod) (lineNo id : Nat) : Mod :=
  let p := fun (x : Req) => x.op = .ptl && x.line = lineNo && x.id < id && m.hop.mwait.contains x.id
  let l := lmod p (fun x => { x with mask := 0, wpoison := false }) m.host.reqs
  { m with host := { m.host with reqs := l } }

/-- Place a stamped full-line write; it waits while it finds no place, and behind an earlier one to its line. -/
def Mod.placeWrite (m : Mod) (r : Req) : Mod :=
  match m.reqKey r with
  | none => m
  | some k =>
    if m.fullAhead r.line r.id then m.setReq r.id (fun x => { x with step := 5 })
    else
    let cell := m.seal r.region r.line k r.data
    match m.place (r.line / 64) (r.line % 64) cell (!r.demoted && (r.cls = .tight || r.cls = .pinned)) (m.tagged r.region) with
    | none => m.setReq r.id (fun x => { x with step := 5 })
    | some m =>
      let m := m.remark r.line r.wpoison
      let (n, m) := m.mirror r.region r.line k.gen cell.ct r.wpoison (r.mirror = 1) (m.tagged r.region) none (some r.id)
      ((m.dropMerge r.line n).supersede r.line r.id).ackWrite r n

def Mod.serveWrite (m : Mod) (r : Req) : Mod :=
  let m := m.happen (if (match m.wayOf (r.line / 64) with | some f => !(m.frame f).f | none => false) then 0x06 else 0x07) 1
  match m.discardWhy r with
  | some w => m.discardWrite r w
  | none => m.placeWrite r

/-- Rank of a waiting write: Tight and Tight-Pinned, Standard, then Bulk and demoted ones (R75, R117). -/
def Req.rank (r : Req) : Nat := if r.demoted then 2 else match r.cls with | .tight | .pinned => 0 | .standard => 1 | .bulk => 2
def byRank (l : List Req) : List Req := l.filter (fun r => r.rank = 0) ++ l.filter (fun r => r.rank = 1) ++ l.filter (fun r => r.rank = 2)
/-- Writes that found no place try again when an entry is free, by rank and in stamp order (R75, R117). -/
def Mod.retryWrites (m : Mod) : Mod :=
  (byRank (m.host.reqs.filter (fun r => r.op = .write && r.answer.isNone && r.key.isSome && !r.free))).foldl (fun m r => m.placeWrite r) m

/-! ### Partial writes -/

/-- Bring media lines of a codeword into the page's frame (R97): its way, a replaceable way, or for a partial write a
spill frame. A read that finds no frame passes through a TRANSIT frame, which is never mapped. -/
def Mod.fillLines (m : Mod) (page : Nat) (cells : List (Nat × Cell)) (tagged need : Bool) : Mod :=
  let go := fun (m : Mod) (f : Nat) => cells.foldl (fun m c => match m.findLine page c.1 with
    | some g => m.fillLine f c.1 { m.cellAt g c.1 with flip := 0 } ((m.frame g).dirtyAll.getLsbD c.1) tagged
    | none => m.fillLine f c.1 c.2 false tagged) m
  match m.wayOf page with
  | some f => go m f
  | none =>
    let e := m.entry page
    if enForm e = 2 then go m (enSpill e)
    else match m.pickWay page tagged with
      | some f => go (m.allocWay f page) f
      | none =>
        match m.pickSpill false with
        | some f =>
          if need then go (((m.setFrame f (fun _ => { v := true, f := true, page, saved := m.mediaLoc page })).setEntry page
              (mkSpill f)).happen 0x0D 1) f
          else go (m.setFrame f (fun _ => { v := true, transit := true, page })) f
        | none => m
/-- The forwarding from a page's TRANSIT frame completes: the frame is free (R97). -/
def Mod.transitEnd (m : Mod) (page : Nat) : Mod :=
  { m with hop := { m.hop with frames := tmap {} (fun f => if f.transit && f.page = page then {} else f) m.hop.frames } }

/-- Change the open entry of a line. -/
def Mod.modMerge (m : Mod) (lineNo : Nat) (f : Mbe → Mbe) : Mod :=
  { m with hop := { m.hop with merge := lmod (fun e => e.lineNo = lineNo) f m.hop.merge } }

/-- Lay a partial write into its line's open entry and acknowledge it (R103). A Sync write to a resident line goes out as
a PART record; one to a line that had to be fetched waits for the LINE record after the merge (R223). -/
def Mod.mergeIn (m : Mod) (r : Req) (res : Bool) : Mod :=
  let late : Bool := r.mirror = 1 && !res
  let now := m.time.dtc
  let m := m.modMerge r.line (fun e =>
    { e with mask := e.mask ||| r.mask, data := overlay r.mask e.data r.data, acked := true,
             waiting := e.waiting.filter (· != r.id), owe := if late then e.owe ++ [r.id] else e.owe,
             ackAt := if e.acked then e.ackAt else now })
  if late then m
  else if r.mirror = 1 then
    let (n, m) := m.mirror r.region r.line ((r.key.map (·.gen)).getD 0) 0 false true false (some (r.mask, r.data)) (some r.id)
    m.ackWrite r n
  else m.ackWrite r none

/-- A Lagged merge's record: its lag counts from the entry's first acknowledgement (R223). -/
def Mod.mirrorLagged (m : Mod) (e : Mbe) (gen : Nat) (ct : Line) (tagged : Bool) : Mod :=
  let n0 := m.twin.txmsn
  let m := (m.mirror e.region e.lineNo gen ct false false tagged none none).2
  { m with twin := { m.twin with recs := lmod (fun r => n0 < r.msn) (fun r => { r with ackedAt := some e.ackAt }) m.twin.recs } }

/-- The key an open entry completes under: the line's key now, or a slot cleared and still lingering (R24). -/
def Mod.mergeKey (m : Mod) (e : Mbe) : Option KeyUse :=
  match m.keyFor e.region e.lineNo with
  | some k => some k
  | none => (m.cry.linger.find? (fun x => x.1 = e.region)).map (fun x => slotUse x.2.2 (m.crec e.region).gen)

/-- Complete an open entry from the line in the hopper (R103, R104). -/
def Mod.completeMerge (m : Mod) (e : Mbe) : Mod :=
  let drop := fun (m : Mod) => { m with hop := { m.hop with merge := m.hop.merge.filter (fun x => x.lineNo != e.lineNo) } }
  let settle := fun (m : Mod) (n : Option Nat) =>
    (m.host.reqs.filter (fun r => e.owe.contains r.id)).foldl (fun m r => m.ackWrite r n) m
  let tg := m.tagged e.region
  match m.findLine (e.lineNo / 64) (e.lineNo % 64), m.mergeKey e with
  | some f, some k =>
    let c := m.cellAt f (e.lineNo % 64)
    if m.poisoned e.lineNo then settle (drop m) none
    else if tagOk tg k e.lineNo c then
      let cell := m.seal e.region e.lineNo k (overlay e.mask (decCell k e.lineNo c) e.data)
      match (drop m).place (e.lineNo / 64) (e.lineNo % 64) cell e.tight tg with
      | none => m
      | some m' =>
        if !e.owe.isEmpty then
          let r := m'.mirror e.region e.lineNo k.gen cell.ct false true tg none e.owe.head?
          settle r.2 r.1
        else if e.msn != 0 || e.mirror != 2 then m'
        else m'.mirrorLagged e k.gen cell.ct tg
    else settle (drop (m.tagFail e.region e.lineNo)) none
  | _, _ => m

/-- The line of an entry that owes answers is there: it completes at once. -/
def Mod.mergeOwed (m : Mod) (lineNo : Nat) : Mod :=
  match m.hop.merge.find? (fun e => e.lineNo = lineNo) with
  | some e => if e.owe.isEmpty then m else m.completeMerge e
  | none => m

def shareOf (tagged : Bool) : Share := if tagged then .tag else .host

/-- Bring the line of an opened entry: what is held in a spill frame or reads as zeros is valid at once, the rest is
fetched. -/
def Mod.fetchLine (m : Mod) (r : Req) (book : Option Nat) : Mod :=
  let page := r.line / 64
  let tg := m.tagged r.region
  let m := (m.happen (if m.mcHit page then 0x08 else 0x09) 1).mcTouch page
  if (m.findLine page (r.line % 64)).isSome then (m.mergeIn r false).mergeOwed r.line
  else if m.entryBad page r.region then m.setReq r.id (fun x => { x with step := 4 })
  else if m.mediaLoc page = 0 then
    match m.reqKey r with
    | none => m
    | some k => ((m.fillLines page [(r.line % 64, m.seal r.region r.line k 0)] tg true).mergeIn r false).mergeOwed r.line
  else if m.per.evac.isSome then m
  else
    let loc := m.mediaLoc page
    (m.mread (.req r.id) page (r.line % 64 / 4) loc (book.map (fun t => ((rSetB (m.rw0 r.region)).toNat, t))) r.stamp).setReq r.id
      (fun x => { x with step := 6 })

/-- A partial write that waits for an entry, once. -/
def Mod.ptlWait (m : Mod) (r : Req) : Mod :=
  let l := if m.hop.mwait.contains r.id then m.hop.mwait else m.hop.mwait ++ [r.id]
  { m with hop := { m.hop with mwait := l } }.setReq r.id (fun x => { x with step := 9 })

/-- Open an entry for a partial write, merge it into the line's open entry, or let it wait for one (R102, R103). -/
def Mod.openMerge (m : Mod) (r : Req) (book : Option Nat) : Mod :=
  let sh := shareOf (m.tagged r.region)
  match m.hop.merge.find? (fun e => e.lineNo = r.line) with
  | some e =>
    let m := { m with hop := { m.hop with mwait := m.hop.mwait.filter (· != r.id) } }
    if e.waiting.isEmpty then m.mergeIn r true
    else (m.modMerge r.line (fun x => { x with waiting := x.waiting ++ [r.id] })).setReq r.id (fun x => { x with step := 9 })
  | none =>
    if shareUse m sh < m.shareCap sh then
      let e : Mbe := { share := sh, lineNo := r.line, region := r.region, mask := 0, data := 0, wpoison := false, acked := false,
                       waiting := [r.id], tight := !r.demoted && (r.cls = .tight || r.cls = .pinned), stamp := r.stamp,
                       fore := none, msn := 0, mirror := r.mirror }
      let m := { m with hop := { m.hop with merge := m.hop.merge ++ [e], mwait := m.hop.mwait.filter (· != r.id) } }
      if m.resident r.line then m.mergeIn r true else m.fetchLine r book
    else m.ptlWait r
/-- A partial write takes effect once no full-line write stamped before it waits (R50): a poisoned one marks its line, and a marked line
takes no bytes (R54). -/
def Mod.ptlGo (m : Mod) (r : Req) (book : Option Nat) : Mod :=
  if m.fullAhead r.line r.id then m.ptlWait r
  else
    let m := if r.wpoison then m.mark r.line true else m
    if m.poisoned r.line then
      ({ m with hop := { m.hop with mwait := m.hop.mwait.filter (· != r.id) } }).ackWrite r none
    else m.openMerge r book

def Mod.servePtl (m : Mod) (r : Req) (book : Option Nat) : Mod :=
  let m := m.happen (if (match m.wayOf (r.line / 64) with | some f => !(m.frame f).f | none => false) then 0x06 else 0x07) 1
  match m.discardWhy r with
  | some w => m.discardWrite r w
  | none => m.ptlGo r book

/-- Waiting partial writes take freed entries: Tight ones first, then stamp order (R103). -/
def Mod.retryMerges (m : Mod) : Mod :=
  let ws := m.host.reqs.filter (fun r => m.hop.mwait.contains r.id)
  let t := fun (r : Req) => !r.demoted && (r.cls = .tight || r.cls = .pinned)
  (ws.filter t ++ ws.filter (fun r => !t r)).foldl (fun m r => m.ptlGo r none) m

/-! ### Media reads -/

/-- What a line came to: its stored cell, zeros, or nothing that can be read. -/
inductive Got where
  | cell (c : Cell)
  | zero
  | bad
  deriving DecidableEq, Repr

/-- The codeword's four lines as the read came to them: its own codeword as decoded, or rebuilt from the stripe (R125, R139). A line's
integrity tag comes with it: the tag codeword is part of the same stripe read (R335). -/
def Mod.codeword (m : Mod) (r : MRead) : List (Nat × Cell) :=
  let v := m.mergeStripe r.loc r.cw r.got
  (List.range 4).map (fun i =>
    let c := m.mediaCell r.loc (4 * r.cw + i)
    (4 * r.cw + i, match v with | some w => if c.zero then c else { c with ct := cwLine w i } | none => c))
def MRead.tagDie (r : MRead) : Nat := ((dataDies (enBlk r.loc)).getLast?).getD 9
def MRead.decoded (r : MRead) : Nat := (List.range 10).countP (fun x => r.got.getLsbD x)
/-- The read has what it needs: any eight; or, not booked, its target, with the tag codeword of a tagged block (R139, R140, R335).
Log entry 41 (DEDUCED). -/
def MRead.complete (tagged : Bool) (r : MRead) : Bool :=
  8 ≤ r.decoded || (r.book.isNone && r.got.getLsbD (enCh r.loc) && (!tagged || r.got.getLsbD r.tagDie))
/-- A read that is not booked rebuilds: a codeword it needs did not decode, is on a failed die, or on a busy one that the read does not
wait for (R140–R142). -/
def Mod.rebuilds (m : Mod) (tagged : Bool) (r : MRead) : Bool :=
  let away := fun (x : Nat) => !r.got.getLsbD x && (m.dieGone (enSg r.loc) x || (m.dieBusy (dieOf (enSg r.loc) x) && !r.soft))
  r.rebuild || away (enCh r.loc) || (tagged && away r.tagDie)
/-- Does the read want the codeword at channel index `x` now? None of a busy die. -/
def Mod.wants (m : Mod) (tagged : Bool) (r : MRead) (x : Nat) : Bool :=
  !r.got.getLsbD x && !r.bad.getLsbD x && !m.dieGone (enSg r.loc) x && !m.dieBusy (dieOf (enSg r.loc) x) &&
    (r.book.isSome || m.rebuilds tagged r || x = enCh r.loc || (tagged && x = r.tagDie))
/-- Codewords that cannot be had: on failed dies or uncorrectable. Three or more lose the stripe (R142, R143). -/
def Mod.stripeLost (m : Mod) (r : MRead) : Bool :=
  3 ≤ (List.range 10).countP (fun x => r.bad.getLsbD x || m.dieGone (enSg r.loc) x)

def Mod.dropRead (m : Mod) (id : Nat) : Mod := { m with med := { m.med with reads := m.med.reads.filter (fun r => r.id != id) } }

/-- The region of a page, by its granule. -/
def Mod.regionOfPage (m : Mod) (page : Nat) : Nat := (m.regionOf (granOfPage page)).getD 0

/-- Partial writes that waited for a line that is now valid are merged in stamp order (R103). -/
def Mod.lineArrived (m : Mod) (lineNo : Nat) : Mod :=
  let w := (m.hop.merge.filter (fun e => e.lineNo = lineNo)).flatMap (·.waiting)
  ((m.host.reqs.filter (fun r => w.contains r.id)).foldl (fun m r => m.mergeIn r false) m).mergeOwed lineNo

/-- Change a read. -/
def Mod.setRead (m : Mod) (r : MRead) : Mod := { m with med := { m.med with reads := lmod (fun q => q.id = r.id) (fun _ => r) m.med.reads } }
/-- The read has been served. A booked one stays until every transfer at its T has been made (R139). -/
def Mod.readServed (m : Mod) (r : MRead) : Mod :=
  if r.book.isSome && (List.range 10).any (fun x => m.wants false r x) then m.setRead { r with done := true } else m.dropRead r.id

/-- Data decoded: fill the hopper and answer a host request (R97). What another asker wanted is handed on. -/
def Mod.readDone (m : Mod) (r : MRead) : Mod × List (Asker × Nat × Got) :=
  let m := m.readServed r
  let reg := m.regionOfPage r.page
  let cells := m.codeword r
  let cell := fun (j : Nat) => ((cells.find? (fun e => e.1 = j)).map (·.2)).getD {}
  let rq : Option Req := match r.who with | .req id => m.reqById id | _ => none
  let need : Bool := (match rq with | some q => q.op = .ptl | none => false) ||
    m.hop.merge.any (fun e => e.lineNo / 64 = r.page && e.lineNo % 64 / 4 = r.cw)
  let mover : Bool := match r.who with | .mover _ _ => true | _ => false
  let m := if m.mediaLoc r.page = r.loc && !m.hop.badMap.contains r.page && !mover then m.fillLines r.page cells (m.tagged reg) need else m
  let m := (List.range 4).foldl (fun m i => m.lineArrived (r.page * 64 + 4 * r.cw + i)) m
  match r.who, rq with
  | .req _, some q =>
    if q.op = .read then ((m.answerCell q (q.cell.getD (cell (q.line % 64)))).transitEnd r.page, [])
    else (m.transitEnd r.page, [])
  | .req _, none => (m.transitEnd r.page, [])
  | w, _ => (m.transitEnd r.page, [(w, r.page, .cell (cell (4 * r.cw)))])

/-- Every codeword that could be had has been read and fewer than eight decoded: the lines are poisoned (R143). -/
def Mod.readLost (m : Mod) (r : MRead) : Mod × List (Asker × Nat × Got) :=
  let m := m.dropRead r.id
  let n := dieOf (enSg r.loc) (enCh r.loc)
  let m := m.faultRec (326 + n) (islMed (mcOf (enSg r.loc) (enCh r.loc))) 7 (r.page * 4096) (n + 256 * r.cw)
  let m := (List.range 4).foldl (fun m i => m.mark (r.page * 64 + 4 * r.cw + i) false) m
  let m := (m.host.reqs.filter (fun q => q.op = .ptl && q.answer.isNone && q.line / 64 = r.page && q.line % 64 / 4 = r.cw)).foldl
    (fun m q => (m.dropMerge q.line none)) m
  match r.who with
  | .req id => match m.reqById id with
    | some q => (if q.op = .read then m.respond q (some .poison) else m.ackWrite q none, [])
    | none => (m, [])
  | w => (m, [(w, r.page, .bad)])

/-- The earlier of two deadlines. -/
def soonest (a b : Option Nat) : Option Nat := match a, b with | some x, some y => some (min x y) | none, d => d | d, none => d
/-- Queue a stripe block for refresh (R143, R180), once. -/
def Mod.queueRefresh (m : Mod) (sg blk : Nat) (due : Option Nat) : Mod :=
  let hit := fun (q : Refresh) => decide (q.sg = sg) && decide (q.blk = blk)
  let l := if m.fb.refq.any hit then lmod hit (fun q => { q with due := soonest q.due due }) m.fb.refq
    else m.fb.refq ++ [{ sg, blk, due, overdue := false }]
  { m with fb := { m.fb with refq := l } }

/-- An uncorrectable codeword (R143, R144): counts of the channel and the die, and when. -/
def Mod.codewordBad (m : Mod) (sg blk x : Nat) : Mod :=
  let n := dieOf sg x
  let c := mcOf sg x
  (((m.bump (cMedUnc c)).bump (cDie n)).setDie n (fun d => { d with unc := d.unc + 1 })).setMch c
    (fun h => { h with uncAt := (h.uncAt.filter (fun e => m.time.dtc < e.1 + 1000000)) ++ [(m.time.dtc, n)] }) |>.queueRefresh sg blk none

/-- The projected waits, and the gate they close (R83). -/
def Mod.setWaits (m : Mod) (w : Waits) : Mod :=
  let m := { m with host := { m.host with wStdA := w.stdA, wStdB := w.stdB, wBulkA := w.bulkA, wBulkB := w.bulkB } }
  if m.waitHigh then { m with host := { m.host with gate := true } } else m

/-- One codeword transfer of a read (R128, R139–R143). -/
def Mod.transfer (m : Mod) (r : MRead) (x : Nat) (res : Decode1) : Mod × List (Asker × Nat × Got) :=
  let sg := enSg r.loc
  let n := dieOf sg x
  let tg := m.tagged (m.regionOfPage r.page)
  let m := (m.setMch (mcOf sg x) (fun h => { h with xfer := h.xfer + 1, txfer := h.txfer + r.book.isSome.toNat })).happen 0x0F 1
  match res with
  | .ok c =>
    let m := m.setDie n (fun d => { d with bits := d.bits + c.val })
    let r' := { r with got := r.got ||| (1#10 <<< x) }
    if r.done then (m.readServed r', [])
    else if r'.complete tg then
      let built := !(r'.got.getLsbD (enCh r.loc))
      let m := if built then (m.setMch (mcOf sg (enCh r.loc)) (fun h => { h with recon := h.recon + 1 })).happen 0x10 1 else m
      let m := if built && r.bad.getLsbD (enCh r.loc) then
        m.faultRec (326 + dieOf sg (enCh r.loc)) (islMed (mcOf sg (enCh r.loc))) 6 (r.page * 4096) (dieOf sg (enCh r.loc) + 256 * r.cw) else m
      (m.setRead r').readDone r'
    else (m.setRead r', [])
  | .uncorrectable =>
    let m := m.codewordBad sg (enBlk r.loc) x
    let need : Bool := x = enCh r.loc || (tg && x = r.tagDie)
    let r' := { r with bad := r.bad ||| (1#10 <<< x), rebuild := r.rebuild || need }
    if r.done then (m.readServed r', [])
    else if r.book.isNone && (m.setRead r').stripeLost r' then (m.setRead r').readLost r' else (m.setRead r', [])

/-- Fewer than eight decoded by T + 50 ns (R81): deadline poison, and the stripe is read again on the Standard path, from all ten dies. -/
def Mod.mergeShort (m : Mod) (r : MRead) : Mod × List (Asker × Nat × Got) :=
  let r' : MRead := { r with book := none, rebuild := true, got := 0, bad := 0 }
  let m := m.setRead r'
  let m : Mod := match r.who with
    | .req id => (match m.reqById id with
      | some q => if q.op = ReqOp.read then m.poisonReq { q with step := 8 } else m.setReq id (fun x => { x with step := 8 })
      | none => m)
    | _ => m
  if m.stripeLost r' then m.readLost r' else (m, [])

/-! ### Uncorrectable hopper lines (R114) -/

def Mod.hopFault (m : Mod) (f lineNo held : Nat) : Mod :=
  let c := m.chanOf f
  let now := m.time.dtc
  ((m.bump (cHopUnc c)).setHch c (fun h => { h with uncAt := (h.uncAt.filter (fun t => now < t + 1000000)) ++ [now] })).faultRec
    (293 + c / 9) islHop 3 (lineNo * 64) (c + 256 * held)

/-- Lanes of a line in error: those inverted when it was written and those found now (R111, R113). -/
def laneCount (l : BitVec 16) : Nat := (List.range 16).countP (fun i => l.getLsbD i)
/-- The other copy of a Tight-Pinned line. -/
def Mod.otherCopy (m : Mod) (f lineNo : Nat) : Option Nat :=
  (m.waysOf (lineNo / 64)).find? (fun g => g != f && (m.frame g).valid.getLsbD (lineNo % 64))

/-- A corrected line: counted, its lane noted, queued for rewrite (R111). -/
def Mod.corrected (m : Mod) (f j : Nat) (lanes : BitVec 16) : Mod :=
  m.setHch (m.chanOf f) (fun h => { h with corr := h.corr + 1, lanes := h.lanes ||| lanes,
                                           rewriteQ := if h.rewriteQ.length < 32 then h.rewriteQ ++ [(f, j)] else h.rewriteQ })

/-- An uncorrectable line by what it holds: the cell of the other copy, or none. -/
def Mod.lineBad (m : Mod) (f lineNo : Nat) : Option Cell × Mod :=
  let j := lineNo % 64
  let x := m.frame f
  match (if x.p then (m.otherCopy f lineNo).filter (fun g => laneCount (m.cellAt g j).flip < 2) else none) with
  | some g =>
    let c : Cell := { m.cellAt g j with flip := 0 }
    (some c, (m.hopFault f lineNo 2).rewriteLine f j c)
  | none =>
    if x.dirtyAll.getLsbD j then (none, (m.hopFault f lineNo 1).mark lineNo false)
    else
      let m := m.hopFault f lineNo 0
      if x.d then
        (none, m.setFrame f (fun y => { y with valid := mclr y.valid j, f := true, lines := tput {} y.lines j {} }))
      else
        let m := if isSpill f && m.entry x.page = mkSpill f then m.setEntry x.page x.saved else m
        (none, m.setFrame f (fun _ => {}))

/-- A line read at a frame: its cell with what the line code did (R111, R114). -/
def Mod.readLine (m : Mod) (f lineNo : Nat) (cell : Cell) (cached : Bool) (lanes : BitVec 16) : Option Cell × Mod :=
  let e := cell.flip ||| lanes
  if cached || laneCount e = 0 then (some { cell with flip := 0 }, m)
  else if laneCount e = 1 then (some { cell with flip := 0 }, m.corrected f (lineNo % 64) e)
  else m.lineBad f lineNo

/-- A host read's access completes. A clean line that could not be read leaves the request to its deadline (R114). -/
def Mod.answerAccess (m : Mod) (r : Req) (a : Access) (c : Option Cell) : Mod :=
  match c with
  | some cell =>
    match r.key, m.otherCopy a.frame a.lineNo with
    | some k, some g =>
      if !(m.frame a.frame).p || tagOk (m.tagged r.region) k r.line cell then m.answerCell r cell
      else ((m.bump (cTagf r.region)).secRec r.region 1 (r.line * 64)).respond r (some (.data (r.plain k (m.cellAt g (r.line % 64)))))
    | _, _ => m.answerCell r cell
  | none => if m.poisoned r.line then m.respond r (some .poison) else m.setReq r.id (fun x => { x with step := 5 })

end Sys2Proof.Machine
end

