-- ==== Sys2Proof/Machine/Media.lean ====
section
/-!
DEFINITION. What the medium and its upkeep do (R105, R106, R131–R145, R146–R167): choosing frames to clean, rows that
verify or fail, the journal and checkpoints, block states and resets, retirement and replacement, the movers, discards,
die and channel failures.
-/

namespace Sys2Proof.Machine

/-! ### Die and channel failures -/

/-- A die fails: its source's level, and a record; what it was doing ends (R144). -/
def Mod.dieFail (m : Mod) (n why : Nat) : Mod :=
  if m.dieFailed n then m
  else (m.setDie n (fun d => { d with failed := true, op := none })).faultRec (326 + n) (islMed (n / 10)) 10 n why
/-- A group that lost its third die: every stripe of it is lost, and the lines of its mapped pages that the hopper does not hold are marked
poisoned (R142). Log entry 101 (DEDUCED). -/
def Mod.groupLost (m : Mod) (g : Nat) : Mod :=
  (m.hop.map.filter (fun e => enForm (m.mediaLoc e.1) = 1 && enSg (m.mediaLoc e.1) = g)).foldl (fun m e =>
    (List.range 64).foldl (fun m j => if (m.findLine e.1 j).isSome then m else m.mark (e.1 * 64 + j) false) m) m
def Mod.mediaChanFail (m : Mod) (c why : Nat) : Mod :=
  if (m.mch c).failed then m
  else
    let m := (m.setMch c (fun h => { h with failed := true, fenced := true })).faultRec (273 + c) (islMed c) 11 c why
    (List.range 10).foldl (fun m d => m.dieFail (10 * c + d) 2) m

/-! ### Blocks -/

/-- Pages whose media location lies in a stripe block, with the location (R146). -/
def Mod.validPages (m : Mod) (sg blk : Nat) : List (Nat × Nat) :=
  m.hop.map.filterMap (fun e =>
    let l := if enForm e.2 = 2 then (m.frame (enSpill e.2)).saved else e.2
    if enForm l = 1 && enSg l = sg && enBlk l = blk then some (e.1, l) else none)

/-- A block takes no further rows: an Open one becomes Full with the FAILED flag and is due for its index (R147, R157). -/
def Mod.closeBlk (m : Mod) (k : Nat) (bad : Bool) : Mod :=
  m.setBlk k (fun b =>
    if b.st = .opened then { b with st := .full, wr := none, failedFlag := b.failedFlag || bad, idxDue := true }
    else if b.st = .metadata then { b with nextWl := 10240, failedFlag := b.failedFlag || bad } else b)
/-- Retire a die-block; its block takes no further rows (R162). -/
def Mod.retire (m : Mod) (sg blk x : Nat) : Mod :=
  if (m.blk (bkey sg blk)).retired.getLsbD x then m
  else
    let m := ((m.closeBlk (bkey sg blk) true).setBlk (bkey sg blk) (fun b => { b with retired := b.retired ||| (1#10 <<< x) })).bump cRet
    { m with upk := { m.upk with retSg := tmod 0 m.upk.retSg sg (· + 1) } }

/-- A block leaves the pool; the day is kept for UPK_RMDAYS (R164). -/
def Mod.noteLoss (m : Mod) : Mod :=
  { m with upk := { m.upk with losses := m.upk.losses ++ [m.time.dtc / 86400000000000] } }

/-- A good die-block at index `x` from a Donor of the group: the donor's block key (R149). -/
def Mod.donorOf (m : Mod) (sg x : Nat) : Option Nat :=
  (m.upk.blks.find? (fun e => e.1 / 16384 = sg && e.2.st = .donor && !e.2.retired.getLsbD x)).map (·.1)

/-- Take the donor's die-block: a donor with none left is Dead. -/
def Mod.takeDonor (m : Mod) (d x : Nat) : Mod :=
  m.setBlk d (fun b =>
    let r := b.retired ||| (1#10 <<< x)
    { b with retired := r, st := if r = 0x3FF#10 then .dead else .donor })

/-- The remap table of a die (R149): the physical die-block of an index, the identity where nothing is listed (entries are stored plus
one). -/
def Mod.phys (m : Mod) (n b : Nat) : Nat := match tget 0 m.upk.remap (n * 16384 + b) with | 0 => b | v + 1 => v
def Mod.setPhys (m : Mod) (n b p : Nat) : Mod :=
  { m with upk := { m.upk with remap := tput 0 m.upk.remap (n * 16384 + b) (if p = b then 0 else p + 1) } }
/-- Replace the retired die-blocks of a block that is being reset (R149): the donor's die-block takes its index, with its own cycle count
and marks, and is to be reset too. A root area never becomes a Donor. -/
def Mod.replaceOne (m : Mod) (k x : Nat) : Mod :=
  if !(m.blk k).retired.getLsbD x || (m.blk k).st = .donor then m
  else
    let put := fun (m : Mod) (d : Nat) =>
      let n := dieOf (k / 16384) x
      let a := m.phys n (k % 16384)
      let b := m.phys n (d % 16384)
      let old := m.blk d
      (((m.takeDonor d x).setPhys n (k % 16384) b).setPhys n (d % 16384) a).setBlk k (fun y =>
        { y with retired := y.retired &&& ~~~ (1#10 <<< x), cyc := tput 0 y.cyc x (tget 0 old.cyc x), resetDone := y.resetDone &&& ~~~ (1#10 <<< x),
                 fragile := y.fragile &&& ~~~ (1#10 <<< x), fragRun := tput 0 y.fragRun x (tget 0 old.fragRun x) })
    match m.donorOf (k / 16384) x with
    | some d => put m d
    | none => match m.pickFree (k / 16384) true with
      | some n => put ((m.setBlk (bkey (k / 16384) n) (fun b => { b with st := .donor })).noteLoss) (bkey (k / 16384) n)
      | none => if (m.blk k).wr = some .root then m else (m.setBlk k (fun b => { b with st := .donor, wr := none })).noteLoss
def Mod.replaceAll (m : Mod) (k : Nat) : Mod := (List.range 10).foldl (fun m x => m.replaceOne k x) m

/-- Pending blocks begin their resets while the group's busy limit allows (R127, R147). -/
def Mod.startResets (m : Mod) : Mod :=
  (m.upk.blks.filter (fun e => e.2.st = .pendingReset)).foldl (fun m e =>
    let g := e.1 / 16384
    if m.sgBusy g < m.busyLimit g && !(m.sgWork g).any (fun w => w.2.1) then
      (m.setBlk e.1 (fun b => { b with st := .resetting })).replaceAll e.1
    else m) m

/-! ### Die operations (R126, R127) -/

/-- Start one program unit or die-block reset if it may start now: its die is idle, neither failed nor holding a Tight codeword, and the
group's busy dies are below the limit; of Evacuate's term, work already begun is free (R127, R197). -/
def Mod.startOne (g : Nat) (m : Mod) (e : Nat × Bool × Nat) : Mod :=
  let n := dieOf g e.1
  let on : Bool := m.begun e.2.1 e.2.2 || (if e.2.1 then (m.blk e.2.2).resetDone != 0 else m.med.rows.any (fun r => r.id = e.2.2 && r.verified != 0))
  let lim := if on then min (bits (m.w 0 0x50100) 1 0) (2 - m.sgFailed g) else m.busyLimit g
  if (m.die n).op.isSome || m.dieFailed n || m.dieHeld n || lim ≤ m.sgBusy g then m
  else m.setDie n (fun d => { d with op := some { reset := e.2.1, key := e.2.2, at_ := m.time.dtc } })
/-- Every group with work starts what it may. Log entry 123 (DESIGN CHOICE). -/
def Mod.startOps (m : Mod) : Mod :=
  let gs := (m.med.rows.map Row.sg ++ (m.upk.blks.filter (fun (e : Nat × Blk) => e.2.st = BlkSt.resetting)).map (fun (e : Nat × Blk) => e.1 / 16384)).eraseDups
  gs.foldl (fun m g => (m.sgWork g).foldl (Mod.startOne g) m) m
/-- The die's operation has ended. -/
def Mod.opEnd (m : Mod) (n : Nat) : Mod := m.setDie n (fun d => { d with op := none })

/-- All ten die-blocks reset and good, failed dies left out: Free (R147). -/
def Mod.resetEnd (m : Mod) (k : Nat) : Mod :=
  let b := m.blk k
  if b.st = .resetting && (List.range 10).all (fun x => b.resetDone.getLsbD x || m.dieGone (k / 16384) x) then
    let m := m.replaceAll k
    let b := m.blk k
    if b.st = .resetting && (List.range 10).all (fun x => b.resetDone.getLsbD x || m.dieGone (k / 16384) x) then
      let root : Bool := b.wr = some .root
      m.setBlk k (fun b =>
        { st := if root then .metadata else .free, wr := if root then some .root else none, cyc := b.cyc, lastReset := m.time.dtc,
          retired := b.retired, lastVisit := 0, fragRun := b.fragRun.filter (fun e => b.fragile.getLsbD e.1) })
    else m
  else m

/-- Endurance levels first reached (R163). -/
def Mod.endurCheck (m : Mod) : Mod :=
  let l := endurLevel m.endurUsed
  if m.upk.level < l then
    (({ m with upk := { m.upk with level := l } }).bump cEndur).allLdRec 0 2 l
  else m

/-! ### The journal's effects -/

/-- Is a page's record not yet durable? -/
def Mod.undurable (m : Mod) (page : Nat) : Bool :=
  m.med.staged.any (fun e => e.1.page = page) || m.med.jopen.any (fun p => p.recs.any (fun r => r.page = page))

/-- Both copies of journal page `seq` verified (R135). -/
def Mod.journalDurable (m : Mod) (seq : Nat) : Mod :=
  match m.med.jopen.find? (fun p => p.seq = seq) with
  | none => m
  | some p =>
    let open_ := m.med.jopen.filter (fun q => q.seq != seq)
    let dur := match open_.head? with | some q => q.seq - 1 | none => m.med.jnext - 1
    { m with med := { m.med with jopen := open_, jpages := m.med.jpages ++ [{ p with durAt := m.time.dtc }], jdur := dur } }

/-! ### Checkpoints -/

/-- Take `n` Free blocks for a checkpoint image, each from the set with more Free blocks, A on a tie, in the group of R155 (R136, R150). The
spec names no order. Log entry 42 (DESIGN CHOICE). -/
def Mod.takeBlks : Nat → Mod → List Nat → List Nat × Mod
  | 0, m, l => (l, m)
  | n + 1, m, l =>
    let more : Bool := m.setFree false < m.setFree true
    let b : Bool := if m.tierOk .ckpt more then more else !more
    match (if m.tierOk .ckpt b then m.pickGroup b else none) with
    | none => (l, m)
    | some g => match m.pickFree g false with
      | none => (l, m)
      | some x => Mod.takeBlks n (m.setBlk (bkey g x) (fun y => { y with st := .metadata, wr := some .ckpt, nextWl := 0 })) (l ++ [bkey g x])

def rootBlk (s : Nat) : Nat := if s % 2 = 0 then 0 else bkey 10 0

/-- The map as a checkpoint holds it: media locations only (R136). -/
def Mod.mapImage (m : Mod) : Tbl Nat := m.hop.map.filterMap (fun e =>
  let l := m.mediaLoc e.1
  if l = 0 then none else some (e.1, l))

/-- Write a root record into its root area (R137). -/
def Mod.writeRoot (m : Mod) (s : Nat) : Mod :=
  let k := rootBlk s
  let b := m.blk k
  let r : Row := { id := m.med.nextId, wr := .root, setB := s % 2 = 1, sg := k / 16384, blk := k % 16384, wl := b.nextWl, tagged := false,
                   pages := [], started := true, since := m.time.dtc, verified := 0, seq := s }
  let m := m.setBlk k (fun x => { x with st := .metadata, wr := some .root, nextWl := x.nextWl + 1 })
  { m with med := { m.med with rows := m.med.rows ++ [r], nextId := m.med.nextId + 1 } }

/-- Rows of a checkpoint's image: 320 blocks of 512. -/
def ckRows : Nat := 163840
/-- The next row of the image in progress: row `done` of its blocks in order (R136). -/
def Mod.ckRow (m : Mod) : Mod :=
  match m.med.ckRun with
  | none => m
  | some run =>
    if run.done < ckRows && !m.med.rows.any (fun r => r.wr = .ckpt && !r.dead) then
      let k := (run.blks[run.done / 512]?).getD 0
      let wl := run.done % 512
      let r : Row := { id := m.med.nextId, wr := .ckpt, setB := decide (10 ≤ k / 16384), sg := k / 16384, blk := k % 16384, wl, tagged := false,
                       pages := [], started := true, since := m.time.dtc, verified := 0, skip := m.goneMask (k / 16384), seq := run.done }
      let m := m.setBlk k (fun x => { x with nextWl := wl + 1 })
      { m with med := { m.med with rows := m.med.rows ++ [r], nextId := m.med.nextId + 1 } }
    else m

/-- Start checkpoint `s` (R136): its image takes 320 blocks; where 320 cannot be had it does not start. -/
def Mod.ckStart (m : Mod) : Mod :=
  if m.med.ckRun.isSome then m
  else
    let s := (match m.med.ckpts.getLast? with | some c => c.seq | none => 0) + 1
    let t := Mod.takeBlks 320 m []
    if t.1.length < 320 then m
    else
      let run : CkptRun := { seq := s, start := m.med.jnext, since := m.time.dtc, map := m.mapImage, blks := t.1 }
      ({ t.2 with med := { t.2.med with ckRun := some run } }).ckRow
/-- CKPT_JRNL or CKPT_AGE since the last checkpoint started has been reached (R136). -/
def Mod.ckDue (m : Mod) : Bool :=
  let w := m.w 0 0x5010C
  let c := m.med.ckpts.getLast?
  let from_ := match c with | some c => c.start | none => 1
  let at_ := match c with | some c => c.since | none => 0
  bits w 15 0 * 16384 ≤ m.med.jnext - from_ || at_ + bits w 31 16 * 60000000000 ≤ m.time.dtc

/-- The image's rows have all verified: the root is written, once its area has room; a full area is reset first (R137, R138). -/
def Mod.ckGo (m : Mod) : Mod :=
  match m.med.ckRun with
  | none => m
  | some run =>
    let k := rootBlk run.seq
    if run.done < ckRows || run.rooted then m
    else if (m.blk k).st != .metadata then m
    else if (m.blk k).nextWl < 10240 then ({ m with med := { m.med with ckRun := some { run with rooted := true } } }).writeRoot run.seq
    else m.setBlk k (fun b => { b with st := .pendingReset })
/-- A row of the image has verified. -/
def Mod.ckRowDone (m : Mod) : Mod :=
  match m.med.ckRun with
  | none => m
  | some run => ({ m with med := { m.med with ckRun := some { run with done := run.done + 1 } } }).ckRow
/-- A row of the image failed: its block is given up, and that part of the image is written again into another one (R132). -/
def Mod.ckRowBad (m : Mod) : Mod :=
  match m.med.ckRun with
  | none => m
  | some run =>
    let i := run.done / 512
    let old := (run.blks[i]?).getD 0
    let t := Mod.takeBlks 1 (m.setBlk old (fun b => { b with st := .pendingReset, wr := none })) []
    match t.1 with
    | k :: _ => ({ t.2 with med := { t.2.med with ckRun := some { run with done := 512 * i, blks := run.blks.set i k } } }).ckRow
    | [] => { t.2 with med := { t.2.med with ckRun := none } }
/-- A root record as it is written (R137): the checkpoint with the references of its blocks in image order. -/
def Ckpt.bytes (c : Ckpt) : List Byte :=
  let refs : List Byte := (List.range 320).flatMap (fun i => match c.blks[i]? with
    | some k => leBytes 4 (2 ^ 24 * (k / 16384) + 2 ^ 10 * (k % 16384)) | none => leBytes 4 0)
  let b : List Byte := leBytes 8 c.seq ++ leBytes 8 c.dtc ++ leBytes 8 c.start ++ leBytes 5 c.startLoc ++ leBytes 3 0 ++ refs ++
    List.replicate 2780 0
  b ++ leBytes 4 (crc32c (b ++ leBytes 4 0))
/-- Where a journal page lies (R134). -/
def Mod.jLoc (m : Mod) (seq : Nat) : Nat := match (m.med.jpages ++ m.med.jopen).find? (fun p => p.seq = seq) with
  | some p => p.loc | none => 0
/-- A journal page of which one copy is unreadable, at location `loc` and copy `c`, is written again at the journal head, and its die's source
is raised (R143, R185). -/
def Mod.rewriteJ (m : Mod) (seq c : Nat) : Mod :=
  match m.med.jpages.find? (fun p => p.seq = seq) with
  | none => m
  | some p =>
    let m' := (m.bump (cDie (dieOf (enSg p.loc) (enCh p.loc + c)))).writeMeta .journal seq
    match (if m'.med.nextId = m.med.nextId then none else m'.med.rows.getLast?) with
    | none => m'
    | some r => { m' with med := { m'.med with jpages := lmod (fun q => q.seq = seq) (fun q => { q with loc := r.metaLoc }) m'.med.jpages } }

/-- Entries of the reference tables among the plates; they become durable with a checkpoint, never before (R173). -/
def isDrf (k : Nat) : Bool := k % 0x200000 = 0x60184 / 4
/-- The plates `new` with the reference tables of `old`. -/
def keepTables (old new : Tbl Word) : Tbl Word :=
  (old.filter (fun e => isDrf e.1)).foldl (fun t e => pput t e.1 e.2) (new.filter (fun e => !isDrf e.1))
/-- Metadata of a durable checkpoint or metadata delta: what the medium then holds beside the map (R146, R252, R326, R470). -/
def Mod.saveMeta (m : Mod) : Mod :=
  { m with nv2 := { m.nv2 with poison := m.hop.poison, crec := m.cry.recs, twregs := m.twin.regs, msSaved := m.ms,
                               plates := keepTables m.nv2.plates
                                 (m.cfg.plates.filter (fun e => !(0xE0000 ≤ e.1 % 0x200000 && e.1 % 0x200000 < 0x100040))) },
           cry := { m.cry with pend := [] } }
/-- The reference tables of a complete checkpoint (R173). -/
def Mod.saveTables (m : Mod) : Mod := { m with nv2 := { m.nv2 with plates := keepTables m.cfg.plates m.nv2.plates } }

/-- Release metadata blocks. -/
def Mod.releaseBlks (m : Mod) (l : List Nat) : Mod :=
  l.foldl (fun m k => m.setBlk k (fun b => { b with st := .pendingReset, wr := none })) m

/-- Both root copies verified: checkpoint `s` is complete, what only `s − 2` needed is released (R137, R138). -/
def Mod.ckComplete (m : Mod) (s : Nat) : Mod :=
  match m.med.ckRun with
  | none => m
  | some run =>
    if run.seq = s then
      let c : Ckpt := { seq := s, dtc := m.time.dtc, since := run.since, start := run.start, startLoc := m.jLoc run.start, map := run.map,
                        blks := run.blks }
      let keep := (m.med.ckpts ++ [c]).filter (fun x => s ≤ x.seq + 1)
      let gone := m.med.ckpts.filter (fun x => x.seq + 1 < s)
      let from_ := match keep.head? with | some x => x.start | none => run.start
      let m := { m with med := { m.med with ckRun := none, ckpts := keep, ckLast := s,
                                            jpages := m.med.jpages.filter (fun p => from_ ≤ p.seq) } }
      let m := m.releaseBlks (gone.flatMap (·.blks))
      let old := m.upk.blks.filter (fun e => e.2.st = .metadata && e.2.wr = some .journal && 10240 ≤ e.2.nextWl && e.2.removedSeq < from_)
      ((m.releaseBlks (old.map (·.1))).saveMeta).saveTables
    else m

/-! ### Discards (R166, R167) -/

/-- Pages of a discard. -/
def Mod.dPages (m : Mod) (r first count : Nat) : Nat × Nat :=
  let w1 := m.rw1 r
  let lo := min first (regPages w1)
  (regPage0 w1 + lo, if count = 0 then regPages w1 - lo else min count (regPages w1 - lo))

/-- Drop every hopper copy of the pages a test selects, without cleaning (R166, R325). -/
def Mod.dropPages (m : Mod) (p : Nat → Bool) : Mod :=
  let fs := (m.hop.frames.filter (fun e => (e.2.v || e.2.detached) && p e.2.page)).map (·.1)
  let m := fs.foldl (fun m f =>
    let x := m.frame f
    let m := if isSpill f && m.entry x.page = mkSpill f then m.setEntry x.page x.saved else m
    m.setFrame f (fun y => if y.p || y.lpin then { v := true, p := y.p, lpin := y.lpin, dup := y.dup, page := y.page, f := true } else {})) m
  let rows := m.med.rows.map (fun r => if r.wr = .clean then { r with pages := r.pages.map (fun q => if p q.page then { q with frame := none, from_ := 1 } else q) } else r)
  { m with hop := { m.hop with pwq := m.hop.pwq.filter (fun e => !fs.contains e.frame), merge := m.hop.merge.filter (fun e => !p (e.lineNo / 64)) },
           med := { m.med with rows } }

/-- Host writes and partial writes of the pages that wait are completed: their data goes with the page (R166). -/
def Mod.endWrites (m : Mod) (p : Nat → Bool) : Mod :=
  let m := ((m.hop.merge.filter (fun e => p (e.lineNo / 64))).map (·.lineNo)).foldl (fun m l => m.dropMerge l none) m
  let ws := m.host.reqs.filter (fun r => r.op.isWrite && r.answer.isNone && !r.free && p (r.line / 64))
  let m := { m with hop := { m.hop with mwait := m.hop.mwait.filter (fun i => !ws.any (fun r => r.id = i)) } }
  ws.foldl (fun m r => m.ackWrite r none) m
/-- Unmap pages: what was stamped before is completed, the entries are journaled, the hopper copies dropped, the marks cleared (R166). -/
def Mod.unmapPages (m : Mod) (lo n kind : Nat) : Mod :=
  let isIn := fun (p : Nat) => decide (lo ≤ p) && decide (p < lo + n)
  let m := (m.endWrites isIn).dropPages isIn
  let m := ((m.hop.map.filter (fun e => isIn e.1)).map (·.1)).foldl (fun m p => m.remap p 0 kind) m
  ((m.hop.poison.filter (fun e => isIn e.1)).map (·.1)).foldl (fun m p => m.setPsn p {}) m

/-- A discard of a mirrored home region is one record of its stream; while the pair is broken its pages are listed (R222,
R228). The record's content is an open value. Log entry 74 (DEDUCED). -/
def Mod.mirrorDiscard (m : Mod) (r lo n : Nat) : Mod :=
  if (m.twr r).st = .broken || (m.twr r).st = .refused then
    (m.hop.map.filter (fun e => lo ≤ e.1 && e.1 < lo + n)).foldl (fun m e => m.addPage r e.1) m
  else if m.homeHere r then
    let d := m.draw
    (d.2.mirror r (lo * 64) (m.crec r).gen (Config.openLine d.1) false (rMirror (m.rw0 r) = 1) false none none).2
  else m

/-- Start a discard or secure discard at its boundary. It waits for the journal page of the last record (R166, R167). -/
def Mod.dStart (m : Mod) (kind r first count : Nat) : Mod :=
  let pg := if kind = 2 then m.dPages r 0 0 else m.dPages r first count
  let m := m.mirrorDiscard r pg.1 pg.2
  let m := m.unmapPages pg.1 pg.2 (if kind = 2 then 4 else 3)
  let last := if m.med.staged.isEmpty then m.med.jnext - 1 else m.med.jnext + (m.med.staged.length - 1) / 254
  let meta_ := (m.upk.blks.filter (fun e => e.2.st = .metadata && (e.2.wr = some .ckpt || e.2.wr = some .journal) && e.2.nextWl != 0)).map (·.1)
  let d : DCmd := { kind, region := r, phase := 2, since := m.time.dtc, jseq := last, stuck := false, ck := 0,
                    traces := if kind = 2 then meta_ else [] }
  { m with upk := { m.upk with dcmd := some d } }

/-- Stripe blocks that a secure discard must still reset (R167 phase 3). -/
def Mod.tainted (m : Mod) (d : DCmd) : List (Nat × Blk) :=
  m.upk.blks.filter (fun e => e.2.taint.contains d.region && e.2.lastReset < d.since && e.2.st != .metadata && e.2.st != .donor && e.2.st != .dead)

/-- A command has ended: UPK_DCMD reads 0. -/
def Mod.clearDcmd (m : Mod) : Mod :=
  let k := pkey 0 (0x600A0 / 4)
  { m with upk := { m.upk with dcmd := none }, cfg := { m.cfg with plates := pput m.cfg.plates k 0 },
           nv2 := { m.nv2 with plates := pput m.nv2.plates k 0 } }

/-- Change the command running. -/
def Mod.setD (m : Mod) (d : DCmd) : Mod := { m with upk := { m.upk with dcmd := some d } }
/-- Phase 4, from the end of phase 2 on: a checkpoint starts, and a second one when it is complete (R167). One that was running before
phase 2 ended is none of the two. -/
def Mod.dCheckpoint (m : Mod) (d : DCmd) : Mod :=
  if m.med.ckRun.isSome then m
  else if d.ck = 0 then
    let m := m.ckStart
    match m.med.ckRun with | some run => m.setD { d with ck := run.seq + 1 } | none => m
  else if m.med.ckLast + 1 = d.ck then m.ckStart else m
/-- Journal blocks from before the command take no further page, so that phase 5 can release them. -/
def Mod.dCloseJournal (m : Mod) (d : DCmd) : Mod :=
  d.traces.foldl (fun m k => m.setBlk k (fun b => if b.st = .metadata && b.wr = some .journal then { b with nextWl := 10240 } else b)) m
/-- Phase 5 begins: the root area that does not hold the newest root is released too. Log entry 103 (DEDUCED). -/
def Mod.dTraces (m : Mod) (d : DCmd) : Mod :=
  let k := rootBlk (m.med.ckLast + 1)
  if (m.blk k).nextWl = 0 then m.setD { d with phase := 5 }
  else (m.setBlk k (fun b => { b with st := .pendingReset })).setD { d with phase := 5, traces := d.traces ++ [k] }

/-- A command's next phase, when the one it is in has ended (R166, R167). -/
def Mod.dStep (m : Mod) : Mod :=
  match m.upk.dcmd with
  | none => m
  | some d =>
    let fin := fun (m : Mod) => (m.clearDcmd).bump cDdone
    if d.phase = 2 then
      if d.jseq ≤ m.med.jdur then (if d.kind = 1 then fin m else (m.dCloseJournal d).setD { d with phase := 3 }) else m
    else
      let m := if d.phase < 5 then m.dCheckpoint d else m
      let d := m.upk.dcmd.getD d
      match d.phase with
      | 3 =>
        let t := m.tainted d
        if t.any (fun e => m.sgHalted (e.1 / 16384)) then m.setD { d with stuck := true }
        else if t.isEmpty then m.setD { d with phase := 4, stuck := false } else m
      | 4 => if d.ck != 0 && d.ck ≤ m.med.ckLast then m.dTraces d else m
      | _ => if d.traces.all (fun k => d.since < (m.blk k).lastReset || (m.blk k).st = .donor || (m.blk k).st = .dead) then fin m else m

/-! ### Choosing frames to clean (R105) -/

def Mod.pct (m : Mod) (k : Nat) : Bool := m.dt * 100 ≥ k * m.budget
/-- HIGH tier whatever HOP_CLEAN says: DT above B (R193), a GPF that waits (R56). -/
def Mod.cleanHigh (m : Mod) : Bool := m.gpfHold || m.per.orderly.isSome || m.pwr.phase = 3 || (m.per.everBudget && m.budget < m.dt) || m.pct (bits (m.w 0 0x40104) 15 8)
/-- Age of a frame's last write in ms, over the wrap of its 32-bit stamp (R94, R105). -/
def Mod.ageMs (m : Mod) (f : Frame) : Nat := (m.time.dtc / 1000000 % 2 ^ 32 + 2 ^ 32 - f.lastMs) % 2 ^ 32
def Mod.ripe (m : Mod) (f : Frame) : Bool :=
  let w := m.w 0 0x40100
  bits w 22 16 ≤ popcount f.dirtyAll || bits w 15 0 ≤ m.ageMs f
def Mod.score (m : Mod) (f : Frame) : Nat := popcount f.dirtyAll * m.ageMs f

/-- The set a page is placed in (R76, R151): its region's, or the one with more Free blocks; one that is halted takes no page that is not
confined to it (R165). -/
def Mod.placeSet (m : Mod) (page : Nat) : Bool :=
  let r := m.regionOfPage page
  let w := m.rw0 r
  let cnt := fun (b : Bool) => m.hop.map.countP (fun e => let l := m.mediaLoc e.1; enForm l = 1 && (10 ≤ enSg l) == b)
  if rClass w = 0 then rSetB w
  else if m.setHalted false then true
  else if m.setHalted true then false
  else if m.setFree false < m.setFree true then (cnt true < 2147483648) else !(cnt false < 2147483648)

/-- May the frame be cleaned now: dirty, whole, not being cleaned (R106)? -/
def Mod.canClean (m : Mod) (f : Frame) : Bool := f.d && !f.cleaning && f.valid = ~~~ (0 : Dword) && !f.f &&
  m.tierOk .clean (m.placeSet f.page) && !m.setHalted (m.placeSet f.page) && !m.med.rows.any (fun r => r.wr = .clean && r.pages.any (fun p => p.page = f.page))

/-- The next frame in R105's order, LFLUSHed pages first (R277). Log entry 62 (DESIGN CHOICE). -/
def Mod.nextClean (m : Mod) : Option Nat :=
  let l := m.hop.frames.filter (fun e => m.canClean e.2)
  let tier := fun (e : Nat × Frame) =>
    if m.hop.flushQ.contains e.2.page then 4
    else if isSpill e.1 || e.2.detached then 3
    else if m.cleanHigh then 2
    else if m.pct (bits (m.w 0 0x40104) 7 0) && m.ripe e.2 then 1 else 0
  let better : (Nat × Frame) → (Nat × Frame) → Bool := fun a b =>
    let ta := tier a
    let tb := tier b
    if ta != tb then decide (tb < ta)
    else if m.score a.2 != m.score b.2 then decide (m.score b.2 < m.score a.2)
    else if m.ageMs a.2 != m.ageMs b.2 then decide (m.ageMs b.2 < m.ageMs a.2) else decide (a.1 < b.1)
  (bestBy better (l.filter (fun e => tier e != 0))).map (·.1)

/-- All 64 lines of a frame, posted writes included. -/
def Mod.frameLines (m : Mod) (f : Nat) : Tbl Cell :=
  (List.range 64).foldl (fun t j => tput {} t j { (m.cellAt f j) with flip := 0 }) []

/-- Start cleaning a frame (R106 step 1, R131). -/
def Mod.cleanFrame (m : Mod) (f : Nat) : Mod :=
  let x := m.frame f
  let b := m.placeSet x.page
  let tg := m.tagged (m.regionOfPage x.page)
  let p : RowPage := { page := x.page, from_ := 0, frame := some f, lines := m.frameLines f }
  match m.addToRow .clean b tg none p with
  | none => m
  | some m => { m.setFrame f (fun y => { y with copied := y.dirty, dirty := 0, cleaning := true }) with
      hop := { (m.setFrame f (fun y => { y with copied := y.dirty, dirty := 0, cleaning := true })).hop with
        flushQ := m.hop.flushQ.filter (· != x.page) } }

/-- Cleaning of a frame completes (R106 step 3): the copied bits clear; a clean spill frame gives its page back to media
form and is released (R101); a clean detached frame is freed. -/
def Mod.cleanDone (m : Mod) (f : Nat) : Mod :=
  let x := m.frame f
  let busy : Bool := m.med.rows.any (fun r => r.pages.any (fun p => p.frame = some f)) || m.undurable x.page
  if !x.cleaning || busy then m
  else
    let still : Bool := x.dirty != 0
    let m := (m.happen 0x0E 1)
    let m := { m with upk := { m.upk with wamp := m.upk.wamp ++ [(0, 1, m.time.dtc / 1000000000)] } }
    if still then m.setFrame f (fun y => { y with copied := 0, cleaning := false, imgHeld := false })
    else if isSpill f && m.entry x.page = mkSpill f then (m.setEntry x.page x.saved).setFrame f (fun _ => {})
    else if x.detached || isSpill f then m.setFrame f (fun _ => {})
    else m.setFrame f (fun y => { y with copied := 0, cleaning := false, imgHeld := false, d := false, tagDirty := 0 })

/-! ### Rows (R131, R132, R156) -/

/-- Location of the `i`-th page of a row: data dies in ascending order, four planes of the wordline on each. -/
def Row.loc (r : Row) (i : Nat) : Nat := mkEntry r.sg (lget (dataDies r.blk) (i / 4)) r.blk (4 * r.wl + i % 4)

/-- A mover's journal kind (R134, R156). R134 names none for the pages that secure discard moves: they are journaled as kind 1.
Log entry 104 (DESIGN CHOICE). -/
def moveKind (w : Writer) : Nat := match w with | .rotate => 2 | .refresh => 6 | _ => 1

/-- One page of a verified row takes its map entry (R106, R156 step 3); UPK_RCLMV and UPK_ROTMV count Reclaim's and Rotation's. -/
def Mod.pageVerified (m : Mod) (r : Row) (p : RowPage) (loc : Nat) : Mod :=
  let m := { m with med := { m.med with media := tput {} m.med.media loc { page := p.page, lines := p.lines } } }
  match r.wr with
  | .clean => if p.from_ = 0 then m.remap p.page loc (if m.per.orderly.isSome || (match p.frame with | some f => (m.frame f).imgHeld | none => false) then 5 else 0) else m
  | .evac => m
  | w =>
    if m.mediaLoc p.page = p.from_ then
      let m := m.remap p.page loc (moveKind w)
      { m with upk := { m.upk with rclMv := m.upk.rclMv + (w = .reclaim : Bool).toNat, rotMv := m.upk.rotMv + (w = .rotate : Bool).toNat } }
    else { m with upk := { m.upk with rclDrop := m.upk.rclDrop + 1 } }

/-- Stamp a segment when its first row verifies, and hold its bucket from then (R170, R172): 0 for an age of 0. -/
def Mod.stampSeg (m : Mod) (k wl : Nat) : Mod :=
  let s := wl / 64
  if (m.blk k).ms.any (fun e => e.1 = s) then m
  else
    let m := m.setBlk k (fun b => { b with ms := tput (0, 0) b.ms s (m.ms, tget 0 m.fb.w (k / 16384) / 2 ^ 32) })
    { m with fb := { m.fb with buckets := tput 0 m.fb.buckets (8 * k + s) 0 } }

/-- All program units of a row of pages have verified. -/
def Mod.rowVerified (m : Mod) (r : Row) : Mod :=
  let k := bkey r.sg r.blk
  let m := { m with med := { m.med with rows := m.med.rows.filter (fun x => x.id != r.id) } }
  let m := (m.stampSeg k r.wl).setBlk k (fun b => { b with lastProg := m.time.dtc / 1000000000 })
  let m := if r.wl = 511 then m.closeBlk k false else m
  let m := (r.pages.zipIdx).foldl (fun m e => m.pageVerified r e.1 (r.loc e.2)) m
  match r.wr with
  | .ckpt => m.ckRowDone
  | .index => m.setBlk r.seq (fun b => if b.st = .full || b.st = .moving then { b with idx := k * 512 + r.wl + 1 } else b)
  | _ => { m with upk := { m.upk with wamp := m.upk.wamp ++ [(r.pages.length, 0, m.time.dtc / 1000000000)] } }

/-- A Full block that is due for it gets its page index written, in a row of the index area (R157); where none can be had it waits. Index
blocks that hold no index in use are released. Log entry 105 (DESIGN CHOICE). -/
def Mod.indexFull (m : Mod) : Mod :=
  let m := (m.upk.blks.filter (fun e => e.2.idxDue && (e.2.st = .full || e.2.st = .moving))).foldl (fun m e =>
    let m' := m.writeMeta .index e.1
    if m'.med.nextId = m.med.nextId then m else m'.setBlk e.1 (fun b => { b with idxDue := false })) m
  let spent := (m.upk.blks.filter (fun e => e.2.st = .metadata && e.2.wr = some .index && 512 ≤ e.2.nextWl &&
    !m.med.rows.any (fun r => bkey r.sg r.blk = e.1) && !m.upk.blks.any (fun b => b.2.idx != 0 && (b.2.idx - 1) / 512 = e.1))).map (·.1)
  spent.foldl (fun m k => m.setBlk k (fun b => { b with st := .pendingReset, wr := none })) m

/-- A full Tally area of 5 blocks gives up the block with its oldest records (R406). -/
def Mod.tallyTrim (m : Mod) : Mod :=
  if 51200 < m.nv2.tpages.length then
    let old := (m.upk.blks.filter (fun e => e.2.st = .metadata && e.2.wr = some .tally && 10240 ≤ e.2.nextWl)).map (·.1)
    ({ m with nv2 := { m.nv2 with tpages := m.nv2.tpages.drop 10240 } }).releaseBlks (old.take 1)
  else m

/-- Both copies of a journal-mode page have verified. -/
def Mod.metaVerified (m : Mod) (r : Row) : Mod :=
  let k := bkey r.sg r.blk
  let m := { m with med := { m.med with rows := m.med.rows.filter (fun x => x.id != r.id) } }
  let m := (m.stampSeg k (r.wl / 20)).setBlk k (fun b => { b with lastProg := m.time.dtc / 1000000000 })
  match r.wr with
  | .journal => m.journalDurable r.seq
  | .root => m.ckComplete r.seq
  | .tally =>
    let wait := (m.med.rows.filter (fun x => x.wr = .tally)).map (·.seq)
    let stop := m.tly.head + 1 - m.tly.staged
    let own := ((wait.filter (fun q => r.seq < q)).foldl min stop) - 1
    let recs := (List.range (own + 1 - r.seq)).filterMap (fun i => tget none m.tly.ring ((r.seq + i) % 8192))
    let p : TPage := { first := r.seq, recs }
    let m : Mod := { m with tly := { m.tly with pers := max m.tly.pers ((wait.foldl min stop) - 1) },
                            nv2 := { m.nv2 with tpages := m.nv2.tpages ++ [p] } }
    m.tallyTrim
  | .crypto => { m with nv2 := { m.nv2 with crec := tput {} m.nv2.crec r.seq (m.crec r.seq) },
                        cry := { m.cry with pend := m.cry.pend.filter (· != r.seq) } }
  | _ => m

/-- A row is abandoned (R132): it takes no further unit, and is gone with its last one under way. -/
def Mod.killRow (m : Mod) (r : Row) : Mod :=
  let l := if m.begun false r.id then lmod (fun x => x.id = r.id) (fun _ => { r with dead := true, pages := [] }) m.med.rows
    else m.med.rows.filter (fun x => x.id != r.id)
  { m with med := { m.med with rows := l } }
/-- A row's pages are assembled again into another row (R132, R158): of a block that its writer may still program. -/
def Mod.reassemble (m : Mod) (r : Row) : Mod :=
  let m := m.killRow r
  match r.wr with
  | .root => match m.med.ckRun with
    | some run => { m with med := { m.med with ckRun := some { run with rooted := false } } }
    | none => m
  | .ckpt => m.ckRowBad
  | .journal | .tally | .crypto | .roll | .index => m.writeMeta r.wr r.seq
  | _ => r.pages.foldl (fun m p => (m.addToRow r.wr r.setB r.tagged (if r.wr = .rotate then some r.sg else none) p).getD m) m

/-- A program unit verified (R132): counts, and the row's completion. Units of dies that had failed when it was started are none of its. -/
def Mod.unitOk (m : Mod) (r : Row) (x : Nat) : Mod :=
  let m := (m.setDie (dieOf r.sg x) (fun d => { d with prog := d.prog + 1 })).happen 0x12 1
  let r' := { r with verified := r.verified ||| (1#10 <<< x) }
  let m := { m with med := { m.med with rows := lmod (fun y => y.id = r.id) (fun _ => r') m.med.rows } }
  if r'.dead then (if m.begun false r.id then m else { m with med := { m.med with rows := m.med.rows.filter (fun y => y.id != r.id) } })
  else if r'.units.all (fun y => r'.verified.getLsbD y || r'.skip.getLsbD y) then
    if r.wr.journalMode then m.metaVerified r' else m.rowVerified r'
  else m

/-- A row that cannot verify any more: a die of its has failed before its unit there, or its group is halted (R132, R142). -/
def Mod.rowGone (m : Mod) (r : Row) : Bool :=
  !r.dead && (m.sgHalted r.sg || (r.started && r.units.any (fun y => !r.verified.getLsbD y && !r.skip.getLsbD y && m.dieGone r.sg y)))
/-- Dies have failed: rows that cannot verify are assembled again, resets go on without them, and groups that lost their third die are
lost (R132, R142, R147). -/
def Mod.goneSettle (m : Mod) : Mod :=
  let m := (m.med.rows.filter (fun r => m.rowGone r)).foldl (fun m r => m.reassemble r) m
  let m := (m.upk.blks.filter (fun e => e.2.st = .resetting)).foldl (fun m e => m.resetEnd e.1) m
  ((List.range 20).filter (fun g => 3 ≤ m.sgFailed g)).foldl (fun m g => m.groupLost g) m

/-- A program unit failed verify (R132, R143, R144, R158): its die-block is retired, the block closed, and every row of the block that has
not verified is assembled again elsewhere. The eighth die-block within 24 h fails the die. -/
def Mod.unitFail (m : Mod) (r : Row) (x : Nat) : Mod :=
  let n := dieOf r.sg x
  let now := m.time.dtc
  let m := (m.setDie n (fun d =>
    { d with pfail := d.pfail + 1, pfailAt := (d.pfailAt.filter (fun t => now < t.1 + 86400000000000)) ++ [(now, r.blk)] })).bump (cDie n)
  let m := m.faultRec (326 + n) (islMed (mcOf r.sg x)) 8 (r.sg + 65536 * r.blk) (n + 65536 * (if r.wr.journalMode then r.wl / 20 else r.wl))
  let m := (m.retire r.sg r.blk x).closeBlk (bkey r.sg r.blk) true
  let m := (m.med.rows.filter (fun y => y.sg = r.sg && y.blk = r.blk && !y.dead)).foldl (fun m y => m.reassemble y) m
  if 8 ≤ (((m.die n).pfailAt.map (·.2)).eraseDups).length then (m.dieFail n 1).goneSettle else m

/-! ### Movers (R153–R161, R181) -/

/-- A page is on its way: a mover reads it, or a row carries it. -/
def Mod.moving (m : Mod) (page from_ : Nat) : Bool :=
  m.med.moves.any (fun v => v.page = page && v.from_ = from_) || m.med.rows.any (fun r => r.pages.any (fun p => p.page = page && p.from_ = from_))
/-- A page whose codewords have all been read takes its place in the mover's row, its ciphertext unchanged (R156 step 1); while no row can
be had it waits. -/
def Mod.movePlace (m : Mod) (v : Move) : Mod :=
  let sg := enSg v.from_
  let p : RowPage := { page := v.page, from_ := v.from_, frame := none, lines := (tget ({} : MPage) m.med.media v.from_).lines }
  match m.addToRow v.wr (10 ≤ sg) (m.blk (bkey sg (enBlk v.from_))).tagged (if v.wr = .rotate then some sg else none) p with
  | some m => { m with med := { m.med with moves := m.med.moves.erase v } }
  | none => m
/-- A codeword of a mover's page has been read, or cannot be read: then its lines carry their stored marks (R157). -/
def Mod.moveGot (m : Mod) (page cw : Nat) : Mod :=
  let m := { m with med := { m.med with moves := lmod (fun v => v.page = page) (fun v => { v with got := v.got ||| (1#16 <<< cw) }) m.med.moves } }
  match m.med.moves.find? (fun v => v.page = page && !v.copy && v.got = ~~~ (0 : BitVec 16)) with
  | some v => m.movePlace v
  | none => m
/-- The mover `wr` reads the next valid page of a held block, its sixteen codewords as upkeep reads (R141, R156 step 1); pages that have been
read and wait for a row go first. One page a frame for each mover. Log entry 106 (DESIGN CHOICE). -/
def Mod.moveBlock (m : Mod) (k : Nat) (wr : Writer) : Mod :=
  let m := (m.med.moves.filter (fun v => v.wr = wr && !v.copy && v.got = ~~~ (0 : BitVec 16))).foldl (fun m v => m.movePlace v) m
  if m.med.moves.any (fun v => v.wr = wr && !v.copy && bkey (enSg v.from_) (enBlk v.from_) = k) then m
  else match (m.validPages (k / 16384) (k % 16384)).find? (fun e => !m.moving e.1 e.2) with
    | none => m
    | some e =>
      let m := { m with med := { m.med with moves := m.med.moves ++ [{ page := e.1, from_ := e.2, wr }] } }
      (List.range 16).foldl (fun m cw => m.mread (.mover e.1 cw) e.1 cw e.2 none m.time.dtc) m

/-- Full blocks of a predicate. -/
def Mod.fullBlks (m : Mod) (p : Nat → Blk → Bool) : List (Nat × Blk) := m.upk.blks.filter (fun e => e.2.st = .full && p e.1 e.2)
def Mod.nValid (m : Mod) (k : Nat) : Nat := (m.validPages (k / 16384) (k % 16384)).length
def Mod.hold (m : Mod) (k : Nat) (wr : Writer) : Mod := m.setBlk k (fun b => { b with st := .moving, wr := some wr })
/-- Pages of a block are on their way. -/
def Mod.inFlightOf (m : Mod) (k : Nat) : Bool :=
  let at_ := fun (l : Nat) => enForm l = 1 && bkey (enSg l) (enBlk l) = k
  m.med.moves.any (fun v => at_ v.from_) || m.med.rows.any (fun r => r.wr != .clean && r.pages.any (fun p => at_ p.from_))
/-- A secure discard in phase 3 wants the block (R161). -/
def Mod.secureWants (m : Mod) (k : Nat) : Bool :=
  match m.upk.dcmd with
  | some d => d.kind = 2 && d.phase = 3 && (m.tainted d).any (fun e => e.1 = k)
  | none => false
/-- Blocks a mover holds that still have valid pages, and that no secure discard waits for. -/
def Mod.heldBy (m : Mod) (wr : Writer) (p : Nat → Bool) : List Nat :=
  (m.upk.blks.filter (fun e => e.2.st = .moving && e.2.wr = some wr && p e.1 && m.nValid e.1 != 0 && !m.secureWants e.1)).map (·.1)
/-- A mover that chooses nothing further in a block releases it once its pages there have settled: the block is Full (R147, R161). -/
def Mod.release (m : Mod) (k : Nat) : Mod := if m.inFlightOf k then m else m.setBlk k (fun b => { b with st := .full, wr := none })

/-- Reclaim in one set (R153–R155): below RCL_LOW until RCL_HIGH, and while a block is urgent. -/
def Mod.reclaim (m : Mod) (b : Bool) : Mod :=
  let inSet := fun (k : Nat) => (10 ≤ k / 16384 : Bool) == b
  let urgent := m.fullBlks (fun k x => inSet k && (x.failedFlag || m.sgFailed (k / 16384) = 2))
  let free := m.setFree b
  let was := if b then m.upk.rclRunB else m.upk.rclRunA
  let run : Bool := free < m.rclTh.1 || (was && free < m.rclTh.2)
  let m := { m with upk := if b then { m.upk with rclRunB := run } else { m.upk with rclRunA := run } }
  match m.heldBy .reclaim inSet with
  | k :: _ => m.moveBlock k .reclaim
  | [] =>
    if run || !urgent.isEmpty then
      let rank := fun (e : Nat × Blk) => if e.2.failedFlag then 0 else if m.sgFailed (e.1 / 16384) = 2 then 1 else 2
      let better : (Nat × Blk) → (Nat × Blk) → Bool := fun x y =>
        if rank x != rank y then decide (rank x < rank y)
        else if m.nValid x.1 != m.nValid y.1 then decide (m.nValid x.1 < m.nValid y.1)
        else if x.2.cycles != y.2.cycles then decide (x.2.cycles < y.2.cycles) else decide (x.1 < y.1)
      match bestBy better (m.fullBlks (fun k x => inSet k && m.nValid k != 0 && (run || x.failedFlag || m.sgFailed (k / 16384) = 2))) with
      | none => m
      | some e => ((if e.2.idx = 0 then { m with upk := { m.upk with noIdx := m.upk.noIdx + 1 } } else m).hold e.1 .reclaim).moveBlock e.1 .reclaim
    else m

/-- Rotation in one stripe group (R159, R160); ROT_SHARE 0 stops it (R168), and it releases what it holds. -/
def Mod.rotate (m : Mod) (g : Nat) : Mod :=
  let w := m.w 0 0x60048
  let lim := bits w 15 0
  let sp := m.spread g
  let stop : Bool := m.sgHalted g || bits (m.w 0 0x6004C) 7 0 = 0
  let run : Bool := !stop && (lim < sp || (m.upk.rotRun.contains g && lim - bits w 31 16 < sp))
  let m := { m with upk := { m.upk with rotRun := (m.upk.rotRun.filter (· != g)) ++ (if run then [g] else []) } }
  let mine := fun (k : Nat) => decide (k / 16384 = g)
  match m.heldBy .rotate mine with
  | k :: t => if stop then (k :: t).foldl Mod.release m else m.moveBlock k .rotate
  | [] =>
    if run then
      let better : (Nat × Blk) → (Nat × Blk) → Bool := fun x y => x.2.cycles < y.2.cycles || (x.2.cycles = y.2.cycles && x.2.lastProg < y.2.lastProg)
      match bestBy better (m.fullBlks (fun k _ => mine k && m.nValid k != 0)) with
      | none => m
      | some e => (m.hold e.1 .rotate).moveBlock e.1 .rotate
    else m

/-- Fireboss refresh: overdue blocks first, then the earliest deadline; blocks that another mover holds leave the queue (R181). -/
def Mod.refresh (m : Mod) : Mod :=
  let live := m.fb.refq.filter (fun q =>
    let b := m.blk (bkey q.sg q.blk)
    b.st = .metadata || ((b.st = .full || b.st = .opened || (b.st = .moving && b.wr = some .refresh)) && m.nValid (bkey q.sg q.blk) != 0))
  let done := m.fb.refq.length - live.length
  let m := { m with fb := { m.fb with refq := live, refdone := m.fb.refdone + done } }
  match m.heldBy .refresh (fun _ => true) with
  | k :: _ => m.moveBlock k .refresh
  | [] =>
    let better : Refresh → Refresh → Bool := fun a b => (a.overdue && !b.overdue) || (a.overdue == b.overdue && (a.due.getD m.ms) < (b.due.getD m.ms))
    match bestBy better (live.filter (fun q => (m.blk (bkey q.sg q.blk)).st = .full && !m.sgHalted q.sg)) with
    | none => m
    | some q => (m.hold (bkey q.sg q.blk) .refresh).moveBlock (bkey q.sg q.blk) .refresh

/-- Secure discard holds its tainted blocks with precedence, closing Open ones first; one that another mover holds it takes when that mover
has released it (R161, R167). -/
def Mod.secureMove (m : Mod) : Mod :=
  match m.upk.dcmd with
  | none => m
  | some d =>
    if d.kind = 2 && d.phase = 3 then
      (m.tainted d).foldl (fun m e =>
        let m := m.closeBlk e.1 false
        let m := if (m.blk e.1).st = .moving && (m.blk e.1).wr != some .secure then m.release e.1 else m
        let m := if (m.blk e.1).st = .full then m.hold e.1 .secure else m
        if (m.blk e.1).st = .moving && (m.blk e.1).wr = some .secure then m.moveBlock e.1 .secure else m) m
    else m

/-- The movers run while the module serves and no Evacuate is committed; Rotation stops at thermal critical (R361). -/
def Mod.movers (m : Mod) : Mod :=
  if m.pwr.phase < 4 || m.evacRunning || 2 ≤ m.pwr.pstate then m
  else
    let hot : Bool := 3 ≤ m.thTop.1
    let m := (m.secureMove.reclaim false).reclaim true
    let m := if hot then m else (List.range 20).foldl Mod.rotate m
    let m := if hot then m else m.refresh
    m.startResets.dStep

/-- May the block become Pending-reset (R148): no valid page, every record that removed one durable, 10 µs since the last? -/
def Mod.canPend (m : Mod) (k : Nat) : Bool :=
  let b := m.blk k
  (b.st = .full || b.st = .moving) && m.nValid k = 0 && b.removedSeq ≤ m.med.jdur && b.removedAt + 10000 ≤ m.time.dtc

/-- One die-block reset ends (R156 step 5, R162, R163): what it held is gone. -/
def Mod.resetOne (m : Mod) (sg blk x : Nat) (ok : Bool) : Mod :=
  let k := bkey sg blk
  let n := dieOf sg x
  if ok then
    let c := min 1048575 (tget 0 (m.blk k).cyc x + 1)
    let m := (m.setDie n (fun d => { d with rst := d.rst + 1 })).happen 0x13 1
    let m := m.setBlk k (fun b => { b with cyc := tput 0 b.cyc x c, resetDone := b.resetDone ||| (1#10 <<< x) })
    let m := { m with med := { m.med with media := m.med.media.filter (fun e => !(enSg e.1 = sg && enBlk e.1 = blk && enCh e.1 = x)) } }
    let m := if bits (m.w 0 0x60050) 19 0 ≤ c then m.retire sg blk x else m
    (m.resetEnd k).endurCheck
  else
    let m := (m.setDie n (fun d => { d with pfail := d.pfail + 1 })).bump (cDie n)
    let m := m.faultRec (326 + n) (islMed (mcOf sg x)) 9 (sg + 65536 * blk) n
    ((m.retire sg blk x).setBlk k (fun b => { b with resetDone := b.resetDone ||| (1#10 <<< x) })).resetEnd k

end Sys2Proof.Machine
end

