-- ==== Sys2Proof/Machine/Seed.lean ====
section
/-!
DEFINITION. The Seed Store's working (R411–R421): the queue of writes, a write's end, moves to spares, page buffers,
passwords, the KL5032 recall interval; the DTC save (R17); and a path's fetch of persisted Tally records (R410).
-/

namespace Sys2Proof.Machine

/-! ### Writes (R414–R416) -/

/-- The page a write goes to: user pages by number, the module's records each in a page of the system area. -/
def SeedJob.page : SeedJob → Nat
  | .evacuating _ | .prec _ => 128
  | .dtc .. => 129
  | .epoch .. => 130
  | .pwd .. => 132
  | .module_ n => 133 + n
  | .user p .. => p
  | .zclear p .. => p

def SeedJob.isModule : SeedJob → Bool
  | .user .. | .zclear .. | .pwd .. => false
  | _ => true
def SeedJob.isEvac : SeedJob → Bool
  | .evacuating _ => true
  | _ => false
/-- The master that waits for the write. -/
def SeedJob.by_ : SeedJob → Option Nat
  | .user _ _ _ b => some b
  | .zclear _ last b => if last then some b else none
  | .pwd _ _ _ b => some b
  | _ => none

/-- R415's order: EVACUATING first, the module's other writes by request, then commits by arrival. -/
def seedInsert (q : List SeedJob) (j : SeedJob) : List SeedJob :=
  if j.isEvac then q.filter SeedJob.isEvac ++ [j] ++ q.filter (fun x => !x.isEvac)
  else if j.isModule then q.filter SeedJob.isModule ++ [j] ++ q.filter (fun x => !x.isModule)
  else q ++ [j]

/-- A master's last command status; the command is over. -/
def Mod.seedEnd (m : Mod) (who st : Nat) : Mod := m.setMaster who (fun x => { x with seedBusy := false, seedStatus := st })

def Mod.seqOf (m : Mod) (page : Nat) : Nat := match (m.spage page).cur with | some c => c.seq | none => 0

/-- A COMMIT whose page was written since its buffer was loaded (R417). -/
def Mod.staleJob (m : Mod) (j : SeedJob) : Option Nat :=
  match j with
  | .user p sq _ b => if m.seqOf p = sq then none else some b
  | _ => none

/-- Start the next queued write while none runs. -/
def Mod.seedPumpList (m : Mod) : List SeedJob → Mod
  | [] => { m with seed := { m.seed with queue := [] } }
  | j :: t => match m.staleJob j with
    | some b => (m.seedEnd b 5).seedPumpList t
    | none => { m with seed := { m.seed with running := some j, queue := t } }
def Mod.seedPump (m : Mod) : Mod := if m.seed.running.isSome then m else m.seedPumpList m.seed.queue

/-- Queue a write. -/
def Mod.seedWrite (m : Mod) (j : SeedJob) : Mod :=
  ({ m with seed := { m.seed with queue := seedInsert m.seed.queue j } }).seedPump

def SeedJob.data : SeedJob → List Byte
  | .user _ _ b _ => b
  | _ => List.replicate 256 0xFF

/-- The pair after the write of its next sequence (R414); a page being moved leaves its old pair (R416). -/
def SPage.written (p : SPage) (data : List Byte) : SPage :=
  let s := (match p.cur with | some c => c.seq | none => 0) + 1
  let mv := p.c0.retired
  let old := if s % 2 = 0 then p.c0 else p.c1
  let c : Copy := { seq := s, ok := true, data, writes := if mv then 1 else old.writes + 1, retired := false }
  let other : Copy := if mv then {} else if s % 2 = 0 then p.c1 else p.c0
  { p with c0 := if s % 2 = 0 then c else other, c1 := if s % 2 = 0 then other else c }

/-- May the page take a spare pair? The last four are not for user pages. -/
def Mod.spareLeft (m : Mod) (page : Nat) : Bool := m.nv.spareUsed < (if page < 128 then 12 else 16)

def Mod.setSpage (m : Mod) (p : Nat) (f : SPage → SPage) : Mod :=
  { m with nv := { m.nv with pages := tmod {} m.nv.pages p f } }

/-- Take the next generation; the new counter value is in the Seed Store before the change that uses it applies (R318). -/
def Mod.setGen (m : Mod) (n : Nat) : Mod :=
  (({ m with nv := { m.nv with gennext := n } })).setSpage 131 (fun x => x.written (List.replicate 256 0xFF))
def Mod.assignGen (m : Mod) : Nat × Mod := (m.nv.gennext, m.setGen (m.nv.gennext + 1))

/-- Move a page to a spare pair: its old locations are retired, the next write goes to the new pair. -/
def Mod.movePage (m : Mod) (p : Nat) : Mod :=
  let m := m.setSpage p (fun x => { x with c0 := { x.c0 with retired := true }, c1 := { x.c1 with retired := true } })
  (({ m with nv := { m.nv with spareUsed := m.nv.spareUsed + 1, moves := m.nv.moves + 1 } }).bump cSeed).seedRec p 0 (m.seqOf p)

/-- A user page with no spare becomes worn. -/
def Mod.wearPage (m : Mod) (p : Nat) : Mod :=
  if (m.spage p).worn then m
  else
    let m := m.setSpage p (fun x => { x with worn := true })
    (({ m with nv := { m.nv with worn := m.nv.worn + 1 } }).bump cSeed).seedRec p 1 (m.seqOf p)

/-- What a finished write makes durable (R412, R418). -/
def Mod.seedApply (m : Mod) (j : SeedJob) : Mod :=
  match j with
  | .evacuating e => { m with nv := { m.nv with prec := .evacuating e } }
  | .prec r => { m with nv := { m.nv with prec := r } }
  | .dtc v b => { m with nv := { m.nv with dtc := some v, tallyBase := b } }
  | .epoch e p => { m with nv := { m.nv with epoch := e, paired := p } }
  | .user _ _ _ b => (m.setMaster b (fun x => { x with seedBuf := none })).seedEnd b 0
  | .zclear p last b =>
    if last then
      ({ m with nv := { m.nv with pwdR := tput 0 m.nv.pwdR (p / 16) 0, pwdW := tput 0 m.nv.pwdW (p / 16) 0 } }).seedEnd b 0
    else m
  | .pwd z w v b =>
    ({ m with nv := if w then { m.nv with pwdW := tput 0 m.nv.pwdW z v } else { m.nv with pwdR := tput 0 m.nv.pwdR z v } }).seedEnd b 0
  | .module_ _ => m

/-- The running write ends (R414–R416): verified, or failed. -/
def Mod.seedWriteEnd (m : Mod) (ok : Bool) : Mod :=
  match m.seed.running with
  | none => m
  | some j =>
    let p := j.page
    if ok then
      let m := (m.setSpage p (fun x => x.written j.data)).seedApply j
      let full : Bool := match (m.spage p).cur with | some c => decide (100000 ≤ c.writes) | none => false
      let m := if full && !(m.spage p).worn then
          (if m.spareLeft p then (m.movePage p).setSpage p (fun x => x.written j.data) else if p < 128 then m.wearPage p else m)
        else m
      ({ m with seed := { m.seed with running := none } }).seedPump
    else if m.spareLeft p then m.movePage p
    else
      let m := if p < 128 then m.wearPage p else m
      let m := match j.by_ with | some b => m.seedEnd b 6 | none => m
      ({ m with seed := { m.seed with running := none } }).seedPump

/-- AON loses power in a write: the location written fails its CRC (R414). -/
def Mod.tearWrite (m : Mod) : Mod :=
  match m.seed.running with
  | none => m
  | some j =>
    let s := m.seqOf j.page + 1
    m.setSpage j.page (fun x =>
      if x.c0.retired then x
      else if s % 2 = 0 then { x with c0 := { x.c0 with ok := false } } else { x with c1 := { x.c1 with ok := false } })

/-- The DTC and the Tally base go to the Seed Store (R17, R408). -/
def Mod.saveDtc (m : Mod) : Mod :=
  m.seedWrite (.dtc m.time.dtc m.tly.head)

/-! ### Paths, buffers and zones (R417, R418) -/

def Mod.seedAddr (m : Mod) (who : Nat) : Nat := bits (selV (m.master who).sel 0xF0000) 14 0
/-- An access advances the address within its page. -/
def Mod.seedNext (m : Mod) (who : Nat) : Mod :=
  let a := m.seedAddr who
  m.setMaster who (fun x => { x with sel := tput 0 x.sel 0xF0000 (loW (a / 256 * 256 + (a % 256 + 4) % 256)) })
def unlocked (mask z : Nat) : Bool := mask.testBit z
/-- Is the zone closed to this master's reads, its writes? -/
def Mod.readShut (m : Mod) (who z : Nat) : Bool := tget 0 m.nv.pwdR z != 0 && !unlocked (m.master who).runl z
def Mod.writeShut (m : Mod) (who z : Nat) : Bool := tget 0 m.nv.pwdW z != 0 && !unlocked (m.master who).wunl z

/-- A read of SEED_DATA. -/
def Mod.seedRead (m : Mod) (who : Nat) : Word × Mod :=
  let a := m.seedAddr who
  let m' := m.seedNext who
  if m.recalling then (0, m')
  else if m.readShut who (a / 4096) then (0, m'.setMaster who (fun x => { x with seedStatus := 2 }))
  else (wordAt (m.pageBytes (a / 256)) (a % 256 / 4), m')

/-- A write of SEED_DATA goes to the master's page buffer. -/
def Mod.seedPut (m : Mod) (who : Nat) (v : Word) : Mod :=
  let a := m.seedAddr who
  let m' := m.seedNext who
  if m.recalling then m'
  else if m.writeShut who (a / 4096) then m'.setMaster who (fun x => { x with seedStatus := 2 })
  else
    let b : SeedBuf := match (m.master who).seedBuf with
      | some b => if b.page = a / 256 then b else { page := a / 256, bytes := m.pageBytes (a / 256), seq := m.seqOf (a / 256), written := false }
      | none => { page := a / 256, bytes := m.pageBytes (a / 256), seq := m.seqOf (a / 256), written := false }
    let o := a % 256 / 4 * 4
    let b := { b with bytes := b.bytes.take o ++ leBytes 4 v.toNat ++ b.bytes.drop (o + 4), written := true }
    m'.setMaster who (fun x => { x with seedBuf := some b })

/-- A command is taken when the master's earlier one is over (R421) and no recall interval runs (R419). -/
def Mod.seedCmd (m : Mod) (who : Nat) (f : Mod → Mod) : Mod :=
  if (m.master who).seedBusy then m.setMaster who (fun x => { x with seedStatus := 1 })
  else if m.recalling then m.seedEnd who 7
  else f m

def Mod.seedQueue (m : Mod) (who : Nat) (j : SeedJob) : Mod := (m.setMaster who (fun x => { x with seedBusy := true })).seedWrite j

/-- COMMIT. -/
def Mod.seedCommit (m : Mod) (who : Nat) : Mod :=
  m.seedCmd who (fun m =>
    match (m.master who).seedBuf with
    | none => m.seedEnd who 8
    | some b =>
      if !b.written then m.seedEnd who 8
      else if m.writeShut who (b.page / 16) then m.seedEnd who 2
      else if m.seqOf b.page != b.seq then m.seedEnd who 5
      else if (m.spage b.page).worn then m.seedEnd who 6
      else m.seedQueue who (.user b.page b.seq b.bytes who))

/-- DISCARD. -/
def Mod.seedDiscard (m : Mod) (who : Nat) : Mod :=
  m.seedCmd who (fun m => (m.setMaster who (fun x => { x with seedBuf := none })).seedEnd who 0)

def Mod.zoneLocked (m : Mod) (z : Nat) : Bool := match m.seed.lockout.find? (fun e => e.1 = z) with
  | some e => decide (m.time.dtc < e.2)
  | none => false

/-- Set or clear a master's unlock of a zone. -/
def Mod.setUnlock (m : Mod) (who z : Nat) (write on : Bool) : Mod :=
  let upd := fun (k : Nat) => if on then Nat.lor k (2 ^ z) else if k.testBit z then k - 2 ^ z else k
  m.setMaster who (fun x => if write then { x with wunl := upd x.wunl } else { x with runl := upd x.runl })

/-- UNLOCK with the candidate in SEED_PWD. -/
def Mod.seedUnlock (m : Mod) (who z : Nat) (write : Bool) : Mod :=
  m.seedCmd who (fun m =>
    let p := tget 0 (if write then m.nv.pwdW else m.nv.pwdR) z
    if m.zoneLocked z then m.seedEnd who 4
    else if p = 0 || p = (m.master who).pwd then (m.setUnlock who z write true).seedEnd who 0
    else
      let m := ({ m with seed := { m.seed with lockout := tput 0 m.seed.lockout z (m.time.dtc + 1000000000) } }).bump cPwf
      (m.seedRec (16 * z) 3 0).seedEnd who 3)

/-- RELOCK. -/
def Mod.seedRelock (m : Mod) (who z : Nat) (write : Bool) : Mod :=
  m.seedCmd who (fun m => (m.setUnlock who z write false).seedEnd who 0)

/-- SETPWD. -/
def Mod.seedSetPwd (m : Mod) (who z : Nat) (write : Bool) : Mod :=
  m.seedCmd who (fun m =>
    if m.writeShut who z then m.seedEnd who 2 else m.seedQueue who (.pwd z write (m.master who).pwd who))

/-- ZCLEAR: sixteen pages, then both passwords. -/
def Mod.seedZclear (m : Mod) (who z : Nat) : Mod :=
  m.seedCmd who (fun m => (List.range 16).foldl (fun m i => m.seedQueue who (.zclear (16 * z + i) (i = 15) who)) m)

/-- RECALL: 3 ms of the recall interval under COMPAT. -/
def Mod.seedRecall (m : Mod) (who : Nat) : Mod :=
  if (m.master who).seedBusy then m.setMaster who (fun x => { x with seedStatus := 1 })
  else
    let m := if m.nv.compat then { m with seed := { m.seed with recallUntil := some (m.time.dtc + 3000000) } } else m
    m.seedEnd who 0

/-- A write of SEED_CMD. -/
def Mod.seedOp (m : Mod) (who : Nat) (v : Word) : Mod :=
  let z := bits v 6 4
  let w := bit v 8
  match bits v 3 0 with
  | 1 => m.seedCommit who
  | 2 => m.seedDiscard who
  | 3 => m.seedUnlock who z w
  | 4 => m.seedRelock who z w
  | 5 => m.seedSetPwd who z w
  | 6 => m.seedZclear who z
  | 7 => m.seedRecall who
  | _ => m

/-- Unlocks and page buffers end at a start and in M4 (R418). -/
def Mod.seedForget (m : Mod) : Mod :=
  { m with path := { m.path with masters := tmap {} (fun x => { x with runl := 0, wunl := 0, seedBuf := none }) m.path.masters } }

/-- Pages neither of whose copies is valid (R413). -/
def Mod.badPages (m : Mod) : List Nat := (m.nv.pages.filter (fun e => e.2.cur.isNone)).map (·.1)

/-! ### Tally -/

/-- FETCH: the persisted page of the selected record goes to the master's fetch buffer; an unreadable one is counted (R410). -/
def Mod.tallyFetch (m : Mod) (who : Nat) (readable : Bool) : Mod :=
  let ma := m.master who
  let s := (selV ma.sel 0xE0000).toNat + (selV ma.sel 0xE0004).toNat * 2 ^ 32
  match m.nv2.tpages.find? (fun p => p.recs.any (fun r => r.seq = s)) with
  | none => m.setMaster who (fun x => { x with fetch := [] })
  | some p =>
    if readable then m.setMaster who (fun x => { x with fetch := p.recs })
    else ({ m with tly := { m.tly with merr := m.tly.merr + 1 } }).setMaster who (fun x => { x with fetch := [] })

end Sys2Proof.Machine
end

