-- ==== Sys2Proof/Machine/Line.lean ====
section
/-!
DEFINITION. Line operations of foremen and of the debug port (R275–R278, R287, R99, R110, R316, R323, R375–R377): the
rights and states that refuse one, the reads and writes behind it, and how it ends.
-/

namespace Sys2Proof.Machine

/-! ### Scratch (R269, R270) -/

/-- Words of 64 bits with a double-bit error among `n` bytes at `a`. -/
def Foreman.dbeIn (x : Foreman) (a n : Nat) : Bool := x.dbe.any (fun w => a < 8 * w + 8 && 8 * w < a + n)
def Foreman.bytes (x : Foreman) (a n : Nat) : List Byte := (List.range n).map (fun i => tget 0 x.scratch (a + i))
def Foreman.putBytes (x : Foreman) (a : Nat) (l : List Byte) : Foreman :=
  { x with scratch := (l.zipIdx).foldl (fun t e => tput 0 t (a + e.2) e.1) x.scratch }

/-! ### Whose operation it is -/

def Mod.lineOp (m : Mod) (who : Asker) : Option LineOp :=
  match who with
  | .req _ => none
  | .mover _ _ => none
  | .foreman f => match (m.fm f).wait with | .line o => some o | _ => none
  | .debug => m.dbg.mcmd
def Mod.setLineOp (m : Mod) (who : Asker) (o : LineOp) : Mod :=
  match who with
  | .req _ => m
  | .mover _ _ => m
  | .foreman f => m.setFm f (fun x => { x with wait := .line o })
  | .debug => { m with dbg := { m.dbg with mcmd := some o } }
/-- The operation's status is known. -/
def Mod.lineEnd (m : Mod) (who : Asker) (st : Nat) : Mod :=
  match m.lineOp who with
  | some o => m.setLineOp who { o with status := some st }
  | none => m
/-- Number of the asker in a merge entry. -/
def Asker.num : Asker → Nat
  | .foreman f => f
  | _ => 8
def askerOf (n : Nat) : Asker := if n < 8 then .foreman n else .debug
def Mod.lineAskers (m : Mod) : List Asker :=
  (m.fore.fm.filterMap (fun e => match e.2.wait with | .line o => if o.status.isNone then some (Asker.foreman e.1) else none | _ => none)) ++
    (match m.dbg.mcmd with | some o => if o.status.isNone then [.debug] else [] | none => [])

/-- Does the program run with debug rights (R240, R287)? -/
def Origin.debug (o : Origin) : Bool := o.src = 4 || (o.src = 1 && o.org = 3)
def Mod.debugRights (m : Mod) (who : Asker) : Bool :=
  match who with
  | .debug => true
  | .foreman f => (match (m.fm f).prog with | some p => p.org.debug | none => false)
  | _ => false

/-- Bytes that a write takes, and where a read puts its bytes. -/
def Mod.lineSrc (m : Mod) (who : Asker) (o : LineOp) : Line :=
  match who with
  | .foreman f => BitVec.ofNat 512 (ofLe ((m.fm f).bytes o.scratch 64))
  | _ => BitVec.ofNat 512 (total ((List.range 16).map (fun k => (m.w 0 (0x130080 + 4 * k)).toNat * 2 ^ (32 * k))))
def Mod.lineDst (m : Mod) (who : Asker) (o : LineOp) (l : List Byte) : Mod :=
  match who with
  | .foreman f => m.setFm f (fun x => x.putBytes o.scratch l)
  | _ => (List.range (l.length / 4)).foldl (fun m k => m.setW 0 (0x130080 + 4 * k) (wordAt l k)) m

/-! ### Rights and states (R276) -/

/-- Refused for rights: the level of R287 and R372, DBGPLAIN for writes (R316), and what M3 leaves (R376). -/
def Mod.lineRights (m : Mod) (who : Asker) (kind reg : Nat) : Bool :=
  let wr : Bool := kind = 2 || kind = 3
  let lvl : Bool := if kind ≤ 3 then m.dbg.level = 3 else 2 ≤ m.dbg.level
  let sec := m.secOf reg
  if !m.debugRights who then true
  else if who = .debug then
    lvl && !(m.pwr.pstate = 3 && (wr || kind = 5 || kind = 6)) && (!wr || 2 ≤ sec || (sec = 0 && rPlain (m.rw0 reg)))
  else lvl && (!wr || rPlain (m.rw0 reg))

/-- The first of R276's six checks that refuses the operation. -/
def Mod.lineRefuse (m : Mod) (who : Asker) (kind lineNo : Nat) : Option Nat :=
  match m.regionOf (granOfLine lineNo) with
  | none => some 4
  | some r =>
    let wr : Bool := kind = 2 || kind = 3
    let data : Bool := wr || (kind = 0 && who != .debug)
    let sd : Bool := match m.upk.dcmd with | some d => d.kind = 2 && d.region = r | none => false
    let sec := m.secOf r
    if !m.lineRights who kind r then some 3
    else if sd || (sec = 3 && data) then some 6
    else if sec = 2 && data then some 2
    else if wr && (rShared (m.rw0 r) || m.upk.ronly || m.suspectStart) then some 5
    else if wr && m.budget < m.dt + 4096 then some 9
    else none

/-! ### Reads -/

/-- Does a read give plaintext (R316, R377)? -/
def Mod.linePlain (m : Mod) (who : Asker) (reg : Nat) : Bool :=
  !m.debugRights who || (rPlain (m.rw0 reg) && m.secOf reg ≤ 1 && !(who = .debug && m.pwr.pstate = 3))

/-- The line as the hopper stores it, with its check bits and the lanes in error. -/
def stored72 (ct : Line) (flip : BitVec 16) : BitVec 576 :=
  (List.range 16).foldl (fun v i => if flip.getLsbD i then v ^^^ Config.laneMask i else v)
    ((Config.lineCheck ct).setWidth 576 <<< 512 ||| ct.setWidth 576)

/-- A read's cell has arrived: a frame's, with the lanes its access found in error, or a media line's. -/
def Mod.lineGot (m : Mod) (who : Asker) (o : LineOp) (cell : Cell) (lanes : BitVec 16) : Mod :=
  let reg := m.regionOfPage (o.line / 64)
  let page := o.line / 64
  if o.kind = 1 then
    let d := if lanes = 0 then (0, m) else m.draw
    let v := if cell.zero then 0 else if lanes = 0 then stored72 cell.ct cell.flip else stored72 cell.ct cell.flip ^^^ Config.upset d.1
    let n := laneCount (cell.flip ||| lanes)
    (d.2.lineDst who o (leBytes 72 v.toNat)).lineEnd who (if n = 0 then 0 else if n = 1 then 14 else 15)
  else if m.linePlain who reg then
    match m.keyFor reg o.line with
    | none => m.lineEnd who 2
    | some k =>
      let good := fun (m : Mod) (c : Cell) => (m.lineDst who o (leBytes 64 (decCell k o.line c).toNat)).lineEnd who 0
      if tagOk (m.tagged reg) k o.line cell then good m cell
      else match (m.waysOf page).filter (fun f => (m.frame f).p && tagOk true k o.line (m.cellAt f (o.line % 64))) with
        | f :: _ => good ((m.bump (cTagf reg)).secRec reg 1 (o.line * 64)) (m.cellAt f (o.line % 64))
        | [] => (m.tagFail reg o.line).lineEnd who 7
  else
    let m := if who = .debug then { m with dbg := { m.dbg with mcipher := true } } else m
    (m.lineDst who o (leBytes 64 cell.ct.toNat)).lineEnd who 0

/-- A poisoned line: the destination receives zeros. -/
def Mod.linePoison (m : Mod) (who : Asker) (o : LineOp) : Mod :=
  (if o.kind = 0 then m.lineDst who o (leBytes 64 0) else m).lineEnd who 1

/-- Merged data of the line's open entry goes into the hopper first, so that a later read sees it (R103). -/
def Mod.lineSettle (m : Mod) (lineNo : Nat) : Mod :=
  match m.hop.merge.find? (fun e => e.lineNo = lineNo && e.acked) with
  | some e => m.completeMerge e
  | none => m

/-- LRD and LRDX. -/
def Mod.lineRead (m : Mod) (who : Asker) (o : LineOp) : Mod :=
  let page := o.line / 64
  if o.kind = 0 && m.poisoned o.line then m.linePoison who o
  else
    let m := m.lineSettle o.line
    match m.findLine page (o.line % 64) with
    | some f => m.access who f o.line false
    | none =>
      if m.entryBad page (m.regionOfPage page) then m
      else if m.mediaLoc page = 0 then (m.lineDst who o (leBytes (if o.kind = 0 then 64 else 72) 0)).lineEnd who 0
      else if m.per.evac.isSome then m
      else
        let m := (m.happen (if m.mcHit page then 0x08 else 0x09) 1).mcTouch page
        m.mread who page (o.line % 64 / 4) (m.mediaLoc page) none m.time.dtc

/-! ### Writes -/

/-- The write is in the persistence domain: counted, mirrored, and its status set or left to the twin's ACK (R223). -/
def Mod.linePut (m : Mod) (who : Asker) (o : LineOp) (ct : Line) (gen : Nat) (part : Option (Dword × Line)) (rec : Bool) : Mod :=
  let reg := m.regionOfPage (o.line / 64)
  let sync : Bool := rMirror (m.rw0 reg) = 1
  let r := if rec then m.mirror reg o.line gen ct false sync (m.tagged reg && part.isNone) part none else (none, m)
  match (if sync then r.1 else none) with
  | some n => r.2.setLineOp who { o with msn := some n }
  | none => r.2.lineEnd who 0

/-- A full-line write or zero-line; it waits while it finds no place. -/
def Mod.lineFull (m : Mod) (who : Asker) (o : LineOp) (d : Line) : Mod :=
  let reg := m.regionOfPage (o.line / 64)
  match m.keyFor reg o.line with
  | none => m
  | some k =>
    let cell := m.seal reg o.line k d
    match m.place (o.line / 64) (o.line % 64) cell false (m.tagged reg) with
    | none => m
    | some m =>
      let m := m.unmark o.line
      let m' := m.linePut who o cell.ct k.gen none true
      (m'.dropMerge o.line (lastRec m m')).supersede o.line m'.host.nextReq

/-- Lay the bytes over the line, which is in the hopper, through the line's entry (R103); the old tag is verified first. -/
def Mod.lineMerge (m : Mod) (who : Asker) (o : LineOp) : Mod :=
  let reg := m.regionOfPage (o.line / 64)
  let drop := fun (m : Mod) => { m with hop := { m.hop with merge := m.hop.merge.filter (fun e => e.lineNo != o.line || e.acked) } }
  if m.poisoned o.line then (drop m).lineEnd who 1
  else match m.findLine (o.line / 64) (o.line % 64), m.keyFor reg o.line with
    | some f, some k =>
      if tagOk (m.tagged reg) k o.line (m.cellAt f (o.line % 64)) then
        let d := m.lineSrc who o
        let m := m.modMerge o.line (fun e => { e with mask := e.mask ||| o.seen, data := overlay o.seen e.data d, acked := true, fore := none })
        m.linePut who o 0 k.gen (some (o.seen, d)) (rMirror (m.rw0 reg) = 1)
      else ((drop m).tagFail reg o.line).lineEnd who 7
    | _, _ => m

/-- A partial write: the line's open entry, or a new one in the FORE share. -/
def Mod.linePart (m : Mod) (who : Asker) (o : LineOp) : Mod :=
  let page := o.line / 64
  let reg := m.regionOfPage page
  if m.poisoned o.line then m.lineEnd who 1
  else match m.hop.merge.find? (fun e => e.lineNo = o.line) with
    | some e => if e.waiting.isEmpty && e.fore.isNone then m.lineMerge who o else m
    | none =>
      if shareUse m .fore < m.shareCap .fore then
        let e : Mbe := { share := .fore, lineNo := o.line, region := reg, mask := 0, data := 0, wpoison := false, acked := false,
                         waiting := [], tight := false, stamp := m.time.dtc, fore := some who.num, msn := 0,
                         mirror := rMirror (m.rw0 reg) }
        let m := { m with hop := { m.hop with merge := m.hop.merge ++ [e] } }
        if (m.findLine page (o.line % 64)).isSome then m.lineMerge who o
        else if m.entryBad page reg then m
        else if m.mediaLoc page = 0 then
          match m.keyFor reg o.line with
          | none => m
          | some k => (m.fillLines page [(o.line % 64, m.seal reg o.line k 0)] (m.tagged reg) true).lineMerge who o
        else if m.per.evac.isSome then m
        else m.mread who page (o.line % 64 / 4) (m.mediaLoc page) none m.time.dtc
      else m

def Mod.lineWrite (m : Mod) (who : Asker) (o : LineOp) : Mod :=
  if o.kind = 3 then m.lineFull who o 0
  else if o.seen = 0 then m.lineEnd who 0
  else if o.seen = ~~~ (0 : Dword) then m.lineFull who o (m.lineSrc who o)
  else m.linePart who o

/-- Writes that found no place try again. -/
def Mod.retryLines (m : Mod) : Mod :=
  m.lineAskers.foldl (fun m who => match m.lineOp who with
    | some o =>
      if o.inFlight && !m.hop.merge.any (fun e => e.fore = some who.num) then m.lineWrite who o else m
    | none => m) m

/-! ### LFLUSH, LPIN, LUNPIN -/

/-- Dirty bits of a page, over the frames that hold it. -/
def Mod.pageDirty (m : Mod) (page : Nat) : Dword :=
  (m.hop.frames.filter (fun e => (e.2.v || e.2.detached) && e.2.page = page)).foldl (fun a e => a ||| e.2.dirtyAll) 0

def Mod.lineFlush (m : Mod) (who : Asker) (o : LineOp) : Mod :=
  let page := o.line / 64
  let w := m.rw0 (m.regionOfPage page)
  let d := m.pageDirty page
  if d = 0 || (who = .debug && m.pwr.pstate = 3) then m.lineEnd who 0
  else if rClass w = 0 && m.setHalted (rSetB w) then m.lineEnd who 16
  else
    let m := { m with hop := { m.hop with flushQ := if m.hop.flushQ.contains page then m.hop.flushQ else m.hop.flushQ ++ [page] } }
    m.setLineOp who { o with seen := d }

/-- Cleaning has cleared dirty bits of a page: an LFLUSH whose bits have all cleared ends (R277). -/
def Mod.flushed (m : Mod) (page : Nat) (cleared : Dword) : Mod :=
  m.lineAskers.foldl (fun m who => match m.lineOp who with
    | some o =>
      if o.kind = 4 && o.line / 64 = page then
        let left := o.seen &&& ~~~ cleared &&& m.pageDirty page
        m.setLineOp who { o with seen := left, status := if left = 0 then some 0 else none }
      else m
    | none => m) m

/-- LPIN in the order SETFULL, NOWAY, PINNED, where SETFULL means an LPIN frame of another page. -/
def Mod.linePin (m : Mod) (who : Asker) (o : LineOp) : Mod :=
  let page := o.line / 64
  if (waySet page).any (fun f => (m.frame f).lpin && (m.frame f).page != page) then m.lineEnd who 10
  else match m.wayOf page with
    | some f =>
      let x := m.frame f
      if x.p || x.lpin then m.lineEnd who 12
      else
        let m := m.setFrame f (fun x => { x with lpin := true })
        if x.f then m else m.lineEnd who 0
    | none => match m.pickWay page (m.tagged (m.regionOfPage page)) with
      | none => m.lineEnd who 11
      | some f => (m.allocWay f page).setFrame f (fun x => { x with lpin := true })

/-- A frame's fill has ended: an LPIN that waited for it ends. -/
def Mod.pinDone (m : Mod) (page : Nat) : Mod :=
  m.lineAskers.foldl (fun m who => match m.lineOp who with
    | some o => if o.kind = 5 && o.line / 64 = page then m.lineEnd who 0 else m
    | none => m) m

def Mod.lineUnpin (m : Mod) (who : Asker) (o : LineOp) : Mod :=
  match (waySet (o.line / 64)).find? (fun f => (m.frame f).lpin && (m.frame f).page = o.line / 64) with
  | some f => (m.setFrame f (fun x => { x with lpin := false })).lineEnd who 0
  | none => m.lineEnd who 13

/-! ### Start and end -/

/-- Bounds of R278 by operation; `res` says the line is resident. -/
def Mod.lineBound (m : Mod) (kind : Nat) (mask : Dword) (res : Bool) : Nat :=
  let j := m.w 0 0x50104
  match kind with
  | 0 | 1 => 6000
  | 2 => if mask = ~~~ (0 : Dword) || res then 4000 else 6000
  | 3 => 4000
  | 4 => 1000 * (bits j 13 0 + bits (m.w 0 0x50108) 9 0 + 100)
  | 5 => 20000
  | _ => 100

/-- CRYPT accepts a read or a write of a line: the filter counters test it (R382). -/
def Mod.lineCount (m : Mod) (who : Asker) (o : LineOp) : Mod :=
  m.filterCount (if who = .debug then 4 else 1) none 5 (2 ≤ o.kind) o.line (if o.kind = 2 then popcount o.seen else 64)
/-- Begin a line operation: its checks, then its work. -/
def Mod.lineStart (m : Mod) (who : Asker) (kind rd lineNo scratch : Nat) (mask : Dword) (extra : Nat) : Mod :=
  let o : LineOp := { kind, rd, line := lineNo, scratch, seen := mask,
                      bound := m.time.dtc + m.lineBound kind mask (m.resident lineNo) + extra }
  match m.lineRefuse who kind lineNo with
  | some c => m.setLineOp who { o with status := some c }
  | none =>
    let m := m.setLineOp who o
    let m := if kind ≤ 3 then m.lineCount who o else m
    match kind with
    | 0 | 1 => m.lineRead who o
    | 2 | 3 => m.lineWrite who o
    | 4 => m.lineFlush who o
    | 5 => m.linePin who o
    | _ => m.lineUnpin who o

/-- What a media read brought, or that its stripe is lost (R97, R143). -/
def Mod.lineDeliver (m : Mod) (who : Asker) (got : Got) : Mod :=
  match m.lineOp who with
  | none => m
  | some o =>
    if o.status.isSome then m
    else match got with
      | .bad =>
        let m := { m with hop := { m.hop with merge := m.hop.merge.filter (fun e => e.fore != some who.num) } }
        if o.kind = 1 then (m.lineDst who o (leBytes 72 0)).lineEnd who 15 else m.linePoison who o
      | _ =>
        if o.kind = 2 then m.lineMerge who o
        else if o.kind ≤ 1 then
          let page := o.line / 64
          let m := m.lineSettle o.line
          let c := match m.findLine page (o.line % 64) with
            | some f => m.cellAt f (o.line % 64)
            | none => m.mediaCell (m.mediaLoc page) (o.line % 64)
          m.lineGot who o { c with flip := 0 } 0
        else m

/-- Hand on what media reads brought to those who asked. -/
def Mod.deliver (r : Mod × List (Asker × Nat × Got)) : Mod :=
  r.2.foldl (fun m e => match e.1 with | .mover p cw => m.moveGot p cw | w => m.lineDeliver w e.2.2) r.1

/-- A granted hopper access of a line operation ends (R111, R114, R116). LRDX neither corrects nor queues a rewrite. -/
def Mod.lineAccess (m : Mod) (who : Asker) (a : Access) (lanes : BitVec 16) : Mod :=
  match m.lineOp who with
  | none => m
  | some o =>
    if o.status.isSome || o.line != a.lineNo then m
    else if o.kind = 1 then m.lineGot who o a.cell (if a.cached then 0 else lanes)
    else
      let r := m.readLine a.frame a.lineNo a.cell a.cached lanes
      match r.1 with
      | some c => r.2.lineGot who o c 0
      | none => if r.2.poisoned o.line then r.2.linePoison who o else r.2.lineRead who o

/-- The twin's ACK covers Sync line writes, or the pair has broken. -/
def Mod.lineCovered (m : Mod) (covered : Nat → Bool) : Mod :=
  m.lineAskers.foldl (fun m who => match m.lineOp who with
    | some o => (match o.msn with
      | some n => if covered n then m.setLineOp who { o with status := some 0, msn := none } else m
      | none => m)
    | none => m) m

/-- The pair breaks (R228): Sync writes of hosts and of line operations are acknowledged. -/
def Mod.breakPair (m : Mod) (code : Nat) : Mod :=
  if m.twin.pair = .paired then (m.breakCore code).lineCovered (fun _ => true) else m

/-- The bound passes (R278): a write is never applied later; a Sync write placed at home breaks the pair instead (R224). -/
def Mod.lineDeadline (m : Mod) (who : Asker) : Mod :=
  match m.lineOp who with
  | none => m
  | some o =>
    if o.status.isSome then m
    else if o.msn.isSome then (m.breakPair 2).lineEnd who 0
    else
      let m := { m with hop := { m.hop with merge := m.hop.merge.filter (fun e => e.fore != some who.num),
                                            access := m.hop.access.filter (fun a => a.who != who) },
                        med := { m.med with reads := m.med.reads.filter (fun r => r.who != who) } }
      m.lineEnd who 8

end Sys2Proof.Machine
end

