-- ==== Sys2Proof/Machine/Fill.lean ====
section
/-!
DEFINITION. How a frame gets its lines: the background fill with its sources (R97, R98, R100), and the pages of a pin load (R109).
-/

namespace Sys2Proof.Machine

/-! ### Background fill (R97, R98, R100) -/

/-- Where a line of a filling frame comes from. -/
inductive FillSrc where
  | frame (g : Nat) (dirty : Bool)
  | cell (c : Cell)
  | lost
  deriving DecidableEq, Repr

/-- The source of line `j` of page `page`, in R100's order: a frame of the page that holds it, or the medium. -/
def Mod.fillSrc (m : Mod) (page j : Nat) : FillSrc :=
  match m.findLine page j with
  | some g => .frame g ((m.frame g).dirtyAll.getLsbD j)
  | none =>
    let loc := m.mediaLoc page
    let reg := m.regionOfPage page
    if loc = 0 then
      match m.keyFor reg (page * 64 + j) with
      | some k => .cell (m.seal reg (page * 64 + j) k 0)
      | none => .cell { zero := true }
    else if 3 ≤ m.sgFailed (enSg loc) then .lost
    else .cell (m.mediaCell loc j)

/-- Fill one line of frame `f`. A stripe that cannot be rebuilt poisons the line (R143). -/
def Mod.fillOne (f page : Nat) (tagged : Bool) (m : Mod) (j : Nat) : Mod :=
  if (m.frame f).valid.getLsbD j then m
  else match m.fillSrc page j with
    | .frame g d => m.fillLine f j { m.cellAt g j with flip := 0 } d tagged
    | .cell c => m.fillLine f j c false tagged
    | .lost => (m.fillLine f j {} false tagged).mark (page * 64 + j) false

/-- Source frames of a filled page are freed, with what their queues still held (R100); the page's entry takes media form when its
spill frame is drained into a way. -/
def Mod.freeSources (m : Mod) (f page : Nat) : Mod :=
  let e := m.entry page
  let m := if !isSpill f && enForm e = 2 then m.setEntry page (m.frame (enSpill e)).saved else m
  let gone := (m.hop.frames.filter (fun x => x.1 != f && x.2.page = page && (x.2.detached || (isSpill x.1 && x.2.v)))).map (·.1)
  let m : Mod := { m with hop := { m.hop with pwq := m.hop.pwq.filter (fun p => !gone.contains p.frame) } }
  gone.foldl (fun m g => m.setFrame g (fun _ => {})) m

/-- A frame has all its lines (R97): F clears, what its lines came from is freed, an LPIN that waited ends. -/
def Mod.fillEnd (m : Mod) (f : Nat) : Mod :=
  let page := (m.frame f).page
  ((m.freeSources f page).setFrame f (fun y => { y with f := false })).pinDone page
/-- Frames whose 64th line a write or a read has made valid. -/
def Mod.fillsEnd (m : Mod) : Mod :=
  (m.hop.frames.filter (fun e => e.2.v && e.2.f && !e.2.transit && e.2.valid = ~~~ (0 : Dword))).foldl (fun m e => m.fillEnd e.1) m

/-- Codewords of a page's location that a fill found undecodable, with its channel indices: counted, the block queued for refresh, and
rebuilt where eight others decode (R143, R175). Gives the codewords that cannot be rebuilt. -/
def Mod.fillBad (m : Mod) (loc page : Nat) (bad : List (Fin 16 × Fin 10)) : List Nat × Mod :=
  let sg := enSg loc
  let x0 := enCh loc
  let n := dieOf sg x0
  ((bad.map (fun e => e.1.val)).eraseDups).foldl (fun (a : List Nat × Mod) cw =>
    let xs := ((bad.filter (fun e => e.1.val = cw)).map (fun e => e.2.val)).eraseDups.filter (fun x => !a.2.dieGone sg x)
    let m := xs.foldl (fun m x => m.codewordBad sg (enBlk loc) x) a.2
    let gone := xs.length + m.sgFailed sg
    if 3 ≤ gone then (a.1 ++ [cw], m.faultRec (326 + n) (islMed (mcOf sg x0)) 7 (page * 4096) (n + 256 * cw))
    else if xs.contains x0 then
      (a.1, ((m.setMch (mcOf sg x0) (fun h => { h with recon := h.recon + 1 })).happen 0x10 1).faultRec (326 + n) (islMed (mcOf sg x0)) 6
        (page * 4096) (n + 256 * cw))
    else (a.1, m)) ([], m)

/-- The fill of a frame ends: all 64 lines valid, F clear, and what waited for them goes on. `bad` says which codewords did not decode.
Log entry 43 (DEDUCED). -/
def Mod.fillDone (m : Mod) (f : Nat) (bad : List (Fin 16 × Fin 10) := []) : Mod :=
  let x := m.frame f
  if !x.v || !x.f || m.per.evac.isSome || m.entryBad x.page (m.regionOfPage x.page) then m
  else
    let tg := m.tagged (m.regionOfPage x.page)
    let new := (List.range 64).filter (fun j => !x.valid.getLsbD j)
    let loc := m.mediaLoc x.page
    let read := if loc = 0 then [] else ((new.filter (fun j => (m.findLine x.page j).isNone)).map (· / 4)).eraseDups
    let r := m.fillBad loc x.page (bad.filter (fun e => read.contains e.1.val))
    let c := mcOf (enSg loc) (enCh loc)
    let m := if read.isEmpty then r.2
      else (r.2.setMch c (fun h => { h with xfer := h.xfer + read.length })).happen 0x0F read.length
    let m := new.foldl (fun m j =>
      if r.1.contains (j / 4) && (m.findLine x.page j).isNone then (m.fillLine f j {} false tg).mark (x.page * 64 + j) false
      else Mod.fillOne f x.page tg m j) m
    new.foldl (fun m j => m.lineArrived (x.page * 64 + j)) (m.fillEnd f)

/-! ### Pin loads (R108, R109) -/

/-- Bring a page into a pinned way and its second copy; none where two ways cannot be had. -/
def Mod.pinPage (m : Mod) (page : Nat) : Option Mod :=
  let tg := m.tagged (m.regionOfPage page)
  let first : Option (Nat × Mod) := match m.wayOf page with
    | some f => some (f, m)
    | none => (m.pickWay page tg).map (fun f => (f, m.allocWay f page))
  match first with
  | none => none
  | some (f, m) =>
    if m.entryBad page (m.regionOfPage page) then none
    else
      let m := m.setFrame f (fun x => { x with f := true, p := true })
      let m := m.fillDone f
      match (m.waysOf page).find? (fun g => g != f) with
      | some _ => some m
      | none => match m.pickWay page tg with
        | none => none
        | some g =>
          let x := m.frame f
          let m := m.setFrame g (fun _ => { v := true, f := true, p := true, dup := true, page, lastMs := x.lastMs })
          let m := (List.range 64).foldl (fun m j => m.fillLine g j { m.cellAt f j with flip := 0 } (x.dirtyAll.getLsbD j) tg) m
          some (m.setFrame g (fun y => { y with f := false }))

/-- Bring every page of a list into both copies. -/
def Mod.pinPages : List Nat → Mod → Option Mod
  | [], m => some m
  | p :: t, m => match m.pinPage p with
    | some m' => Mod.pinPages t m'
    | none => none

/-- Every page of the region being loaded is in both copies: Tight-Pinned takes effect at the next boundary (R109). Log entry 37 (DEDUCED). -/
def Mod.pinLoaded (m : Mod) (r : Nat) : Mod :=
  match m.hop.pinLoad with
  | some (q, k, false) =>
    let n := regPages (m.rw1 r)
    if q != r || m.per.evac.isSome then m
    else match Mod.pinPages ((List.range (n - k)).map (fun i => regPage0 (m.rw1 r) + k + i)) m with
      | some m' => { m' with hop := { m'.hop with pinLoad := some (r, n, true) } }
      | none => m
  | _ => m

/-- A pin load brings in its next page, which HOP_PINLOAD shows (R109): one page a frame. Log entry 86 (DESIGN CHOICE). -/
def Mod.pinStep (m : Mod) : Mod :=
  match m.hop.pinLoad with
  | some (r, k, false) =>
    let n := regPages (m.rw1 r)
    if m.per.evac.isSome then m
    else if n ≤ k then { m with hop := { m.hop with pinLoad := some (r, n, true) } }
    else match m.pinPage (regPage0 (m.rw1 r) + k) with
      | some m' => { m' with hop := { m'.hop with pinLoad := some (r, k + 1, decide (n ≤ k + 1)) } }
      | none => m
  | _ => m

end Sys2Proof.Machine
end

