-- ==== Sys2Proof/Machine/Check.lean ====
section
/-!
DEFINITION. The check units and their scan engines (R279, R390–R396), the background test of on-chip memories (R30–R32)
and the general counters' clear (R384).
-/

namespace Sys2Proof.Machine

/-! ### Feeding -/

/-- Consume bytes without folding. -/
def Cu.eat (c : Cu) (l : List Byte) : Cu :=
  { c with run := BitVec.ofNat 64 (l.foldl (fun v b => crcByte (c.cfg % 4) v b.toNat) c.run.toNat) }

/-- One byte, with the folding at a block's start and the advance at its end (R392). -/
def Cu.byte (c : Cu) (b : Byte) : Cu :=
  let c := if c.boff = 0 && c.cfg.testBit 2 then c.eat (leBytes 8 c.faddr) else c
  let c := if c.boff = 0 && c.cfg.testBit 3 then c.eat (leBytes 8 c.seq) else c
  let c := c.eat [b]
  if c.boff = 63 then
    { c with boff := 0, faddr := (c.faddr + 64) % 2 ^ 44, seq := if c.cfg.testBit 4 then (c.seq + 1) % 2 ^ 64 else c.seq }
  else { c with boff := c.boff + 1 }
def Cu.feed (c : Cu) (l : List Byte) : Cu := l.foldl Cu.byte c

/-- A write of CU_CFG (R391). -/
def Cu.setCfg (c : Cu) (v : Word) : Cu :=
  { c with cfg := bits v 4 0, run := BitVec.ofNat 64 (crcInit (bits v 1 0)), boff := 0 }

/-- Context words ignore writes while a scan runs (R393). -/
def Cu.context (c : Cu) (f : Cu → Cu) : Cu := if c.state = 1 then c else f c

/-! ### Holding a unit (R279, R395, R396) -/

/-- Fireboss or a Seam verify claims the unit (FORE_CLAIM.CU 2 and 3). -/
def Mod.cuTaken (m : Mod) (n : Nat) : Bool :=
  (bit (m.w 0 0x60118) 3 && bits (m.w 0 0x60118) 6 4 = n) ||
    (List.range 2).any (fun e => (m.seam e).st != .idle && (m.seam e).verify && (m.seam e).cu = n)
/-- The unit a foreman's program holds. -/
def Mod.cuOf (m : Mod) (f : Nat) : Option Nat := (List.range 4).find? (fun n => (m.cu n).held = some f)
/-- Release the unit that foreman `f` holds. -/
def Mod.cuRelease (m : Mod) (f : Nat) : Mod :=
  match m.cuOf f with
  | some n => m.setCu n (fun c => { c with held := none })
  | none => m
/-- The program of foreman `f` ends: its unit is released, a scan it started goes on. -/
def Mod.cuProgEnd (m : Mod) (f : Nat) : Mod :=
  (List.range 4).foldl (fun m n => if (m.cu n).starter = 3 + f && (m.cu n).state = 1 then m.setCu n (fun c => { c with starter := 99 }) else m)
    (m.cuRelease f)

/-- CUSEL: 0 held now, 1 held by another, 2 claimed. -/
def Mod.cuSel (m : Mod) (f n : Nat) : Nat × Mod :=
  let own : Bool := (m.cu n).state = 1 && (m.cu n).starter = 3 + f
  let m := m.cuRelease f
  if m.cuTaken n then (2, m)
  else if (m.cu n).held.isSome || ((m.cu n).state = 1 && !own) then (1, m)
  else (0, m.setCu n (fun c => { c with held := some f }))

/-! ### Scans (R394, R395) -/

/-- GO of CU_SCCTL of unit `n` written by master `who`; one that is not accepted is recorded as no-change. -/
def Mod.scanGo (m : Mod) (who n : Nat) (debug raw : Bool) : Mod :=
  let c := m.cu n
  let free : Bool := if who < 3 then c.held.isNone else c.held = some (who - 3)
  if bits (m.w n 0xD0034) 1 0 = 1 && c.state != 1 && c.sclen != 0 && free then
    m.setCu n (fun c => { c with state := 1, status := 0, done := 0, err := 0, starter := who, debug, cur := c.scaddr / 64,
                                 left := c.sclen, rawRun := raw, stopReq := false })
  else m.noteNoChange who
def Mod.scanStop (m : Mod) (n : Nat) : Mod :=
  if (m.cu n).state = 1 then m.setCu n (fun c => { c with stopReq := true }) else m

/-- The scan stops at a status. -/
def Mod.scanHalt (m : Mod) (n st lineNo : Nat) : Mod :=
  m.setCu n (fun c => { c with state := 3, status := st, err := lineNo * 64 })

/-- A scanned line's bytes go to its unit. -/
def Mod.scanFeed (m : Mod) (n lineNo : Nat) (d : Line) : Mod :=
  m.setCu n (fun c =>
    let c := ({ c with faddr := lineNo * 64 % 2 ^ 44, boff := 0 }).feed (leBytes 64 d.toNat)
    let c := { c with done := c.done + 1, left := c.left - 1, cur := c.cur + 1 }
    if c.left = 0 then { c with state := 2 } else if c.stopReq then { c with state := 4 } else c)

/-- Status that refuses a scanned line before it is read. -/
def Mod.scanRefuse (m : Mod) (c : Cu) : Option Nat :=
  match m.regionOf (granOfLine c.cur) with
  | none => some 4
  | some r =>
    if c.debug && m.dbg.level != 3 then some 3
    else if c.rawRun then none
    else if m.secOf r = 3 then some 6
    else if m.secOf r = 2 then some 2
    else if m.poisoned c.cur then some 1 else none

/-- A line's stored cell for a scan or the Seam: from its frame, or from media with a Bulk read of its codeword, which fills clean (R97, R328,
R394). `bad` are the channel indices whose codeword of the stripe did not decode: counted, rebuilt where eight others decode, else the
codeword's lines are poisoned (R143, R175). -/
def Mod.scanCell (m : Mod) (lineNo : Nat) (bad : List (Fin 10)) : Got × Mod :=
  let page := lineNo / 64
  match m.findLine page (lineNo % 64) with
  | some f =>
    let r := m.readLine f lineNo (m.cellAt f (lineNo % 64)) false 0
    match r.1 with
    | some c => (.cell c, r.2)
    | none => (.bad, r.2)
  | none =>
    let loc := m.mediaLoc page
    let cw : Fin 16 := Fin.ofNat 16 (lineNo % 64 / 4)
    let lines := (List.range 4).map (fun i => 4 * cw.val + i)
    if m.entryBad page (m.regionOfPage page) then (.bad, m)
    else if loc = 0 then (.zero, m)
    else
      let c := mcOf (enSg loc) (enCh loc)
      let m := (m.setMch c (fun h => { h with xfer := h.xfer + 1 })).happen 0x0F 1
      let r := m.fillBad loc page (bad.map (fun x => (cw, x)))
      if 3 ≤ m.sgFailed (enSg loc) || !r.1.isEmpty then (.bad, lines.foldl (fun m j => m.mark (page * 64 + j) false) r.2)
      else
        let cells := lines.map (fun j => (j, r.2.mediaCell loc j))
        (.cell (r.2.mediaCell loc (lineNo % 64)), r.2.fillLines page cells (r.2.tagged (r.2.regionOfPage page)) false)

/-- SCAN_LINE. -/
def Mod.scanLine (m : Mod) (n : Nat) (bad : List (Fin 10)) : Mod :=
  let c := m.cu n
  if c.state != 1 then m
  else match m.scanRefuse c with
    | some st => m.scanHalt n st c.cur
    | none =>
      let r := m.regionOfPage (c.cur / 64)
      let m := m.filterCount 2 none 5 false c.cur 64
      let m := if c.rawRun then m else m.lineSettle c.cur
      let g := m.scanCell c.cur bad
      let plain : Bool := !c.debug || (rPlain (m.rw0 r) && m.secOf r ≤ 1)
      match g.1 with
      | .bad => g.2.scanHalt n 1 c.cur
      | .zero => g.2.scanFeed n c.cur 0
      | .cell x =>
        if c.rawRun || !plain then g.2.scanFeed n c.cur x.ct
        else match g.2.keyFor r c.cur with
          | none => g.2.scanHalt n 2 c.cur
          | some k =>
            if tagOk (m.tagged r) k c.cur x then g.2.scanFeed n c.cur (decCell k c.cur x)
            else (g.2.tagFail r c.cur).scanHalt n 7 c.cur

/-- An Evacuate commit ends every scan (R395). -/
def Mod.scansEnd (m : Mod) : Mod :=
  (List.range 4).foldl (fun m n => if (m.cu n).state = 1 then m.setCu n (fun c => { c with state := 5 }) else m) m

/-! ### Background test (R30–R32) -/

/-- Regions of 64 words of each memory (R27, R397). -/
def scrRegions (mem : Nat) : Nat :=
  if mem < 8 then 512 else if mem = 8 then 8192 else if mem = 9 then 73728 else if mem = 10 then 16384
  else if mem = 11 then 8 else if mem = 12 then 2048 else 4

/-- The source a memory's failure belongs to: the scratch-test source. -/
def srcScr : Nat := 556

/-- A word of memory `mem` is read, and its check code finds `e` (R27): a single-bit error is corrected and counted, a double-bit error
is counted, recorded and raises the memory event. -/
def Mod.eccMeets (m : Mod) (mem addr : Nat) (e : Ecc) : Mod :=
  match e with
  | .clean => m
  | .single => m.setScr mem (fun x => { x with sbe := x.sbe + 1 })
  | .double => ((m.setScr mem (fun x => { x with dbe := x.dbe + 1 })).bump cDbe).faultRec srcScr islFore 2 mem addr

/-- One region has been tested: the walk goes on, or a failing region takes a spare, or the memory has failed. -/
def Mod.testRegion (m : Mod) (mem : Nat) (fails : Bool) : Mod :=
  if bits (m.w mem 0x120004) 6 0 = 0 then m
  else
    let s := m.scr mem
    let reg := s.next
    let next := if reg + 1 = scrRegions mem then 0 else reg + 1
    let m := m.setScr mem (fun x => { x with region := reg, next, passes := if next = 0 then x.passes + 1 else x.passes })
    if !fails then m
    else
      let spare : Bool := s.used < scrSpares mem
      let m := m.bump cScrFail
      let m := { m with perf := { m.perf with scrLast := fld 28 mem ||| flag 27 (!spare) ||| satFld 0 17 reg } }
      let m := m.setScr mem (fun x => if spare then { x with used := x.used + 1, redirects := x.redirects ++ [reg] } else { x with failed := true })
      m.faultRec srcScr islFore (if spare then 0 else 1) mem reg

end Sys2Proof.Machine
end

