-- ==== Sys2Proof/Machine/Prog.lean ====
section
/-!
DEFINITION. Programs (R240–R246, R252, R254–R258, R286): submission to a queue, queue reset, which foreman takes what, how
a program starts and how it ends.
-/

namespace Sys2Proof.Machine

/-! ### The program store (R241) -/

def slotBase (q pos : Nat) : Nat := 0xA0000 + 0x20000 * q + 2048 * pos
def hookBase (h : Nat) : Nat := 0x70000 + 2048 * (h - 32)
def Mod.setPs (m : Mod) (a : Nat) (v : Word) : Mod := { m with fore := { m.fore with store := tput (m.psFill a) m.fore.store a v } }
/-- Write a slot: the words, zero behind them (R261). -/
def Mod.putSlot (m : Mod) (base : Nat) (ws : List Word) : Mod :=
  let keep := m.fore.store.filter (fun e => e.1 < base)
  let rest := m.fore.store.filter (fun e => base + 2048 ≤ e.1)
  let mid := ((ws.take 2044).zipIdx).filterMap (fun e => if e.1 = 0 then none else some (base + e.2, e.1))
  { m with fore := { m.fore with store := keep ++ mid ++ rest } }

/-! ### Foremen -/

/-- A program counter write of `g[0]` is discarded (R260). -/
def Foreman.setG (x : Foreman) (r : Nat) (v : Dword) : Foreman := if r = 0 then x else { x with g := tput 0 x.g r v }
def Foreman.reg (x : Foreman) (r : Nat) : Dword := if r = 0 then 0 else tget 0 x.g r

/-- Start a program on a foreman: every register but those given is 0 (R246, R256, R260); what its path
held is cleared (R239, R260); a Seed Store write of an earlier program that still runs keeps its BUSY (R417). -/
def Mod.startProg (m : Mod) (f : Nat) (p : Prog) (pc : Nat) (g1 g2 g3 g4 : Nat) : Mod :=
  let x : Foreman := (((({} : Foreman).setG 1 (BitVec.ofNat 64 g1)).setG 2 (BitVec.ofNat 64 g2)).setG 3 (BitVec.ofNat 64 g3)).setG 4
    (BitVec.ofNat 64 g4)
  (m.setFm f (fun o => { x with prog := some p, pc, scratch := o.scratch, dbe := o.dbe, haltReq := o.haltReq })).setMaster (3 + f)
    (fun a => { seedBusy := a.seedBusy })

/-- May foreman `f` take work now? -/
def Mod.fmFree (m : Mod) (f : Nat) : Bool :=
  let x := m.fm f
  m.fore.ready && m.per.evac.isNone && x.prog.isNone && !x.stopped && !x.halted && !x.haltReq
def Mod.assign (m : Mod) (f i : Nat) : Bool := bit (m.w f 0x100044) i

/-- The pending hook that foreman `f` takes: the lowest its mask allows (R246, R255). -/
def Mod.hookFor (m : Mod) (f : Nat) : Option Nat :=
  (m.fore.hooks.find? (fun e =>
    e.2.pending.isSome && !e.2.running &&
      (if e.1 < 32 then m.assign f 0 else m.assign f 1) &&
      (let k := bits (m.hookW e.1 0) 23 16; k = 0 || k.testBit f))).map (·.1)

/-- Budget of a hook or entry; 0 selects FORE_STEPDEF (R254). -/
def Mod.budgetOf (m : Mod) (n : Nat) : Nat := if n = 0 then m.stepDef else n

/-- Start hook `h` on foreman `f` (R256). -/
def Mod.startHook (m : Mod) (f h : Nat) : Mod :=
  match (m.hook h).pending with
  | none => m
  | some (t, v) =>
    let w0 := m.hookW h 0
    let w3 := m.hookW h 3
    let org : Origin := { src := if h < 32 then 0 else 1, hook := h, org := bits w0 15 13 }
    let base := if h < 32 then 0 else hookBase h
    let p : Prog := { org, base, size := if h < 32 then 0x70000 else 2048, q := none, budget := m.budgetOf (4096 * bits w3 31 20) }
    let m := m.setHook h (fun x => { x with pending := none, running := true, runs := x.runs + 1 })
    m.startProg f p (base + bits w3 19 0) h (if hookKind w0 = 1 then bits w0 9 0 else 0) t (if hookKind w0 = 3 then v else 0)

/-- Entries of a queue, oldest first. -/
def Queue.list (q : Queue) : List (Nat × QEnt) :=
  (List.range q.count).filterMap (fun i => let p := (q.rp + i) % 64; (tget none q.ents p).map (fun e => (p, e)))
def Queue.next (q : Queue) : Option (Nat × QEnt) := q.list.find? (fun e => e.2.st = 0)
def Queue.running (q : Queue) : Nat := q.list.countP (fun e => e.2.st = 1)
/-- The queue whose next entry foreman `f` takes, in round robin (R246). -/
def Mod.queueFor (m : Mod) (f : Nat) : Option Nat :=
  ((List.range 3).map (fun i => (m.fore.rr + i) % 3)).find? (fun q =>
    m.assign f (2 + q) && !(m.queue q).resetting && (m.queue q).next.isSome && (m.queue q).running < bits (m.w q 0x100008) 3 0)

/-- Start the oldest untaken entry of queue `q` on foreman `f` (R244, R246). -/
def Mod.startQ (m : Mod) (f q : Nat) : Mod :=
  match (m.queue q).next with
  | none => m
  | some (pos, e) =>
    let m := m.setQueue q (fun x => { x with ents := tput none x.ents pos (some { e with st := 1 }) })
    let p : Prog := { org := { src := 2 + q, ticket := e.ticket }, base := slotBase q pos, size := 2048, q := some (q, pos),
                      budget := m.budgetOf e.steps }
    let m := { m with fore := { m.fore with rr := (q + 1) % 3 } }
    m.startProg f p (slotBase q pos + e.entry) e.ticket q (m.stamp islFore) 0

/-- A free foreman takes work. -/
def Mod.dispatchOne (m : Mod) (f : Nat) : Mod :=
  if m.fmFree f then
    match m.hookFor f with
    | some h => m.startHook f h
    | none => match m.queueFor f with
      | some q => m.startQ f q
      | none => m
  else m
/-- Free foremen take pending work, the lowest-numbered first (R246). -/
def Mod.dispatch (m : Mod) : Mod := (List.range 8).foldl Mod.dispatchOne m

/-! ### Submission and queue reset (R243, R245) -/

def Queue.ok (q : Queue) : Bool := q.wp = q.wp2 && q.rp = q.rp2

/-- Store a ticket's result; the last 256 are kept. -/
def Queue.store (q : Queue) (t : Nat) (r : PRes) : Queue :=
  let l := (q.results.filter (fun e => e.1 != t)) ++ [(t, r)]
  { q with results := l.drop (l.length - 256) }

/-- Step 4 of a reset, once no program of the queue runs. -/
def Mod.queueSettle (m : Mod) (q : Nat) : Mod :=
  let x := m.queue q
  if x.resetting && x.running = 0 then
    m.setQueue q (fun x => { x with wp := 0, wp2 := 0, rp := 0, rp2 := 0, ents := [], resetting := false })
  else m

/-- The pointer copies of a queue differ: the reset of R245. -/
def Mod.queueReset (m : Mod) (q : Nat) : Mod :=
  let x := m.queue q
  let lost := (x.ents.filterMap (fun e => e.2)).filter (fun e => e.st = 0)
  let r : PRes := { state := 3, trap := 0xF0, used := 0, txres := 0, txnum := 0, gout := [0, 0, 0, 0] }
  let x := lost.foldl (fun x e => x.store e.ticket r) x
  let ents := x.ents.filterMap (fun e => match e.2 with
    | some v => if v.st = 0 then some (e.1, some { v with st := 2 }) else some e
    | none => none)
  ((m.setQueue q (fun _ => { x with ents, resetting := true, done := x.done + lost.length })).bump (cQrst q)).queueSettle q

/-- One bit of a write-pointer copy has changed (R245). -/
def Mod.queueUpset (m : Mod) (q : Nat) : Mod := m.setQueue q (fun x => { x with wp2 := (x.wp2 + 1) % 128 })
/-- An access to a queue compares the copies first. -/
def Mod.queueCheck (m : Mod) (q : Nat) : Mod := if (m.queue q).ok || (m.queue q).resetting then m else m.queueReset q

/-- The producer of queue `q` accepts a program, or answers Busy (R243, R440, R355). -/
def Mod.submit (m : Mod) (q entry steps : Nat) (ws : List Word) : Option (Nat × Mod) :=
  let x := m.queue q
  if !m.fore.ready || m.per.evac.isSome || x.resetting || 64 ≤ x.count then none
  else
    let pos := x.wp % 64
    let e : QEnt := { ticket := x.ticket, len := ws.length, entry, steps, dtc := m.time.dtc, st := 0 }
    let wp := (x.wp + 1) % 128
    let m := m.putSlot (slotBase q pos) ws
    some (x.ticket, m.setQueue q (fun x => { x with wp, wp2 := wp, ents := tput none x.ents pos (some e), ticket := (x.ticket + 1) % 2 ^ 32 }))

/-! ### Endings -/

/-- Advance the read pointer past ended entries (R244). -/
def Queue.advance : Nat → Queue → Queue
  | 0, q => q
  | n + 1, q =>
    if q.count = 0 then q
    else match tget none q.ents (q.rp % 64) with
      | some e => if e.st = 2 then Queue.advance n { q with rp := (q.rp + 1) % 128, rp2 := (q.rp + 1) % 128, ents := tput none q.ents (q.rp % 64) none }
          else q
      | none => q

/-- The entry at `pos` has ended. -/
def Queue.mark (q : Queue) (pos : Nat) : Queue :=
  { q with ents := tmod none q.ents pos (Option.map (fun e => { e with st := 2 })), done := q.done + 1 }

/-- Drop what a foreman's instruction in progress has not brought to its effect (R286). -/
def Mod.dropWork (m : Mod) (f : Nat) : Mod :=
  let who := Asker.foreman f
  { m with hop := { m.hop with merge := m.hop.merge.filter (fun e => e.fore != some f), access := m.hop.access.filter (fun a => a.who != who) },
           med := { m.med with reads := m.med.reads.filter (fun r => r.who != who) },
           fore := { m.fore with commitQ := m.fore.commitQ.filter (fun t => t.one || (match t.foreman with | some (g, _) => g != f | none => true)) } }

/-- FORE_LASTFAIL's and the records' source of a program. -/
def Mod.progEndRec (m : Mod) (f st trap : Nat) (p : Prog) : Mod :=
  let x := m.fm f
  m.tally 4 p.org.code islFore (leBytes 4 (if p.q.isSome then p.org.ticket else 0) ++ leBytes 1 st ++ leBytes 1 trap ++ leBytes 4 x.steps ++
    leBytes 4 x.immW ++ leBytes 4 x.pc)

/-- A program ends with STATE `st` and trap code `trap` (R62, R252, R286). -/
def Mod.endProg (m : Mod) (f st trap : Nat) : Mod :=
  match (m.fm f).prog with
  | none => m
  | some p =>
    let x := m.fm f
    let m := m.progEndRec f st trap p
    let m := (m.dropWork f).cuProgEnd f
    let m := if st = 3 || st = 4 then ({ m with fore := { m.fore with aborts := m.fore.aborts + 1 } }).bump (cForeman f) else m
    let m := match p.q with
      | some (q, pos) =>
        let r : PRes := { state := st, trap, used := x.steps, txres := x.txres, txnum := x.txnum, gout := [1, 2, 3, 4].map x.reg }
        let m := m.setQueue q (fun y => (y.mark pos).store p.org.ticket r)
        (m.setQueue q (Queue.advance 64)).queueSettle q
      | none => m.setHook p.org.hook (fun h => { h with running := false })
    m.setFm f (fun x => { x with prog := none, calls := [], loops := [], tx := none, wait := .none_, halted := x.haltReq })

/-- Every program is aborted (R252). -/
def Mod.abortAll (m : Mod) (trap : Nat) : Mod := (List.range 8).foldl (fun m f => m.endProg f 3 trap) m

/-- A foreman stops for good: its program aborts with 0xF1 (R32, R270). -/
def Mod.stopForeman (m : Mod) (f : Nat) : Mod := (m.endProg f 3 0xF1).setFm f (fun x => { x with stopped := true })

end Sys2Proof.Machine
end

