-- ==== Sys2Proof/Machine/Ports.lean ====
section
/-!
DEFINITION. Host ports (R36–R41, R444): a link's loss and return, port resets, HDM decoders (R46), Memory Space Enable
(R308, R429), GPF (R56).
-/

namespace Sys2Proof.Machine

/-- Discard every outstanding request of a port's LDs (R39, R40). -/
def Mod.dropPort (m : Mod) (p : Nat) : Mod := (m.host.reqs.filter (fun r => r.lp / 16 = p)).foldl (fun m r => m.dropReq r) m
/-- Drop the responses that a port holds: it is reset (R40). -/
def Mod.dropHeld (m : Mod) (p : Nat) : Mod :=
  let heldP := m.host.held.filter (fun h => h.req.lp / 16 = p)
  let m := heldP.foldl (fun m h => if h.req.free then m else m.setLp h.req.lp (fun l => l.countReq h.req.cls h.req.demoted (· - 1))) m
  { m with host := { m.host with held := m.host.held.filter (fun h => h.req.lp / 16 != p) } }

/-- Accesses that the BAR path holds back end with the control port's link (R292). -/
def Mod.barDrop (m : Mod) (p : Nat) : Mod := if p = m.path.ctlPort then m.setPathQ 0 (fun q => { q with wait := [] }) else m

/-- A link goes down: requests discarded, credits void; responses that the port holds wait for the link until their bound (R39). Log
entry 51 (DEDUCED). -/
def Mod.linkDown (m : Mod) (p : Nat) : Mod :=
  ((m.dropPort p).barDrop p).setPort p (fun x =>
    { x with link := .down, reqCr := 0, rwdCr := 0, pacedReq := 0, pacedRwd := 0, gpfWait := false,
             retrain := if x.link = .l0 then x.retrain + 1 else x.retrain })
/-- The port may hold a link: its rails are in window and its transmitters on. -/
def Mod.linksOn (m : Mod) : Bool :=
  2 ≤ m.pwr.phase && m.evacStep < 5 && (m.rail 4).st = .inWindow && (m.rail 5).st = .inWindow && (m.rail 6).st = .inWindow

/-- The link reaches L0: held responses whose bound has not passed leave, credits are advertised. -/
def Mod.linkUpL0 (m : Mod) (p : Nat) : Mod :=
  let m := m.setPort p (fun x => { x with link := .l0 })
  let out := m.host.held.filter (fun h => h.req.lp / 16 = p && m.time.dtc ≤ h.req.deadline)
  let m := { m with host := { m.host with held := m.host.held.filter (fun h => !(h.req.lp / 16 = p && m.time.dtc ≤ h.req.deadline)) } }
  let m := out.foldl (fun m h => m.send h.req h.ans) m
  let m := if m.reqOpen then m.giveReq p 2048 else m
  if m.rwdAllowed && m.host.rwdOpen then m.giveRwd p 2048 else m

/-- Training ends (R36), from a link that was down or, at another width or rate, from Recovery; a port that cannot train is down. -/
def Mod.linkTrain (m : Mod) (p : Nat) (t : Option Trained) : Mod :=
  if (m.port p).link = .recovery && m.linksOn && m.pwr.pstate != 2 then
    match t with
    | some t => (m.setPort p (fun x => { x with width := t.width, rate := t.rate, reversed := t.reversed })).linkUpL0 p
    | none => m.linkDown p
  else if m.linksOn && !(m.port p).perst && ((m.port p).link = .down || (m.port p).link = .training) then
    match t with
    | some t => (m.setPort p (fun x => { x with width := t.width, rate := t.rate, reversed := t.reversed })).linkUpL0 p
    | none => m.setPort p (fun x => { x with link := .down })
  else m

/-- A port leaves L0 (R39). -/
def Mod.linkLeave (m : Mod) (p : Nat) (down : Bool) : Mod :=
  if down then (if (m.port p).link = .down then m else m.linkDown p)
  else if (m.port p).link = .l0 then m.setPort p (fun x => { x with link := .recovery, retrain := x.retrain + 1 })
  else m

/-- The LDs of a port enter viral where their host enabled it (R39). Log entry 64 (DEDUCED). -/
def Mod.portViral (m : Mod) (p : Nat) : Mod :=
  (List.range 16).foldl (fun m d => m.setLp (16 * p + d) (fun l => { l with viral := l.viral || l.viralEn })) m
/-- A held response whose bound has passed is discarded: counted, viral on every LD of the port that has it enabled (R39). -/
def Mod.heldDiscard (m : Mod) (id : Nat) : Mod :=
  match m.host.held.find? (fun h => h.req.id = id) with
  | none => m
  | some h =>
    if m.time.dtc ≤ h.req.deadline && (m.port (h.req.lp / 16)).link = .l0 then m
    else
      let p := h.req.lp / 16
      let m := { m with host := { m.host with held := m.host.held.filter (fun x => x.req.id != id) } }
      let m := if h.req.free then m else m.setLp h.req.lp (fun l => l.countReq h.req.cls h.req.demoted (· - 1))
      (m.portViral p).bump (cLdisc p)

/-- PERST or a conventional reset of a port (R40, R444). Log entry 52 (PRESUMED). -/
def Mod.portReset (m : Mod) (p : Nat) : Mod :=
  let m := ((m.linkDown p).dropHeld p).setPort p (fun x => { x with perst := true })
  let m := ((List.range 16).map (16 * p + ·) ++ [256 + p]).foldl (fun m l =>
    m.setLp l (fun x => { x with hdm := [], evPolicy := 0, viral := false, viralEn := false, enabled := false })) m
  if p = m.path.ctlPort then m.setMaster 0 (fun a => { a with sel := [], shadow := 0, tag := none }) else m
def Mod.portRelease (m : Mod) (p : Nat) : Mod :=
  if (m.port p).perst then m.setPort p (fun x => { x with perst := false, link := if m.linksOn then .training else .down }) else m

/-- The host sets Memory Space Enable: a source still pending produces its record for this host then (R429). -/
def Mod.memEnable (m : Mod) (l : Nat) (viral : Bool) : Mod :=
  if (m.port (l / 16)).link = .l0 && (m.lp l).enabled then m.setLp l (fun x => { x with viralEn := viral })
  else if (m.port (l / 16)).link = .l0 then
    let m := m.setLp l (fun x => { x with enabled := true, viralEn := viral })
    if (m.src l).pending && !(m.src l).done.testBit 0 then m.produce l 1 else m
  else m

/-- A host commits an HDM decoder (R46): 1, 2, 4 or 8 ways, granularity 256 bytes to 16 KiB, 256 MiB alignment. A setting that
the decoder cannot hold is not committed; a decoder of size zero claims no address. Log entry 26 (PRESUMED). -/
def Mod.hdmCommit (m : Mod) (l d base size ways gran pos skip : Nat) : Mod :=
  if pos < 2 ^ ways && base % 0x10000000 = 0 && size % (0x10000000 * 2 ^ ways) = 0 && (m.port (l / 16)).link = .l0 then
    let h : Hdm := { base, size, ways := 2 ^ ways, gran := 256 * 2 ^ gran, pos, skip }
    m.setLp l (fun x => { x with hdm := tput none x.hdm d (some h) })
  else m

/-- GPF phase 2 (R56). -/
def Mod.gpf2 (m : Mod) (p : Nat) : Mod :=
  if (m.port p).link = .l0 then
    if m.budget = 0 then m.setPort p (fun x => { x with gpfWait := true }) else m.emit (.gpfDone p 2)
  else m
/-- No dirty frame remains, image-held ones aside. -/
def Mod.allClean (m : Mod) : Bool := m.hop.frames.all (fun e => !e.2.d || e.2.imgHeld)
def Mod.gpfCleaned (m : Mod) (p : Nat) : Mod :=
  if (m.port p).gpfWait && m.allClean && m.hop.pwq.isEmpty && m.hop.merge.all (fun e => !e.acked) then
    (m.setPort p (fun x => { x with gpfWait := false })).emit (.gpfDone p 2)
  else m

end Sys2Proof.Machine
end

