-- ==== Sys2Proof/Machine/Down.lean ====
section
/-!
DEFINITION. Power-down and the beginning of a start (R341, R344–R346, R351, R354, R432, R433): what is lost with CORE and
with AON, the rails' order, and what every start sets.
-/

namespace Sys2Proof.Machine

/-! ### What is lost -/

/-- Registers whose applied copies AON holds: GLB, PERSIST, POWER, THERMAL, SEED and the rail policy table. -/
def isAonPlate (key : Nat) : Bool :=
  let i := keyIdx key
  let b := i / 0x4000
  (i < 0x80000 && (b = 0 || b = 7 || b = 10 || b = 11 || b = 15)) || (0x101000 ≤ i && i < 0x101030)

/-- What the medium keeps across a power loss: pages, durable journal pages, checkpoints, failed dies and channels (R144: none comes
back), what was counted of the last 24 h. -/
def MedSt.cold (x : MedSt) : MedSt :=
  { media := x.media, jpages := x.jpages.filter (fun p => p.seq ≤ x.jdur), ckpts := x.ckpts, ckLast := x.ckLast, jnext := x.jdur + 1,
    jdur := x.jdur,
    dies := x.dies.filterMap (fun e => if e.2.failed || !e.2.pfailAt.isEmpty then some (e.1, { failed := e.2.failed, pfailAt := e.2.pfailAt }) else none),
    chans := x.chans.filterMap (fun e => if e.2.failed then some (e.1, { failed := true, fenced := true }) else none) }

/-- CORE loses power: everything that neither the medium, the Seed Store nor AON holds (R346, R351, R354). Block-table facts stay
beside the medium. Debug is at DL0, unlocks and page buffers end, ALERT_N is released. -/
def Mod.coreLoss (m : Mod) : Mod :=
  let m := m.seedForget
  let keep := m.cfg.plates.filter (fun e => isAonPlate e.1)
  { m with
    time := { m.time with isl := [] }
    cfg := { plates := keep, prev := keep }
    path := { m.path with queues := [], ctlPort := 0, ctlNext := none }
    host := { logs := m.host.logs.filter (fun e => e.1 = logMgmt), mgmtUnread := m.host.mgmtUnread }
    hop := { chans := m.hop.chans.filterMap (fun e => if e.2.failed then some (e.1, { failed := true, fenced := true, out := true }) else none) }
    med := m.med.cold
    upk := { blks := m.upk.blks, remap := m.upk.remap, retSg := m.upk.retSg, level := m.upk.level, losses := m.upk.losses,
             warned := m.upk.warned, rmostly := m.upk.rmostly, ronly := m.upk.ronly, cause := m.upk.cause }
    fb := { gapsum := m.fb.gapsum, w := m.fb.w, refine := m.fb.refine, witness := m.fb.witness, refq := m.fb.refq }
    twin := {}
    tx := {}
    cry := {}
    perf := {}
    tly := { head := m.tly.head, pers := m.tly.pers }
    seed := { m.seed with lockout := m.seed.lockout }
    fore := {}
    dbg := { ir := m.dbg.ir, bsr := m.dbg.bsr }
    nv := { m.nv with opsec := m.opsecNow }
    nv2 := { m.nv2 with fwRun := 3 }
    pwr := { m.pwr with started := false, imgLoaded := false, trainOk := false, phase := 0, pstate := 4, waking := false, m3Media := false, m3Exit := false, startWait := false }
    per := { m.per with evac := none, orderly := none, orderlyCk := none, orderlyRec := false, debounce := none, testing := false, testPending := none,
                        testWait := 0, budget := 0, budgetNext := none, term := 2, everBudget := false, overDT := false, tested := false,
                        testFailed := false } }

/-- AON loses power: the Seed Store, the boot flash and the medium stay (R4, R17, R414). -/
def Mod.aonLoss (m : Mod) : Mod :=
  let m := m.tearWrite.coreLoss
  { time := { fresh := m.time.fresh }, med := m.med, upk := m.upk, fb := m.fb, nv := m.nv, nv2 := m.nv2, out := m.out,
    tly := { head := m.tly.head, pers := m.tly.pers } }

/-! ### Rails (R344–R346) -/

/-- Rails of a group. -/
def groupRails (g : Nat) : List Nat := (List.range 12).filter (fun k => lget railGroup k = g)
/-- Rails that an action on group `g` takes down: CORE takes every group but AON (R342). -/
def actRails (g : Nat) : List Nat := railOrder.filter (fun k => lget railGroup k = g || g = 1)
def Mod.railOn (m : Mod) (k : Nat) : Bool := match (m.rail k).st with | .inWindow | .faulted | .ramping => true | _ => false
def Mod.groupFailed (m : Mod) (g : Nat) : Bool := (groupRails g).any (fun k => (m.rail k).st = .failed)

/-- Bring-up has ended: hopper, media and ports train (R437). -/
def Mod.bringUpEnd (m : Mod) : Mod :=
  if m.pwr.phase = 1 then
    let m := { m with pwr := { m.pwr with phase := 2 } }
    if m.linksOn then (List.range 16).foldl (fun m p =>
      if (m.port p).perst then m else m.setPort p (fun x => { x with link := .training })) m else m
  else m

/-- The sequencer enables the next rail of the order that is off, groups that failed left out; with none left, bring-up has
ended. -/
def Mod.railNext (m : Mod) : Mod :=
  if m.pwr.m3Media || railOrder.any (fun k => (m.rail k).st = .ramping || (m.rail k).st = .retrying) then m
  else match railOrder.find? (fun k => (m.rail k).st = .off && !m.groupFailed (lget railGroup k)) with
    | some k => m.setRail k (fun r => { r with st := .ramping, since := m.time.dtc })
    | none => m.bringUpEnd

/-- Switch off the last rail of the order that is still on (R346). -/
def Mod.railDown (m : Mod) : Mod :=
  match railOrder.reverse.find? (fun k => m.railOn k || (m.rail k).st = .retrying) with
  | some k => ({ m with pwr := { m.pwr with falling := some k } }).setRail k (fun r => { r with st := .off, attempts := 0 })
  | none => { m with pwr := { m.pwr with falling := none } }

/-- A power-down begins (R346): CORE's functions end, the rails go off in reverse order. -/
def Mod.powerDown (m : Mod) (dst : DownTo) : Mod :=
  let m := m.coreLoss
  ({ m with pwr := { m.pwr with down := some dst } }).railDown

/-- Every rail but AON is cut at once (R361). -/
def Mod.powerCut (m : Mod) (dst : DownTo) : Mod :=
  let m := m.coreLoss
  let m := railOrder.foldl (fun m k => m.setRail k (fun r => { r with st := .off, attempts := 0 })) m
  { m with pwr := { m.pwr with down := some dst, falling := none } }

/-! ### The beginning of a start (R432, R433) -/

/-- An intrusive instruction is in the TAP's instruction register (R368). -/
def DbgSt.intrusive (d : DbgSt) : Bool := d.ir = 0 || d.ir = 4 || d.ir = 5

/-- PHASE 1: counts zero but the trip counts, selects zero, REQ and LEVEL DL0, CORE enabled. -/
def Mod.startPhase1 (m : Mod) : Mod :=
  let trip : Occ := { cnt := m.nv.tripCnt, ack := m.nv.tripAck }
  let m := { m with
    evt := { occ := tput {} [] cThTrip trip },
    path := { m.path with masters := tmap {} (fun x => { x with sel := [], shadow := 0, tag := none }) m.path.masters },
    pwr := { m.pwr with phase := 1, pstate := 0, down := none, tripDown := false, falling := none, startWait := false },
    dbg := { ir := m.dbg.ir, bsr := m.dbg.bsr },
    rep := { m.rep with safe := false } }
  let m := railOrder.foldl (fun m k => m.setRail k (fun _ => { ipeak := (m.rail k).ipeak })) m
  m.setRail 3 (fun r => { r with st := .ramping, since := m.time.dtc })

/-- A start begins, or waits in PHASE 0 while the TAP holds an intrusive instruction (R376). Log entry 4 (DEDUCED). -/
def Mod.startBegin (m : Mod) : Mod :=
  if m.dbg.intrusive then { m with pwr := { m.pwr with startWait := true } } else m.startPhase1

/-- Only AON is powered. -/
def Mod.aonOnly (m : Mod) : Bool := !m.pwr.aonReset && m.pwr.pstate = 4 && m.pwr.falling.isNone

/-- RAIL_IN_WINDOW. CORE in window begins the count of operation. -/
def Mod.railUp (m : Mod) (k : Nat) : Mod :=
  if (m.rail k).st = .ramping then
    let m := m.setRail k (fun r => { r with st := .inWindow, attempts := 0 })
    let m := if k = 3 then { m with pwr := { m.pwr with started := true }, time := { m.time with opsecAt := m.time.dtc } } else m
    let m := if 2 ≤ m.pwr.phase && lget railGroup k = 2 && m.linksOn then (List.range 16).foldl (fun m p =>
        if (m.port p).perst || (m.port p).link != .down then m else m.setPort p (fun x => { x with link := .training })) m else m
    if 3 ≤ k then m.railNext else m
  else m

/-- The snapshot of R347 and its record. -/
def Mod.railSnap (m : Mod) (k kind : Nat) : Mod :=
  let m := { m with pwr := { m.pwr with snap := m.pwr.chans, snapRail := k, snapKind := kind } }
  let words := (List.range 12).map (fun i => fld 16 (chanW m.pwr.snap (2 * i + 1)) ||| fld 0 (chanW m.pwr.snap (2 * i)))
  m.tallyWith 7 k islAon (leBytes 1 kind) (some words)

/-- RAIL_BRINGUP_TIMEOUT, 5 ms after the rail was enabled (R344): three attempts, then the rail has failed (R345). CORE's failure leaves AON alone. -/
def Mod.railTimeout (m : Mod) (k : Nat) : Mod :=
  if (m.rail k).st = .ramping && (m.rail k).since + 5000000 ≤ m.time.dtc then
    if (m.rail k).attempts < 2 then m.setRail k (fun r => { r with st := .retrying, attempts := r.attempts + 1, since := m.time.dtc })
    else
      let m := (m.setRail k (fun r => { r with st := .failed, kind := 5 })).railSnap k 5
      if k = 3 then { m with pwr := { m.pwr with pstate := 4 } } else m.railNext
  else m
/-- RAIL_RETRY_EXPIRY, 10 ms after the rail was switched off (R345, R348). -/
def Mod.railRetry (m : Mod) (k : Nat) : Mod :=
  if (m.rail k).st = .retrying && (m.rail k).since + 10000000 ≤ m.time.dtc then
    m.setRail k (fun r => { r with st := .ramping, since := m.time.dtc })
  else m

/-- RAIL_FALLEN: the next rail is switched off; with none left a Reset reaction starts again (R348). -/
def Mod.railFell (m : Mod) (k : Nat) : Mod :=
  if m.pwr.falling = some k then
    let m := m.railDown
    if m.pwr.falling.isNone && m.pwr.down = some .restart then m.startBegin else m
  else m

end Sys2Proof.Machine
end

