-- ==== Sys2Proof/Machine/Persist.lean ====
section
/-!
DEFINITION. Persistence (R187–R206, R211, R468): the capacitance test, the dirty budget, the debounce, Evacuate step by step,
the dirty roll, the orderly evacuation.
-/

namespace Sys2Proof.Machine

/-! ### The budget (R192) -/

/-- Hottest media die of the model, 0.1 °C. -/
def Mod.hotDie (m : Mod) : Int := ((m.th.t.filter (fun e => 64 ≤ e.1)).map (fun e => e.2.temp)).foldl max (0 : Int)
/-- Evacuate rate of 20 channels in units of 0.1 GB/s (R200). -/
def Mod.evRate (m : Mod) : Nat := if m.hotDie < 650 then 1336 else if m.hotDie < 750 then 1106 else 737
/-- Channels in service in sets that are not halted. -/
def Mod.evChans (m : Mod) : Nat :=
  total ([false, true].map (fun b => if m.setHalted b then 0 else (setSgs b).countP (fun c => !(m.mch c).failed)))

/-- The energy term of B in MiB at bank voltage `v` mV: V_FL = a / 140000 V, E_USE = n / 3.92e15 J. Log entry 45 (DEDUCED). -/
def energyMib (v cap esr rate chans : Nat) : Nat :=
  let a : Int := 1960000 + 134 * esr
  let n : Int := cap * ((140 * (v : Int)) ^ 2 - a ^ 2) - 43120000000000
  Int.toNat ((n - 4727520000000000) * rate * chans / (39200000 * 201 * 20 * 1048576))
def Mod.capMib (m : Mod) : Nat := bits (m.w 0 0x70024) 12 0
/-- B in bytes at a bank voltage. -/
def Mod.budgetAt (m : Mod) (v : Nat) : Nat := 1048576 * min m.capMib (energyMib v m.per.cap m.per.esr m.evRate m.evChans)

/-- The term that limits B (PER_BUDLIM): 4 while the bank is below its charged range. -/
def Mod.budgetTerm (m : Mod) (v : Nat) : Nat :=
  if m.capMib ≤ energyMib v m.per.cap m.per.esr m.evRate m.evChans then 0 else if v < 31800 then 4 else 1

/-- BUDGET_RECOMPUTE: the value that applies at the next boundary. Zero until recovery is complete and a test has passed. -/
def Mod.budgetCompute (m : Mod) (vhu : Nat) : Mod :=
  let m := { m with per := { m.per with vhu := vhu, recharge := m.per.recharge && decide (vhu < 31800) } }
  let v := if m.per.testPending.isSome then min vhu 30000 else vhu
  let next : Nat × Nat :=
    if m.pwr.phase < 4 || !m.per.tested then (0, 2) else if m.per.testFailed then (0, 3) else (m.budgetAt v, m.budgetTerm v)
  { m with per := { m.per with budgetNext := some next } }

/-- At a boundary: the new budget, and PHASE 5 with ARMED at the first at which B is above zero and DT ≤ B (R193, R202, R437). -/
def Mod.budgetApply (m : Mod) : Mod :=
  match m.per.budgetNext with
  | none => m
  | some (b, t) =>
    if m.pwr.phase = 4 then
      if b != 0 && m.dt ≤ b then
        ({ m with per := { m.per with budget := b, term := t, budgetNext := none, everBudget := true },
                  pwr := { m.pwr with phase := 5 }, rep := { m.rep with safe := false } }).seedWrite (.prec .armed)
      else { m with per := { m.per with term := t } }
    else { m with per := { m.per with budget := b, term := t, budgetNext := none } }

/-- A rise of DT above B is counted (R425). -/
def Mod.overCheck (m : Mod) : Mod :=
  let o : Bool := m.per.everBudget && m.budget < m.dt
  let m' := { m with per := { m.per with overDT := o } }
  if o && !m.per.overDT then m'.bump cHoldup else m'

/-! ### The capacitance test (R190, R191) -/

/-- A test starts: at start-up and after a failure at once, later only while DT is within the budget at 30.0 V. -/
def Mod.capStart (m : Mod) : Mod :=
  if m.per.debounce.isSome || m.per.evac.isSome || m.per.testing || m.pwr.phase = 0 then m
  else if !m.per.tested || m.per.testFailed then { m with per := { m.per with testing := true } }
  else if m.dt ≤ m.budgetAt 30000 then { m with per := { m.per with testing := true, testPending := none } }
  else { m with per := { m.per with testPending := some (m.per.testPending.getD (m.time.dtc + 10000000000)),
                                    budgetNext := some (m.budgetAt 30000, 1) } }
/-- CAP_TEST_START: the start-up test; INTERVAL after the last test that passed; 60 s after one that failed or was deferred (R190, R191); a
test that waits for DT to come within the lower budget. -/
def Mod.capTimer (m : Mod) : Mod :=
  let due : Bool := !m.per.tested || m.per.testFailed || m.per.testPending.isSome ||
    m.per.testAt + bits (m.w 0 0x70010) 4 0 * 3600000000000 ≤ m.time.dtc
  if due && m.per.testWait ≤ m.time.dtc then m.capStart else m
/-- 10 s have passed and dirty data is still above the lower budget: the test is deferred by 60 s. -/
def Mod.capDefer (m : Mod) : Mod :=
  if m.per.testPending.any (· ≤ m.time.dtc) && m.budgetAt 30000 < m.dt then
    ({ m with per := { m.per with testPending := none, testWait := m.time.dtc + 60000000000 } }).bump cHoldup
  else m
/-- The test ends with C in 0.01 mF and ESR in 0.1 mΩ. -/
def Mod.capDone (m : Mod) (cap esr : Nat) : Mod :=
  if m.per.testing then
    if 2200 ≤ cap && esr ≤ 2000 then
      { m with per := { m.per with testing := false, recharge := true, tested := true, testFailed := false, testAt := m.time.dtc, cap := cap, esr := esr } }
    else
      ({ m with per := { m.per with testing := false, recharge := true, testFailed := true, testWait := m.time.dtc + 60000000000, budget := 0, budgetNext := none, term := 3 } }).bump cHoldup
  else m

/-! ### The dirty roll (R205) -/

/-- Pages that are dirty now. -/
def Mod.dirtyPages (m : Mod) : List Nat := ((m.hop.frames.filter (fun e => e.2.d)).map (fun e => e.2.page)).eraseDups
def Mod.rollRuns (m : Mod) : Bool := 4 ≤ m.pwr.phase && m.per.evac.isNone && m.pwr.pstate < 3
/-- The window in progress began where the newest roll entry ends, or with this millisecond. -/
def Mod.rollSince (m : Mod) : Nat := (m.nv2.roll.map (·.endDtc)).foldl max (m.time.dtc / 1000000 * 1000000 - 1000000)
/-- A roll page with the staged page numbers. Log entry 53 (DESIGN CHOICE). -/
def Mod.rollPage (m : Mod) : Mod :=
  if m.rollRuns then
    { m with nv2 := { m.nv2 with roll := m.nv2.roll ++ [{ base := false, endDtc := m.time.dtc, pages := m.rep.rollStaged, e := m.nv2.evSeq, start := m.rollSince }] },
             rep := { m.rep with rollStaged := [] } }
  else m
/-- A roll base; the ring keeps nothing before it. -/
def Mod.rollBase (m : Mod) : Mod :=
  if m.rollRuns then
    { m with nv2 := { m.nv2 with roll := [{ base := true, endDtc := m.time.dtc, pages := m.dirtyPages, e := m.nv2.evSeq, start := m.time.dtc }] },
             rep := { m.rep with rollStaged := [] } }
  else m
/-- XBAR stages the page of every frame that has become dirty, and of one still dirty as its cleaning ends. -/
def Mod.rollStage (old m : Mod) : Mod :=
  let fs := m.hop.frames.filter (fun e =>
    e.2.d && (let o := old.frame e.1; !o.d || o.page != e.2.page || (o.cleaning && !e.2.cleaning)))
  if fs.isEmpty then m
  else { m with rep := { m.rep with rollStaged := (m.rep.rollStaged ++ fs.map (fun e => e.2.page)).eraseDups } }

/-! ### The debounce (R194, R195, R340) -/

/-- The module drives PWRFAIL_N low from the commit of an Evacuate until it powers down (R194). -/
def Mod.drivesPwrfail (m : Mod) : Bool := m.per.evac.isSome
/-- An undervoltage, PWRFAIL_N or an overvoltage starts the debounce. With only AON powered there is nothing to protect. -/
def Mod.debounceStart (m : Mod) (cause : Nat) : Mod :=
  if m.per.debounce.isSome || m.per.evac.isSome || m.pwr.phase = 0 || m.pwr.aonReset then m
  else ({ m with per := { m.per with debounce := some m.time.dtc, debounceCause := cause } }).rollPage

/-! ### Evacuate -/

/-- The medium cannot be programmed: rails of the MEDIA group (R211). -/
def Mod.evSetOf (m : Mod) (f : EvacSt → EvacSt) : Mod := { m with per := { m.per with evac := m.per.evac.map f } }

/-- Partial writes whose line is neither resident nor on its way over transfers already fixed (R197). -/
def Mod.unfixed (m : Mod) (r : Req) : Bool :=
  r.op = .ptl && r.answer.isNone && !r.free && (m.findLine (r.line / 64) (r.line % 64)).isNone && m.mediaLoc (r.line / 64) != 0 &&
    !m.med.reads.any (fun x => x.book.isSome && x.page = r.line / 64 && x.cw = r.line % 64 / 4)

/-- Rows that were not started are given up; their frames are dirty as before (R197). -/
def Mod.dropRows (m : Mod) : Mod :=
  let fs := (m.med.rows.filter (fun r => !r.started && r.wr = .clean)).flatMap (fun r => r.pages.filterMap (·.frame))
  let m := { m with med := { m.med with rows := m.med.rows.filter (·.started) } }
  fs.foldl (fun m f => m.setFrame f (fun x => { x with dirty := x.dirtyAll, copied := 0, cleaning := false })) m

/-- A staged transaction that has not applied is discarded and recorded (R252). Log entry 54 (DEDUCED). -/
def Mod.discardStaged (m : Mod) : Mod :=
  let m := m.fore.staged.foldl (fun m t => m.tally 3 t.org.code islFore (leBytes 8 0 ++ leBytes 4 t.org.ticket ++ leBytes 1 1)) m
  { m with fore := { m.fore with staged := [], commitQ := [] } }

/-- Evacuate commits with a cause (R196, R197): credits and array reads stop, programs end, the Seed Store takes
EVACUATING(E). -/
def Mod.evacStart (m : Mod) (cause : Nat) : Mod :=
  let e := m.nv2.evSeq + 1
  let m := { m with nv2 := { m.nv2 with evSeq := e }
                    per := { m.per with evac := some { step := 2, cause, at_ := m.time.dtc }, orderly := none, orderlyCk := none, orderlyRec := false,
                                        debounce := none, testing := false, testPending := none }
                    rep := { m.rep with evseq := e, evcause := cause }
                    hop := { m.hop with selfRef := false }
                    pwr := { m.pwr with phase := 6, pstate := 0, waking := false } }
  let m := (m.bump cEvac).seedWrite (.evacuating e)
  let m := ((m.abortAll 0xF2).discardStaged).scansEnd
  let m := if m.dbg.mcmd.any (fun o => o.msn.isNone) && !m.hop.access.any (fun a => a.who = .debug) then m.lineDeadline .debug else m
  let m := (m.host.reqs.filter m.unfixed).foldl (fun m r => m.poisonReq r) m
  ({ m with med := { m.med with reads := m.med.reads.filter (fun r => r.book.isSome), moves := [] } }).dropRows

/-- A cause of R196 arises. Before ARMED is written it powers the module down instead (R441). -/
def Mod.evacCommit (m : Mod) (cause : Nat) : Mod :=
  if m.per.evac.isSome || m.pwr.phase = 0 || m.pwr.aonReset then m
  else if m.per.everBudget then m.evacStart cause
  else m.powerDown (m.pwr.down.getD .m4)

/-- DEBOUNCE_END (R195). -/
def Mod.debounceEnd (m : Mod) (good pfHigh : Bool) : Mod :=
  match m.per.debounce with
  | none => m
  | some _ =>
    let m := { m with per := { m.per with debounce := none } }
    if good && pfHigh then m.bump cPf else m.evacCommit m.per.debounceCause

/-- Take `n` Free blocks for the image, sets in turn (R199). -/
def Mod.evacBlks : Nat → Bool → Mod → List Nat → List Nat × Mod
  | 0, _, m, l => (l, m)
  | n + 1, b, m, l =>
    let ok := fun (b : Bool) => m.setFree b != 0 && !m.setHalted b
    match (if ok b then m.pickGroup b else if ok (!b) then m.pickGroup (!b) else none) with
    | none => (l, m)
    | some g => match m.pickFree g false with
      | none => (l, m)
      | some x => Mod.evacBlks n (!b) (m.setBlk (bkey g x) (fun y => { y with st := .metadata, wr := some .evac })) (l ++ [bkey g x])

/-- The manifest: every dirty frame that no image holds, with its dirty lines, each followed by its dirty tag block's sidecar record
(R198 step 3, R201, R336). -/
def Mod.manifest (m : Mod) : List ManRec :=
  (m.hop.frames.filter (fun e => !e.2.imgHeld && !(m.crec (m.regionOfPage e.2.page)).erasing)).flatMap (fun e =>
    (if e.2.dirtyAll = 0 then [] else
      [{ page := e.2.page, mask := e.2.dirtyAll, poison := (m.psn e.2.page).mask,
         lines := (List.range 64).foldl (fun t j =>
           if e.2.dirtyAll.getLsbD j then tput {} t j { (m.cellAt e.1 j) with flip := 0 } else t) [] }]) ++
    (if e.2.tagDirty = 0 then [] else [{ page := e.2.page, mask := e.2.tagDirty.zeroExtend 64, poison := 0, lines := [], side := true }]))
/-- Image lines of a manifest. -/
def manLines (l : List ManRec) : Nat := total (l.map (fun r => popcount r.mask))

/-- Images hold only what frames still reference (R209): a record whose frame is no longer image-held is dropped, and the blocks of an
image that holds none are released. Log entry 110 (DEDUCED). -/
def Mod.keepHeld (m : Mod) : Mod :=
  let held := (m.hop.frames.filter (fun e => e.2.imgHeld)).map (fun e => e.2.page)
  let imgs := m.nv2.images.map (fun i =>
    let man := i.man.filter (fun r => held.contains r.page)
    { i with man, lost := i.lost.filter (fun p => held.contains p), written := manLines man })
  let gone := imgs.filter (fun i => i.man.isEmpty)
  ({ m with nv2 := { m.nv2 with images := imgs.filter (fun i => !i.man.isEmpty) } }).releaseBlks (gone.flatMap (fun (i : Image) => i.blks))
/-- The record of a module with nothing dirty but image-held frames: CLEAN without such frames, else EVACUATED of the newest image that
holds one (R206, R208 step 10). Log entry 110 (DEDUCED). -/
def Mod.endRec (m : Mod) : PRec :=
  match m.nv2.images.getLast? with
  | some i => if m.imgHeldN = 0 then .clean else .evacuated i.e
  | none => .clean

/-- Steps 3 and 4: queues drained, merges completed, the manifest durable. -/
def Mod.evacManifest (m : Mod) : Mod :=
  match m.per.evac with
  | none => m
  | some ev =>
    if ev.step != 2 || ev.noManifest then m
    else
      let m := m.drainAll.retryWrites
      let m := (((m.hop.merge.filter (fun e => e.acked)).foldl (fun m e => m.completeMerge e) m).drainAll).keepHeld
      let man := m.manifest
      let lines := manLines man
      let rows := cdiv (cdiv lines 63 + cdiv man.length 168) 32
      let t := Mod.evacBlks (cdiv rows 512) false m []
      let old := (m.nv2.images.map (·.e)).foldl min m.nv2.evSeq
      let img : Image := { e := m.nv2.evSeq, man, cause := ev.cause, oldest := if m.imgHeldN = 0 then 0 else old, blks := t.1, dtc := ev.at_,
                           flags := if m.imgHeldN = 0 then 0 else 4 }
      let m := { t.2 with nv2 := { t.2.nv2 with images := t.2.nv2.images ++ [img] } }
      m.evSetOf (fun e => { e with step := 4 })

/-- Every transmitter goes to electrical idle; the Twin Link is down (R198 step 5). -/
def Mod.linksOff (m : Mod) : Mod :=
  let m := (List.range 16).foldl (fun m p => m.linkDown p) m
  let m := m.emit .linksOff
  ({ m with twin := { m.twin with trained := false, helloed := false } }).breakPair 5
/-- Links off waits until the twin has acknowledged every record sent, or until 25 µs after the commit (R227). -/
def Mod.evacLinks (m : Mod) : Mod :=
  match m.per.evac with
  | some ev =>
    if (ev.step = 4 || (ev.noManifest && ev.step = 2)) && (!m.linkUp || !m.twin.recs.any (·.sent) || ev.at_ + 25000 ≤ m.time.dtc) then
      m.linksOff.evSetOf (fun e => { e with step := 5 })
    else m
  | none => m

/-- Change the image being written. -/
def Mod.setImage (m : Mod) (f : Image → Image) : Mod :=
  { m with nv2 := { m.nv2 with images := lmod (fun i => i.e = m.nv2.evSeq) f m.nv2.images } }

/-- Pages whose frames were lost with their channel, or with the hopper's supply, before their image was written. -/
def Mod.evacLost (m : Mod) (ev : EvacSt) (i : Image) : List Nat :=
  (i.man.filter (fun r => ev.hopLost ||
    (m.hop.frames.any (fun e => e.2.page = r.page && e.2.dirtyAll != 0 && !e.2.imgHeld && (m.hch (m.chanOf e.1)).failed)))).map (·.page)

/-- Step 6: the last image row has verified. Log entry 48 (DEDUCED). -/
def Mod.evacImage (m : Mod) : Mod :=
  match m.per.evac with
  | some ev =>
    if ev.step = 5 && !ev.noManifest && !ev.abandoned then
      (m.setImage (fun i => { i with complete := true, written := manLines i.man, lost := m.evacLost ev i, flags := Nat.lor i.flags ev.hopLost.toNat })).evSetOf
        (fun e => { e with step := 6 })
    else m
  | none => m

/-- The staged records in journal pages, as many as it takes (R135). -/
def tailPages : Nat → Nat → Nat → Nat → List JRec → List JPage
  | 0, _, _, _, _ => []
  | n + 1, seq, dtc, prev, l =>
    if l.isEmpty then [] else { seq, dtc, recs := l.take 254, durAt := dtc, prev } :: tailPages n (seq + 1) dtc 0 (l.drop 254)
/-- The journal tail and the metadata delta become durable (R198 step 7): the pages under way and those of the staged records. -/
def Mod.tailDurable (m : Mod) : Mod :=
  let tail := tailPages (m.med.staged.length / 254 + 1) m.med.jnext m.time.dtc m.lastJLoc (m.med.staged.map (·.1))
  let n := m.med.jnext + tail.length
  let ids := (m.med.rows.filter (fun r => r.wr = .journal)).map (·.id)
  ({ m with med := { m.med with
      staged := [], jopen := [], jnext := n, jdur := n - 1, rows := m.med.rows.filter (fun r => !ids.contains r.id),
      jpages := m.med.jpages ++ (m.med.jopen.map (fun (q : JPage) => { q with durAt := m.time.dtc }) ++ tail),
      dies := tmap {} (fun (d : Die) => if d.op.any (fun (o : DieOp) => !o.reset && ids.contains o.key) then { d with op := none } else d) m.med.dies } }).saveMeta
def Mod.evacMeta (m : Mod) : Mod :=
  match m.per.evac with
  | some ev =>
    if (ev.step = 6 || (ev.noManifest && ev.step = 5)) && !ev.abandoned then m.tailDurable.evSetOf (fun e => { e with step := 7 }) else m
  | none => m

/-- Step 8: the marker is durable; EVACUATED(E) and the DTC go to the Seed Store. Past the marker threshold it says how many image lines
were written (R468). Log entry 115 (DESIGN CHOICE). -/
def Mod.evacMarker (m : Mod) : Mod :=
  match m.per.evac with
  | some ev =>
    if !ev.noManifest && (ev.step = 7 || (ev.abandoned && 4 ≤ ev.step && ev.step < 7)) then
      let m := m.setImage (fun i => { i with
        marker := true, markDtc := m.time.dtc, written := if ev.abandoned then min (manLines i.man) (Config.imageLines i.e) else i.written, flags := Nat.lor i.flags (2 * ev.abandoned.toNat + ev.hopLost.toNat) })
      let m := { m with rep := { m.rep with evtime := (m.time.dtc - ev.at_) / 1000 } }
      ((m.seedWrite (.prec (.evacuated m.nv2.evSeq))).saveDtc).evSetOf (fun e => { e with step := 8 })
    else m
  | none => m
/-! ### What an image puts on the medium (R199, R201, R202) -/

/-- Manifest records with the index of the image line that holds their first dirty line. -/
def manIndex : Nat → List ManRec → List (ManRec × Nat)
  | _, [] => []
  | n, r :: t => (r, n) :: manIndex (n + popcount r.mask) t
/-- A manifest record: the sidecar bit is bit 31 of its last word. -/
def manBytes (e : ManRec × Nat) : List Byte :=
  leBytes 4 e.1.page ++ leBytes 8 e.1.mask.toNat ++ leBytes 8 e.1.poison.toNat ++ leBytes 4 (e.2 % 2 ^ 31 + 2 ^ 31 * e.1.side.toNat)
/-- Manifest page `k` of an image: header, up to 168 records. -/
def Image.manPage (i : Image) (k : Nat) : List Byte :=
  let recs := ((manIndex 0 i.man).drop (168 * k)).take 168
  let head : List Byte := leBytes 8 i.e ++ leBytes 4 k ++ leBytes 4 (cdiv i.man.length 168) ++ leBytes 2 recs.length ++ leBytes 2 0 ++ leBytes 8 i.dtc
  let body : List Byte := recs.flatMap manBytes
  let pad : List Byte := List.replicate (4064 - 24 * recs.length) 0
  head ++ leBytes 4 (crc32c (head ++ leBytes 4 0 ++ body ++ pad)) ++ body ++ pad
/-- Image page `k`: its header and up to 63 lines; `first` is the manifest record of its first line. -/
def imagePage (e k first : Nat) (lines : List Line) : List Byte :=
  let n := min 63 lines.length
  let head : List Byte := leBytes 8 e ++ leBytes 4 k ++ leBytes 4 first ++ leBytes 1 n ++ List.replicate 43 0
  let body : List Byte := (lines.take 63).flatMap (fun d => leBytes 64 d.toNat)
  let pad : List Byte := List.replicate (64 * (63 - n)) 0
  head ++ leBytes 4 (crc32c (head ++ leBytes 4 0 ++ body ++ pad)) ++ body ++ pad
/-- The completion marker; it lies in slot E mod 2. -/
def Image.markBytes (i : Image) : List Byte :=
  let at_ : Nat := match i.blks with | k :: _ => mkEntry (k / 16384) (lget (dataDies (k % 16384)) 0) (k % 16384) 0 | [] => 0
  let b : List Byte := leBytes 8 i.e ++ leBytes 8 i.markDtc ++ leBytes 5 at_ ++ leBytes 4 i.man.length ++ leBytes 4 i.written ++
    leBytes 4 i.lost.length ++ leBytes 1 i.cause ++ leBytes 1 i.flags ++ leBytes 8 i.oldest ++ List.replicate 4049 0
  b ++ leBytes 4 (crc32c (b ++ leBytes 4 0))

/-- What the power-down at the end of an Evacuate leads to: the reaction or trip that caused it (R204, R348, R363). -/
def Mod.evacDown (m : Mod) (ev : EvacSt) : DownTo :=
  if ev.cause = 7 then (match m.pwr.down with | some d => d | none => .stay) else .m4

/-- Step 9. -/
def Mod.evacPower (m : Mod) : Mod :=
  match m.per.evac with
  | some ev =>
    if ev.step = 8 || (ev.noManifest && ev.step = 7) then
      let m := if ev.noManifest then m.saveDtc else m
      let m' := m.powerDown (m.evacDown ev)
      { m' with pwr := { m'.pwr with tripDown := ev.cause = 3 } }
    else m
  | none => m

/-- VHU reaches V_MK before the marker is started (R468). -/
def Mod.markerCut (m : Mod) : Mod :=
  match m.per.evac with
  | some ev => if 4 ≤ ev.step && ev.step < 7 && !ev.noManifest then m.evSetOf (fun e => { e with abandoned := true }) else m
  | none => m
/-- VHU reaches the floor: power goes where Evacuate stands (R211). -/
def Mod.floorCut (m : Mod) : Mod := if m.per.evac.isSome then m.powerDown .m4 else m

/-- After step 8 VIN has been good for 10 ms: a full start (R204), unless the power-down waits for a command. -/
def Mod.vinReturn (m : Mod) : Mod :=
  let done : Bool := match m.per.evac with | some ev => 8 ≤ ev.step && m.evacDown ev = .m4 && ev.cause != 3 | none => m.pwr.down = some .m4
  if done && !m.pwr.aonReset && !m.pwr.tripDown then
    (if m.per.evac.isSome then m.powerCut .m4 else m).startBegin
  else m

/-! ### The debug level (R370, R371) -/

/-- Every debug halt ends. -/
def Mod.debugRelease (m : Mod) : Mod :=
  ((List.range 8).foldl (fun m f => m.setFm f (fun x => { x with haltReq := false, halted := false })) m).setW 0 0x130010 0

/-- LEVEL at a boundary of AON: the lower of REQ and MAXLVL; DL0 in M4. -/
def Mod.debugLevel (m : Mod) : Mod :=
  let old := m.dbg.level
  let new := if m.pwr.pstate = 4 then 0 else min m.dbg.req (bits (m.w 0 0x130004) 1 0)
  let m := { m with dbg := { m.dbg with level := new } }
  if new = old then m
  else
    let m := m.tally 9 0 islAon (leBytes 1 old ++ leBytes 1 new)
    let m := if old < new && 2 ≤ new then m.bump cDbg else m
    if new < 2 then m.debugRelease else m

/-! ### Orderly evacuation (R206) -/

/-- On the way to M4, with foremen halted, LEVEL falls to DL0 first (R378). -/
def Mod.haltsEnd (m : Mod) (code : Nat) : Mod :=
  if code != 3 && m.fore.fm.any (fun e => e.2.haltReq) then ({ m with dbg := { m.dbg with req := 0 } }).debugLevel else m
/-- Begin one: 1 for PER_SHUT, 3 and 4 for PWR_PCMD. -/
def Mod.orderlyStart (m : Mod) (code : Nat) : Mod :=
  if m.per.evac.isSome || m.per.orderly.isSome || m.pwr.phase < 4 || 3 ≤ m.pwr.pstate then m
  else
    let m := m.haltsEnd code
    { m with per := { m.per with orderly := some code, orderlyCk := none, orderlyRec := false }, pwr := { m.pwr with phase := 7, pstate := min m.pwr.pstate 1, waking := false },
                hop := { m.hop with selfRef := false } }

/-- Step 3's condition: nothing dirty but image-held frames, nothing in the queues, every record durable. -/
def Mod.quiet (m : Mod) : Bool :=
  m.allClean && m.hop.pwq.isEmpty && m.hop.merge.all (fun e => !e.acked) && m.inFlight = 0 && !m.med.rows.any (fun r => r.wr = .clean) &&
    m.med.staged.isEmpty && m.med.jopen.isEmpty && m.twin.recs.isEmpty

/-- The orderly evacuation's next step: the checkpoint, then its record and the DTC (R17, R206). -/
def Mod.orderlyStep (m : Mod) : Mod :=
  match m.per.orderly, m.per.orderlyCk with
  | some _, none =>
    if m.quiet && m.med.ckRun.isNone then
      let m := m.ckStart
      { m with per := { m.per with orderlyCk := m.med.ckRun.map (·.seq) } }
    else m
  | some _, some s =>
    if s ≤ m.med.ckLast && !m.per.orderlyRec then
      let m := m.keepHeld
      (({ m with per := { m.per with orderlyRec := true } }).seedWrite (.prec m.endRec)).saveDtc
    else m
  | none, _ => m
/-- The record is durable after the checkpoint: the evacuation is complete. -/
def Mod.orderlyDone (m : Mod) : Bool := m.per.orderly.isSome && m.per.orderlyRec && m.seed.running.isNone && m.seed.queue.isEmpty

end Sys2Proof.Machine
end

