-- ==== Sys2Proof/Machine/Power.lean ====
section
/-!
DEFINITION. Rail faults and reactions (R347–R350), power states (R351–R355), the thermal model's levels and actions
(R356–R363).
-/

namespace Sys2Proof.Machine

/-! ### Rail faults -/

/-- A LINK rail stops: every link goes down and the pair breaks with cause DOWN (R348). -/
def Mod.linkRailOff (m : Mod) : Mod :=
  let m := (List.range 16).foldl (fun m p => if (m.port p).link = .down then m else m.linkDown p) m
  ({ m with twin := { m.twin with trained := false, helloed := false } }).breakPair 5

/-- What a rail that has dropped takes from an Evacuate (R211). -/
def Mod.evacRailDrop (m : Mod) (k : Nat) : Mod :=
  match m.per.evac with
  | none => m
  | some ev =>
    match lget railGroup k with
    | 3 => if ev.step < 4 then m.evSetOf (fun e => { e with noManifest := true })
        else if ev.step < 6 then m.evSetOf (fun e => { e with hopLost := true }) else m
    | 4 | 1 => m.powerDown .m4
    | 2 => if ev.step < 5 then m.linksOff else m
    | _ => m

def Mod.groupEvac (m : Mod) (k : Nat) (dst : DownTo) (dropped : Bool) : Mod :=
  let m := ({ m with pwr := { m.pwr with down := some dst } }).evacCommit 7
  if dropped then m.evacRailDrop k else m

/-- The Group reaction of a rail (R348). -/
def Mod.railGroupAct (m : Mod) (k : Nat) (dropped : Bool) : Mod :=
  if lget railGroup k = 2 then
    ((groupRails 2).foldl (fun m j => m.setRail j (fun r => { r with st := .shut })) m).linkRailOff
  else m.groupEvac k .stay dropped

/-- Retries of a rail in the last 60 min. -/
def Mod.railRetries (m : Mod) (k : Nat) : Nat := (m.rail k).retryAt.countP (fun t => m.time.dtc < t + 3600000000000)

/-- The reaction of the policy entry (R348, R349). Log entry 58 (DEDUCED). -/
def Mod.railReaction (m : Mod) (k : Nat) (dropped : Bool) : Mod :=
  match bits (m.tab (0x101000 + 4 * k)) 31 30 with
  | 1 =>
    if 3 ≤ m.railRetries k then m.railGroupAct k dropped
    else
      let now := m.time.dtc
      (m.setRail k (fun r => { r with st := .retrying, attempts := 0, since := now,
                                      retryAt := r.retryAt.filter (fun t => now < t + 3600000000000) ++ [now] })).linkRailOff
  | 2 => m.railGroupAct k dropped
  | 3 => m.groupEvac k .restart dropped
  | _ => m.setRail k (fun r => { r with st := .faulted })

def railKindCode : RailKind → Nat | .under => 1 | .overvolt => 2 | .overcurrent => 3 | .protection => 4

/-- The monitor's latest cycle of 24 channels (R343). A recharge after a test has ended once VHU is back in its charged range. Log entry 119
(DEDUCED). -/
def Mod.setChans (m : Mod) (l : List (BitVec 16)) : Mod :=
  if l.length = 24 then
    let m := { m with pwr := { m.pwr with chans := l } }
    { m with per := { m.per with vhu := chanW l 3, recharge := m.per.recharge && decide (chanW l 3 < 31800) } }
  else m

/-- RAIL_FAULT: snapshot, count, record, reaction; none while an Evacuate runs, and none of VHU during a test or the
recharge after it (R347, R350). -/
def Mod.railFaulted (m : Mod) (k : Nat) (kind : RailKind) (readings : List (BitVec 16)) : Mod :=
  let st := (m.rail k).st
  if !(st = .inWindow || st = .faulted) || m.pwr.aonReset || (k = 1 && (m.per.testing || m.per.recharge)) then m
  else
    let m := (m.setChans readings).setRail k (fun r => { r with kind := railKindCode kind })
    let m := (m.railSnap k (railKindCode kind)).bump (cRail k)
    let dropped : Bool := kind = .protection
    if m.per.evac.isSome then
      if dropped then (m.setRail k (fun r => { r with st := .shut })).evacRailDrop k else m
    else m.railReaction k dropped

/-- PWR_RCMD with RESTART on a rail (R365). -/
def Mod.railRestart (m : Mod) (k : Nat) : Mod :=
  let g := lget railGroup k
  if k = 3 && m.aonOnly then m.startBegin
  else if 2 ≤ g && g ≤ 4 && m.pwr.phase != 0 && !m.pwr.m3Media &&
      (groupRails g).all (fun j => let s := (m.rail j).st; s = .off || s = .shut || s = .failed) then
    ((groupRails g).foldl (fun m j => m.setRail j (fun r => { r with st := .off, attempts := 0 })) m).railNext
  else m

/-! ### Power states -/

/-- Orderly evacuation complete: M3, with the MEDIA group off and the Twin Link down, or M4 (R206, R351, R353). -/
def Mod.standby (m : Mod) : Mod :=
  if m.orderlyDone then
    let code := m.per.orderly.getD 1
    let m := { m with per := { m.per with orderly := none, orderlyCk := none, orderlyRec := false }, rep := { m.rep with safe := true } }
    if code = 3 then
      let m := [11, 9, 10].foldl (fun m k => m.setRail k (fun r => { r with st := .off })) m
      let m := ({ m with twin := { m.twin with trained := false, helloed := false } }).breakPair 5
      { m with pwr := { m.pwr with pstate := 3, m3Media := true }, hop := { m.hop with selfRef := true } }
    else (m.linksOff).powerDown .stay
  else m

/-- M3 is left: the MEDIA rails come up (R353). -/
def Mod.leaveM3 (m : Mod) : Mod :=
  ({ m with pwr := { m.pwr with m3Media := false, m3Exit := true, waking := true } }).railNext
/-- The MEDIA group is back: the hopper leaves self-refresh and ARMED is written (R353). -/
def Mod.m3Back (m : Mod) : Mod :=
  if m.pwr.m3Exit && m.pwr.pstate = 3 && m.hop.selfRef && [9, 10, 11].all (fun k => (m.rail k).st = .inWindow) then
    ({ m with hop := { m.hop with selfRef := false }, rep := { m.rep with safe := false } }).seedWrite (.prec .armed)
  else m
/-- At the first boundary after that record is durable M0 is reached, and credits are returned (R353). -/
def Mod.m3Open (m : Mod) : Mod :=
  if m.pwr.m3Exit && m.pwr.pstate = 3 && !m.hop.selfRef && m.nv.prec = .armed then
    { m with pwr := { m.pwr with pstate := 0, phase := 5, m3Exit := false, waking := false } }
  else m

/-- PWR_PCMD applies with a code (R351). -/
def Mod.pcmd (m : Mod) (v : Nat) : Mod :=
  let ps := m.pwr.pstate
  if v = 0 then (if ps = 4 then (if m.aonOnly then m.startBegin else m) else if ps = 3 then m.leaveM3 else m)
  else if ps < 3 then m.orderlyStart v
  else if ps = 3 && v = 4 then
    let m' := m.powerDown .stay
    if m.pwr.m3Exit then m'.seedWrite (.prec m.endRec) else m'
  else m

/-- No host request is outstanding on any port. -/
def Mod.hostIdle (m : Mod) : Bool := m.host.reqs.isEmpty && m.host.held.isEmpty
def Mod.portsIdle (m : Mod) : Bool := m.host.ports.all (fun e => e.2.link = .l1 || e.2.link = .down || e.2.link = .training)
/-- M0 and M1 follow the ports (R351); a doze condition that ceases wakes the module (R352). Log entry 50 (DEDUCED). -/
def Mod.idleState (m : Mod) : Mod :=
  let idle : Bool := m.pwr.phase = 5 && m.hostIdle && m.portsIdle && m.per.evac.isNone && m.per.orderly.isNone
  if m.pwr.pstate = 0 && idle then { m with pwr := { m.pwr with pstate := 1, m1At := m.time.dtc } }
  else if m.pwr.pstate = 1 && !idle then { m with pwr := { m.pwr with pstate := 0 } }
  else if m.pwr.pstate = 2 && !m.pwr.waking && (m.dozeBlocked || !m.portsIdle) then { m with pwr := { m.pwr with waking := true } }
  else m
/-- M1 has held for PWR_DOZE.TIME (R351). -/
def Mod.dozeDue (m : Mod) : Bool := m.pwr.m1At + bits (m.w 0 0xA0108) 15 0 * 1000000 ≤ m.time.dtc
/-- DOZE_TIMER. -/
def Mod.doze (m : Mod) : Mod :=
  if m.pwr.pstate = 1 && bit (m.w 0 0xA0108) 31 && m.dozeDue && !m.dozeBlocked then
    { m with pwr := { m.pwr with pstate := 2 }, hop := { m.hop with selfRef := true } }
  else m
/-- WAKE_COMPLETE. -/
def Mod.wake (m : Mod) : Mod :=
  if m.pwr.pstate = 2 && m.pwr.waking then
    { m with pwr := { m.pwr with pstate := 1, m1At := m.time.dtc, waking := false }, hop := { m.hop with selfRef := false } }
  else m

def Mod.l1Enter (m : Mod) (p : Nat) : Mod :=
  if (m.port p).link = .l0 && m.host.reqs.all (fun r => r.lp / 16 != p) && m.host.held.all (fun h => h.req.lp / 16 != p) then
    m.setPort p (fun x => { x with link := .l1 })
  else m
/-- A port begins L1 exit: from M2 it stays in Recovery until the module has woken (R352). -/
def Mod.l1Exit (m : Mod) (p : Nat) : Mod :=
  if (m.port p).link = .l1 then
    if m.pwr.pstate = 2 then ({ m with pwr := { m.pwr with waking := true } }).setPort p (fun x => { x with link := .recovery })
    else m.linkUpL0 p
  else m
def Mod.linkReturn (m : Mod) (p : Nat) : Mod :=
  if (m.port p).link = .recovery && m.pwr.pstate != 2 && m.linksOn then m.linkUpL0 p else m

/-! ### Thermal (R356–R363); temperatures in 0.1 °C -/

/-- Neighbours of a direct sensor, as indices of accepted readings (R358). -/
def thNeighbours (i : Nat) : List Nat :=
  if i < 6 then [(i + 5) % 6, (i + 1) % 6] else if i < 9 then [6, 7, 8].filter (· != i) else if i = 9 then [10, 22]
  else if i = 10 then [9, 36] else []

/-- Rate limit of a class, and its thresholds warn, throttle, critical, trip. -/
def Mod.thRate (m : Mod) (c : Nat) : Int := bits (m.w 0 (0xB0104 + 8 * c)) 7 0
def Mod.thLim (m : Mod) (c : Nat) : List Int :=
  let w := m.w 0 (0xB0100 + 8 * c)
  [10 * bits w 7 0, 10 * bits w 15 8, 10 * bits w 23 16, 10 * bits w 31 24]

/-- A level from a reading: the highest threshold reached, each clearing 3 °C below itself (R359). -/
def thLevel (lim : List Int) (old : Nat) (t : Int) : Nat :=
  ((lim.zipIdx).map (fun e => if e.1 ≤ t || (e.2 < old && e.1 - 30 < t) then e.2 + 1 else 0)).foldl max 0

/-- A new accepted value of a reading: its last ten, the first ten of its window, its peak. -/
def Therm.accept (t : Therm) (v : Int) : Therm :=
  { t with temp := v, last := (t.last ++ [v]).drop (t.last.length + 1 - 10),
           firstSum := if t.firstN < 10 then t.firstSum + v else t.firstSum, firstN := min 10 (t.firstN + 1),
           peak := some (match t.peak with | some p => max p v | none => v) }

/-- The record of a level or of a suspect mark (R403). -/
def Mod.thRec (m : Mod) (i : Nat) : Mod :=
  let t := m.therm i
  m.tally 0x0D i islAon (leBytes 1 t.level ++ leBytes 2 (s16 t.temp) ++ leBytes 2 (s16 t.rate))

/-- A trip: counted over the module's life, Evacuate with cause 3, or the rails cut (R361, R362, R366). -/
def Mod.thTrip (m : Mod) (i : Nat) (abs : Bool) : Mod :=
  let v := flag 31 abs ||| fld 28 (thClass i) ||| fld 19 i
  let m := (m.bump cThTrip)
  let m := { m with nv := { m.nv with tripCnt := (m.occ cThTrip).cnt, lastTrip := v } }
  let m := m.seedWrite (.module_ 0)
  if m.pwr.phase = 0 then m
  else if abs then let m := m.powerCut .m4; { m with pwr := { m.pwr with tripDown := true } }
  else
    let m := m.evacCommit 3
    if m.pwr.phase = 0 then { m with pwr := { m.pwr with tripDown := true } } else m

/-- Evaluate one reading's level (R359, R361, R428). -/
def Mod.thEval (m : Mod) (i : Nat) : Mod :=
  let t := m.therm i
  let lim := m.thLim (thClass i)
  let l := thLevel lim t.level t.temp
  let trip := (lim[3]?).getD 0
  let m' := m.setTherm i (fun x => { x with level := l })
  let m' := if t.level < l then m'.thRec i else m'
  let m' := if t.level < l && 3 ≤ l then m'.allLdRec 1 2 l else m'
  let wasAbs : Bool := trip + 100 ≤ (t.last[t.last.length - 2]?).getD t.temp && 2 ≤ t.last.length
  if trip + 100 ≤ t.temp && !(wasAbs && t.level = 4) then m'.thTrip i true
  else if t.level < 4 && l = 4 then m'.thTrip i false else m'

/-- Cross-check a direct reading against its neighbours' accepted readings of the previous update (R358). -/
def Mod.thCheck (old m : Mod) (i : Nat) (raw est : Int) : Mod :=
  let ns := (thNeighbours i).filter (fun j => !(old.therm j).last.isEmpty && !(old.therm j).suspect)
  let vals := if i = 11 then [est] else ns.map (fun j => (old.therm j).temp)
  let n : Int := vals.length
  let sum : Int := vals.foldl (· + ·) 0
  let t := old.therm i
  if vals.isEmpty then m.setTherm i (fun x => { (x.accept raw) with raw := raw, suspect := false, okSince := none, unchecked := true })
  else
    let near : Bool := decide (sum - 80 * n ≤ raw * n) && decide (raw * n ≤ sum + 80 * n)
    let far : Bool := decide (raw * n < sum - 120 * n) || decide (sum + 120 * n < raw * n)
    let since := if near then some (t.okSince.getD m.time.dtc) else none
    let ok : Bool := match since with | some s => decide (s + 10000000000 ≤ m.time.dtc) | none => false
    let sus : Bool := if t.suspect then !ok else far
    let m' := m.setTherm i (fun x => { (x.accept (if sus then sum / n else raw)) with
      raw := raw, suspect := sus, okSince := if sus then since else none, unchecked := false })
    if sus && !t.suspect then (m'.bump cThSus).thRec i else m'

/-- Every reading is at or below its class's warn threshold. -/
def Mod.thCool (m : Mod) : Bool := m.th.t.all (fun e => e.2.temp ≤ ((m.thLim (thClass e.1))[0]?).getD 0)

/-- The dies' model temperatures are noted for the second in progress. -/
def Mod.hotNote (m : Mod) : Mod :=
  (List.range 20).foldl (fun m g =>
    let now := ((sgDies g).map (fun n => (m.therm (64 + n)).temp)).foldl max ((m.therm (64 + dieOf g 0)).temp)
    let v : Option Int := some (match tget none m.fb.hot g with | some h => max h now | none => now)
    { m with fb := { m.fb with hot := tput none m.fb.hot g v } }) m

/-- THERMAL_MODEL_UPDATE. -/
def Mod.thUpdate (m : Mod) (raws devs dies : List Int) (inlet : Int) (volts : List (BitVec 16)) (pin : BitVec 16) : Mod :=
  if m.pwr.aonReset then m
  else
    let old := m
    let m := m.setChans volts
    let m := { m with pwr := { m.pwr with pin := pin.toNat, pmax := max m.pwr.pmax pin.toNat } }
    let m := (List.range 10).foldl (fun m j => m.setRail (j + 2) (fun r => { r with ipeak := max r.ipeak (chanW m.pwr.chans (j + 14)) })) m
    let m := ((raws.take 12).zipIdx).foldl (fun m e => Mod.thCheck old m e.2 e.1 inlet) m
    let m := ((devs.take 27).zipIdx).foldl (fun m e => m.setTherm (16 + e.2) (fun x => x.accept e.1)) m
    let m := (((dies.take 200).zipIdx).foldl (fun m e => m.setTherm (64 + e.2) (fun x => x.accept e.1)) m).hotNote
    let m := (m.th.t.map (·.1)).foldl (fun m i => m.thEval i) m
    { m with th := { m.th with coolSince := if m.thCool then some (m.th.coolSince.getD m.time.dtc) else none } }

/-- A rate window closes and the next opens (R360). -/
def Mod.thWindow (m : Mod) : Mod :=
  (m.th.t.map (·.1)).foldl (fun m i => m.setTherm i (fun x =>
    let n : Int := x.last.length
    let r : Int := if x.firstN = 0 || n = 0 then 0 else x.last.foldl (· + ·) 0 / n - x.firstSum / (x.firstN : Int)
    { x with rate := r, rateHi := m.thRate (thClass i) < r, firstSum := 0, firstN := 0 })) m

/-- AUTO_RESTART (R363). -/
def Mod.thRestart (m : Mod) : Mod :=
  let w := m.w 0 0xB0130
  let n := m.th.restarts.countP (fun x => m.time.dtc < x + 3600000000000)
  let cool : Bool := match m.th.coolSince with | some t => decide (t + 60000000000 ≤ m.time.dtc) | none => false
  if m.aonOnly && m.pwr.tripDown && bit w 0 && n < bits w 7 4 && cool then
    ({ m with th := { m.th with restarts := m.th.restarts ++ [m.time.dtc] } }).startBegin
  else m

end Sys2Proof.Machine
end

