-- ==== Sys2Proof/Machine/TwinOps.lean ====
section
/-!
DEFINITION. Twin pairing (R215–R235): frames out, attach and reconnection, what a holder does with records, REGCFG, takeover
and Stale regions, resync, repair, detach.
-/

namespace Sys2Proof.Machine

/-! ### Frames out (R218, R219) -/

/-- Records the module could take now: general posted-write entries less the allocation reserve, and HOST merge entries; none
while the dirty budget is spent (R222, R225). -/
def Mod.mirrorRoom (m : Mod) : Nat :=
  if m.budgetHold then 0
  else min (total ((m.hcList.filter (fun c => !(m.hch c).failed)).map (fun c => m.pwFree c false)) - m.reserve)
    (m.shareCap .host - shareUse m .host)
/-- Send one frame in a flit of its own, with what the flit grants; an HB frame goes ahead of all others. Log entry 71 (DEDUCED). -/
def Mod.sendFrame (m : Mod) (fr : List Nat) : Mod :=
  if m.twin.trained then
    let g := m.mirrorRoom - m.tx.granted
    ({ m with tx := { m.tx with granted := m.tx.granted + g } }).sendFlit (fr.head? = some 4) { grant := g, fr }
  else m

/-! ### Frames as bytes (R219) -/

/-- A LINE or PART frame of a record: type and flags, region, line number, MSN, key generation, then the ciphertext, or the byte mask and the
written bytes. -/
def TwRec.bytes (r : TwRec) : List Byte :=
  let head := fun (t : Nat) => leBytes 1 t ++ leBytes 2 (r.region % 4096) ++ leBytes 5 r.lineNo ++ leBytes 8 r.msn ++ leBytes 6 r.gen ++ leBytes 2 0
  match r.part with
  | some (k, d) => head (0x20 + r.poison.toNat) ++ leBytes 8 k.toNat ++ leBytes 64 (overlay k 0 d).toNat
  | none => head (0x10 + r.poison.toNat + 2 * r.sidecar.toNat + 4 * r.sync.toNat + 8 * r.resync.toNat) ++ leBytes 64 r.ct.toNat
def ackBytes (msn : Nat) : List Byte := leBytes 1 0x30 ++ leBytes 7 0 ++ leBytes 8 msn
def hbBytes (state epoch msn dtc : Nat) : List Byte :=
  leBytes 1 0x40 ++ leBytes 1 state ++ leBytes 6 0 ++ leBytes 8 epoch ++ leBytes 8 msn ++ leBytes 8 dtc
def nakBytes (seq : Nat) : List Byte := leBytes 1 0x60 ++ leBytes 2 seq ++ leBytes 5 0
/-- CTL messages by their order in R219. -/
def ctlHello : Nat := 0
def ctlPropose : Nat := 1
def ctlCommit : Nat := 2
def ctlDetach : Nat := 3
def ctlRegcfg : Nat := 4
def ctlTake : Nat := 5
def ctlRsopen : Nat := 6
def ctlRpull : Nat := 7
def ctlKeychk : Nat := 8
def ctlBitmap : Nat := 9
def Mod.sendCtl (m : Mod) (msg : Nat) (body : List Nat) : Mod := m.sendFrame (5 :: msg :: body)

/-- The epoch that holds once the Seed Store writes under way are done (R216). -/
def Mod.epochNow (m : Mod) : Nat :=
  match ((m.seed.running.toList ++ m.seed.queue).filterMap (fun j => match j with | .epoch e _ => some e | _ => none)).getLast? with
  | some e => e
  | none => m.nv.epoch

def Mod.ownId (_ : Mod) : Dword := Config.moduleId
/-- TW_EXPECT. -/
def Mod.expectId (m : Mod) : Dword := BitVec.ofNat 64 ((m.w 0 0x80018).toNat + (m.w 0 0x8001C).toNat * 2 ^ 32)
/-- The module with the lower identity is side 0 (R215). -/
def Mod.sideBy (m : Mod) (peer : Dword) : Nat := if m.ownId.toNat < peer.toNat then 0 else 1

def Mod.sendHello (m : Mod) : Mod :=
  m.sendCtl ctlHello [m.ownId.toNat, m.epochNow, m.nv.paired.isSome.toNat, (m.nv.paired.getD 0).toNat]

/-! ### Attach (R235) -/

def Mod.pairRefuse (m : Mod) (cause : Nat) : Mod :=
  { m with twin := { m.twin with pair := .refused, refuse := cause, cmd := 0 }, tx := { m.tx with proposed := none, commitWait := none } }

/-- TW_CMD 1 applies. An attach needs an unpaired module; after TIE a detach comes first (R231). -/
def Mod.twAttach (m : Mod) : Mod :=
  if m.twin.pair = .unpaired || (m.twin.pair = .refused && m.twin.refuse != 2) then
    if m.expectId = 0 then m.pairRefuse 3
    else
      let m := { m with twin := { m.twin with pair := .attaching, cmd := 1, refuse := 0, helloed := false, side := m.sideBy m.expectId }
                        tx := { m.tx with proposed := none, commitWait := none, strobeSeen := none } }
      m.sendHello
  else m

/-- The Twin Link has trained at x16 and 64 GT/s, or cannot (R218). -/
def Mod.twinTrain (m : Mod) (ok : Bool) : Mod :=
  if bit (m.w 0 0x80004) 0 && m.linksOn && !m.twin.trained then
    if ok then
      let m := { m with twin := { m.twin with trained := true, helloed := false, credits := 0 }
                        tx := { m.tx with flitTx := 0, flitAck := 0, granted := 0, buf := [], outq := [], goodAt := m.time.dtc } }
      if m.twin.pair = .attaching || m.nv.paired.isSome then m.sendHello else m
    else if m.twin.pair = .attaching then m.pairRefuse 4 else m
  else m

/-- The strobe found the sideband wired to another module (R221). -/
def Mod.strobeWrong (m : Mod) : Bool :=
  bit (m.w 0 0x80004) 1 && (match m.tx.strobeSeen with | some s => decide (s = m.twin.side) | none => false)

/-- PAIRING_STROBE: drive AUX[0] with the side, sample AUX[1]. -/
def Mod.strobe (m : Mod) (seen : Option Nat) : Mod :=
  if m.twin.pair = .attaching && bit (m.w 0 0x80004) 1 then
    let m := ({ m with tx := { m.tx with strobeSeen := seen.orElse (fun _ => m.tx.strobeSeen) } }).emit (.strobe m.twin.side)
    if m.strobeWrong then m.pairRefuse 1 else m
  else m

/-- New streams from MSN 1, and what a pairing clears (R222). -/
def Mod.freshStreams (m : Mod) : Mod :=
  { m with twin := { m.twin with txmsn := 0, ackmsn := 0, rxmsn := 0, recs := [], rsopen := [] } }

/-- The home tells the holder a region's configuration (R217, R318). -/
def Mod.sendRegcfg (m : Mod) (r : Nat) (erase : Bool) : Mod :=
  let c := m.crec r
  m.sendCtl ctlRegcfg [r, (m.rw0 r).toNat, (m.rw1 r).toNat, c.gen, erase.toNat, c.seam.toNat, c.seamGen]

/-- The test line of a key check: a line of zeros at the region's first line. Log entry 75 (DEDUCED). -/
def Mod.keyTest (m : Mod) (r gen : Nat) : Option Line :=
  let l := rBase (m.rw1 r) * 16777216
  let s : Option Slot := match (if gen = (m.crec r).seamGen && (m.crec r).seam then (m.seamOf r).bind (fun e => m.slot (4096 + e)) else none) with
    | some s => some s
    | none => m.slot r
  s.map (fun s => encLine (slotUse s gen) l 0)
/-- KEYCHK after a key load on a mirrored home region (R226). -/
def Mod.sendKeychk (m : Mod) (r gen : Nat) : Mod :=
  if m.homeHere r && m.linkUp then
    match m.keyTest r gen with
    | some c => m.sendCtl ctlKeychk [r, gen, c.toNat]
    | none => m
  else m

/-- Mirrored regions this module is home to. -/
def Mod.homeRegs (m : Mod) : List Nat := (validRegions m.cfg.plates).filter m.homeHere

/-- Both sides have written the epoch: the pair is made. -/
def Mod.nowPaired (m : Mod) : Mod :=
  let m := m.freshStreams
  let m := { m with twin := { m.twin with pair := .paired, refuse := 0, cmd := 0 }, tx := { m.tx with proposed := none, commitWait := none, adopt := false } }
  let m := m.twinRec 2 0 m.nv.epoch 0 0 0
  m.homeRegs.foldl (fun m r =>
    let m := m.setTwr r (fun x => { x with st := .inactive, pages := [], rest := none, taken := false })
    (m.sendRegcfg r false).sendKeychk r (m.crec r).gen) m

/-- HELLO while an attach runs. -/
def Mod.helloAttach (m : Mod) (ident : Dword) (epoch : Nat) : Mod :=
  if m.expectId != ident then m.pairRefuse 3
  else
    let first : Bool := !m.twin.helloed
    let m := { m with twin := { m.twin with helloed := true, side := m.sideBy ident } }
    let m := if first then m.sendHello else m
    if m.strobeWrong then m.pairRefuse 1
    else if m.twin.side = 0 && m.tx.proposed.isNone then
      let n := max epoch m.epochNow + 1
      ({ m with tx := { m.tx with proposed := some n } }).sendCtl ctlPropose [n]
    else m

/-- Pages of a region that recovery found lost or that the roll lists. -/
def Mod.toRepair (m : Mod) (r : Nat) : List Nat :=
  ((m.rep.lostPages ++ m.rep.rollList).filter (fun p => m.regionOfPage p = r && (m.regionOf (granOfPage p)).isSome)).eraseDups
/-- A holder reports the pages its last recovery lost (R232). -/
def Mod.sendLost (m : Mod) : Mod :=
  (m.twin.regs.filter (fun e => e.2.held)).foldl (fun m e =>
    if (m.toRepair e.1).isEmpty then m else m.sendCtl ctlBitmap (e.1 :: m.toRepair e.1)) m

/-- The pair is joined again after a loss of the link: the bitmaps hold what is to be copied, the next record gives the
stream's position (R228, R232). Log entry 73 (DEDUCED). -/
def Mod.rejoin (m : Mod) : Mod :=
  ({ m with twin := { m.twin with pair := .paired, recs := [], rsopen := [], refuse := 0 }, tx := { m.tx with adopt := true } }).sendLost

/-- Regions taken over here since the twin was last seen. -/
def Mod.takenRegs (m : Mod) : List Nat := (m.twin.regs.filter (fun e => e.2.taken)).map (·.1)
/-- Announce them (R230 step 4). -/
def Mod.sendTake (m : Mod) : Mod :=
  if m.takenRegs.isEmpty then m
  else
    let m := m.sendCtl ctlTake (m.epochNow :: m.takenRegs)
    m.takenRegs.foldl (fun m r => m.setTwr r (fun x => { x with taken := false })) m

/-- HELLO of the recorded twin (R231): equal epochs join unless both took over; the lower epoch is given up. -/
def Mod.helloAgain (m : Mod) (ident : Dword) (epoch : Nat) : Mod :=
  let m := { m with twin := { m.twin with side := m.sideBy ident } }
  let first : Bool := !m.twin.helloed
  let m := { m with twin := { m.twin with helloed := true } }
  let m := if first then m.sendHello else m
  if epoch = m.epochNow then (if m.takenRegs.isEmpty then m.rejoin else m.pairRefuse 2)
  else if m.epochNow < epoch then (m.seedWrite (.epoch epoch (some ident))).rejoin
  else m.rejoin.sendTake

/-- HELLO (R235, R231). Log entry 72 (DEDUCED). -/
def Mod.hello (m : Mod) (ident : Dword) (epoch : Nat) (paired : Bool) (pop : Dword) : Mod :=
  if m.twin.trained then
    let m := { m with twin := { m.twin with peer := ident } }
    if m.twin.pair = .attaching then m.helloAttach ident epoch
    else if m.twin.pair = .paired then (if epoch = m.epochNow then m else m.breakPair 6)
    else if m.nv.paired = some ident && paired && pop = m.ownId && m.twin.pair = .broken then m.helloAgain ident epoch
    else m
  else m

/-- Write the agreed epoch with the pairing record; COMMIT follows the write. -/
def Mod.commitEpoch (m : Mod) (n : Nat) : Mod :=
  ({ m with tx := { m.tx with commitWait := some n } }).seedWrite (.epoch n (some m.twin.peer))

/-- A frame that carries an epoch other than the module's own breaks a pair (R228 cause 6). -/
def Mod.epochCheck (m : Mod) (e : Nat) : Mod := if m.twin.pair = .paired && e != m.epochNow then m.breakPair 6 else m

/-- PROPOSE: side 1 answers with an epoch that suits it too, side 0 writes the agreed one first. -/
def Mod.propose (m : Mod) (e : Nat) : Mod :=
  if m.twin.pair = .attaching && m.linkUp then
    if m.twin.side = 1 then
      let n := max e (m.epochNow + 1)
      ({ m with tx := { m.tx with proposed := some n } }).sendCtl ctlPropose [n]
    else match m.tx.proposed with
      | some p => if m.tx.commitWait.isNone then m.commitEpoch (max p e) else m
      | none => m
  else m.epochCheck e

/-- COMMIT: side 1 writes after side 0; with both written the pair is made. -/
def Mod.commitFrame (m : Mod) (e : Nat) : Mod :=
  if m.twin.pair = .attaching && m.linkUp then
    if m.twin.side = 1 then (if m.tx.commitWait.isNone then m.commitEpoch e else m)
    else if m.nv.epoch = e && m.nv.paired.isSome then m.nowPaired else m
  else m.epochCheck e

/-- The epoch write has become durable: COMMIT goes out, and side 1 is paired. -/
def Mod.epochDurable (m : Mod) : Mod :=
  match m.tx.commitWait with
  | some n =>
    if m.nv.epoch = n && m.nv.paired.isSome && m.twin.pair = .attaching then
      let m := ({ m with tx := { m.tx with commitWait := none } }).sendCtl ctlCommit [n]
      if m.twin.side = 1 then m.nowPaired else m
    else m
  | none => m

/-! ### Liveness (R220, R224, R225, R228) -/

/-- The Twin Link leaves L0 for longer than one replay. -/
def Mod.twinDown (m : Mod) : Mod :=
  if m.twin.trained then (m.breakPair 5 |> fun m => { m with twin := { m.twin with trained := false, helloed := false } }) else m
/-- No good flit for 100 µs. -/
def Mod.twinSilent (m : Mod) : Mod :=
  if m.twin.trained && m.tx.goodAt + 100000 ≤ m.time.dtc then
    let m := m.breakPair 1
    { m with twin := { m.twin with helloed := false } }
  else m
def Mod.sideEdge (m : Mod) (wide : Bool) : Mod :=
  if m.pwr.aonReset then m else { m with tx := { m.tx with sbLive := true, sbWide := wide, sbAt := m.time.dtc } }
def Mod.sideSilent (m : Mod) : Mod :=
  if m.tx.sbLive && m.tx.sbAt + 300000 ≤ m.time.dtc then
    { m with tx := { m.tx with sbLive := false, sbWide := false }, twin := { m.twin with sbmiss := m.twin.sbmiss + 1 } }
  else m
/-- TWIN_HB_OUT pulses in M0 to M3 under TW_CTL.ENABLE. -/
def Mod.hbPulse (m : Mod) : Mod :=
  if bit (m.w 0 0x80004) 0 && m.pwr.pstate < 4 && !m.pwr.aonReset && m.pwr.phase != 0 then
    m.emit (.hbPulse (if m.evacRunning then 3 else 1))
  else m
def Mod.hbFrame (m : Mod) : Mod := m.sendFrame [4, m.evacRunning.toNat, m.epochNow, m.twin.txmsn, m.time.dtc]
def Mod.lagStop (m : Mod) : Mod := if 20000 ≤ m.lagNow then m.breakPair 3 else m
/-- A Sync write's ACK is 20 ns from its deadline. -/
def Mod.ackLate (m : Mod) (id : Nat) : Mod :=
  match m.reqById id with
  | some r => if r.waitMsn.isSome then m.breakPair 2 else m
  | none => m

/-- An ACK covers every record up to an MSN (R222). -/
def Mod.ackFrame (m : Mod) (n : Nat) : Mod :=
  if m.twin.pair = .paired && m.twin.ackmsn < n && n ≤ m.twin.txmsn then
    let m := { m with twin := { m.twin with ackmsn := n, lagPeak := max m.twin.lagPeak m.lagNow,
                                            recs := m.twin.recs.filter (fun r => n < r.msn) } }
    ((m.releaseSync (· ≤ n)).lineCovered (· ≤ n))
  else m

/-- A NAK: the flits of the replay buffer from a sequence number on are sent again (R218). -/
def Mod.nakFrame (m : Mod) (seq : Nat) : Mod :=
  if m.twin.trained then
    let back := (m.tx.flitTx + 65536 - seq) % 65536
    let again := m.tx.buf.drop (m.tx.buf.length - back)
    again.foldl (fun m f => m.flitOut f) { m with twin := { m.twin with replay := m.twin.replay + again.length } }
  else m
/-- A flit fails its CRC. -/
def Mod.flitBad (m : Mod) : Mod := m.sendFrame [6, (m.tx.lastGood + 1) % 65536]
/-- A good flit: its acknowledgement, which frees the replay buffer, and its credit grant. -/
def Mod.flitGood (m : Mod) (seq ack credits : Nat) : Mod :=
  if m.twin.trained then
    let unacked := m.tx.flitTx - m.tx.flitAck
    let behind := (m.tx.flitTx + 65535 - ack) % 65536
    let left := if behind ≤ unacked then behind else unacked
    (({ m with tx := { m.tx with lastGood := seq, flitAck := m.tx.flitTx - left, goodAt := m.time.dtc, buf := m.tx.buf.drop (m.tx.buf.length - left) }
               twin := { m.twin with credits := m.twin.credits + credits } }).flitRoom).twinPump
  else m

/-! ### The holder's side (R222, R232) -/

/-- Does the stream continue with this MSN? A first record after a reconnection does. -/
def Mod.msnNext (m : Mod) (n : Nat) : Bool := m.tx.adopt || n = m.twin.rxmsn + 1
/-- The record is in the persistence domain: applied and acknowledged. -/
def Mod.applied (m : Mod) (n : Nat) : Mod :=
  ({ m with twin := { m.twin with rxmsn := n }, tx := { m.tx with adopt := false, granted := m.tx.granted - 1 } }).sendFrame [3, n]

/-- A live record for a line of an open page marks the line. -/
def Mod.openMark (m : Mod) (r lineNo : Nat) : Mod :=
  { m with twin := { m.twin with rsopen := m.twin.rsopen.map (fun e =>
      if e.1 = lineNo / 64 && m.regionOfPage e.1 = r then (e.1, mset e.2.1 (lineNo % 64), e.2.2) else e) } }

/-- The tags that a sidecar line carries go to its group's lines. -/
def Mod.putTags (m : Mod) (lineNo : Nat) (ct : Line) : Mod :=
  let page := lineNo / 64
  (List.range 8).foldl (fun m i =>
    let j := lineNo % 64 / 8 * 8 + i
    match m.findLine page j with
    | some f =>
      let c : Cell := { (m.cellAt f j) with tag := (ct >>> (64 * i)).setWidth 64 }
      let q := m.hop.pwq.map (fun e => if e.frame = f && e.line = j then { e with cell := c } else e)
      ({ m with hop := { m.hop with pwq := q } }).setFrame f (fun x => { x with lines := tput {} x.lines j c })
    | none => m) m

/-- Store a line as received; none while there is no room. -/
def Mod.storeLine (m : Mod) (r lineNo : Nat) (ct : Line) (poison : Bool) : Option Mod :=
  let page := lineNo / 64
  let tag : Dword := match m.findLine page (lineNo % 64) with | some f => (m.cellAt f (lineNo % 64)).tag | none => 0
  (m.place page (lineNo % 64) { ct, tag } false (m.tagged r)).map (fun m =>
    let m := { m with hop := { m.hop with merge := m.hop.merge.filter (fun e => e.lineNo != lineNo) } }
    m.remark lineNo poison)

/-- A resync line's page: one line fewer to come; a page leaves the table with its 64th (R232). -/
def Mod.rsCount (m : Mod) (page : Nat) : Mod :=
  let l := m.twin.rsopen.map (fun e => if e.1 = page then (e.1, e.2.1, e.2.2 + 1) else e)
  { m with twin := { m.twin with rsopen := l.filter (fun e => e.2.2 < 64) } }

/-- A repair line at the home: a full-line write, which clears the poison; the page leaves the roll list with its last line
(R234). -/
def Mod.repairLine (m : Mod) (r lineNo : Nat) (ct : Line) (poison : Bool) : Option Mod :=
  let page := lineNo / 64
  match m.tx.pulled.find? (fun e => e.1 = page) with
  | none => some m
  | some e =>
    let cell := match m.keyFor r lineNo with
      | some k => { ct, tag := if m.tagged r then lineTag k lineNo ct else 0 : Cell }
      | none => { ct }
    (m.place page (lineNo % 64) cell false (m.tagged r)).map (fun m =>
      let m := ((m.remark lineNo poison).dropMerge lineNo none).supersede lineNo m.host.nextReq
      let left := mclr e.2 (lineNo % 64)
      let rest := m.tx.pulled.filter (fun x => x.1 != page)
      if left = 0 then
        { m with tx := { m.tx with pulled := rest }, rep := { m.rep with rollList := m.rep.rollList.filter (· != page) }
                 twin := { m.twin with cmd := if rest.isEmpty && m.twin.cmd = 4 then 0 else m.twin.cmd } }
      else { m with tx := { m.tx with pulled := rest ++ [(page, left)] } })

/-- A line carried under the Seam's new generation: the holder's copy follows the Seam, its pointer past that line (R222, R226). -/
def Mod.genSeen (m : Mod) (r lineNo gen : Nat) : Mod :=
  if (m.crec r).seam && gen = (m.crec r).seamGen then m.setCrec r (fun c => { c with seamPtr := max c.seamPtr (m.lineIn r lineNo + 1) }) else m
/-- LINE (R222, R226, R232, R234). Log entry 76 (DEDUCED). -/
def Mod.lineRecord (m : Mod) (r lineNo msn gen : Nat) (ct : Line) (poison sidecar resync : Bool) : Mod :=
  if m.twin.pair != .paired || !m.twin.trained then m
  else if !m.msnNext msn then m.breakPair 4
  else if (m.twr r).held && m.regionOf (granOfLine lineNo) = some r then
    let m := m.genSeen r lineNo gen
    if sidecar then (m.putTags lineNo ct).applied msn
    else if resync then
      match m.twin.rsopen.find? (fun e => e.1 = lineNo / 64) with
      | some e =>
        if e.2.1.getLsbD (lineNo % 64) then (m.rsCount (lineNo / 64)).applied msn
        else match m.storeLine r lineNo ct poison with
          | some m => (m.rsCount (lineNo / 64)).applied msn
          | none => m
      | none => m.applied msn
    else match m.storeLine r lineNo ct poison with
      | some m => (m.openMark r lineNo).applied msn
      | none => m
  else if resync && m.homeHere r then
    if sidecar then m.applied msn
    else match m.repairLine r lineNo ct poison with
      | some m => m.applied msn
      | none => m
  else m.applied msn

/-- PART: the holder merges the bytes itself, in an entry of its HOST share (R222, R223). -/
def Mod.partRecord (m : Mod) (r lineNo msn : Nat) (mask : Dword) (data : Line) (poison : Bool) : Mod :=
  if m.twin.pair != .paired || !m.twin.trained then m
  else if !m.msnNext msn then m.breakPair 4
  else if (m.twr r).held && m.regionOf (granOfLine lineNo) = some r then
    let page := lineNo / 64
    let m := if poison then m.mark lineNo true else m
    let m := if m.poisoned lineNo then m
      else match m.hop.merge.find? (fun e => e.lineNo = lineNo) with
        | some _ => m.modMerge lineNo (fun e => { e with mask := e.mask ||| mask, data := overlay mask e.data data, acked := true, msn })
        | none =>
          let e : Mbe := { share := .host, lineNo, region := r, mask, data, wpoison := false, acked := true, waiting := [], tight := false,
                           stamp := m.time.dtc, fore := none, msn, ackAt := m.time.dtc }
          let m := { m with hop := { m.hop with merge := m.hop.merge ++ [e] } }
          if (m.findLine page (lineNo % 64)).isSome then m
          else if m.mediaLoc page != 0 then
            if m.per.evac.isSome then m else m.mread (.req 0) page (lineNo % 64 / 4) (m.mediaLoc page) none m.time.dtc
          else match m.keyFor r lineNo with
            | some k => m.fillLines page [(lineNo % 64, m.seal r lineNo k 0)] (m.tagged r) true
            | none => m
    (m.openMark r lineNo).applied msn
  else m.applied msn

/-- RSOPEN: a page opens in the table of 256; the region is in resync (R232). -/
def Mod.rsOpen (m : Mod) (r page msn : Nat) : Mod :=
  if m.twin.pair = .paired && m.twin.trained && (m.twr r).held && m.twin.rsopen.length < 256 then
    let m := if m.tx.adopt then { m with twin := { m.twin with rxmsn := msn }, tx := { m.tx with adopt := false } } else m
    let l := m.twin.rsopen.filter (fun e => e.1 != page) ++ [(page, (0 : Dword), 0)]
    ({ m with twin := { m.twin with rsopen := l } }).setTwr r (fun x => { x with st := .resync })
  else m

/-- Raise the own generation counter above a generation taken from the home (R318). -/
def Mod.raiseGen (m : Mod) (g : Nat) : Mod := if m.nv.gennext ≤ g then m.setGen (g + 1) else m

/-- KEYCHK: the holder compares and answers with its own encryption; the home judges the answer (R226). -/
def Mod.keyCheck (m : Mod) (r gen : Nat) (ct : Line) : Mod :=
  if m.linkUp then
    let own := m.keyTest r gen
    let ok : Bool := own = some ct
    let m := m.setTwr r (fun x => { x with keyok := ok })
    if (m.twr r).held then m.sendCtl ctlKeychk [r, gen, (own.getD 0).toNat] else m
  else m

/-! ### Region configuration (R217, R318, R324, R327) -/

/-- Put a region entry in force on this module. -/
def Mod.setRegion (m : Mod) (r : Nat) (w0 w1 : Word) : Mod :=
  let t := writePlates m.cfg.plates [⟨0x80000 + 4 * r, 0x80000 + 4 * r, w0⟩, ⟨0x80001 + 4 * r, 0x80001 + 4 * r, w1⟩]
  let n := writePlates m.nv2.plates [⟨0x80000 + 4 * r, 0x80000 + 4 * r, w0⟩, ⟨0x80001 + 4 * r, 0x80001 + 4 * r, w1⟩]
  { m with cfg := { m.cfg with plates := t }, nv2 := { m.nv2 with plates := n } }

/-- The holder gives up its copy: pages unmapped as by a discard, the granules free again (R235). -/
def Mod.freeHeld (m : Mod) (r : Nat) : Mod :=
  let w1 := m.rw1 r
  let m := m.unmapPages (regPage0 w1) (regPages w1) 3
  (m.setRegion r 0 0).setTwr r (fun _ => {})

/-- Can this module hold the region: its granules and its number are not in use here (R217)? -/
def Mod.canHold (m : Mod) (c : RegCfg) : Bool :=
  let a := rBase c.w1
  let n := rCount c.w1
  rHome c.w0 != m.twin.side && (!rValid (m.rw0 c.region) || (m.twr c.region).held) &&
    (validRegions m.cfg.plates).all (fun q => q = c.region || rBase (m.rw1 q) + rCount (m.rw1 q) ≤ a || a + n ≤ rBase (m.rw1 q))

/-- REGCFG applies on the holder at its boundary. -/
def Mod.regcfgApply (m : Mod) (c : RegCfg) : Mod :=
  let r := c.region
  if !rValid c.w0 || rMirror c.w0 = 0 then (if (m.twr r).held then m.freeHeld r else m)
  else if m.canHold c then
    let was := (m.twr r).held
    let m := (m.setRegion r c.w0 c.w1).setTwr r (fun x => { x with held := true, st := if was && x.st != .refused then x.st else .held })
    let m := if c.erase then
        let lo := regPage0 c.w1
        ((m.setSlot r none).dropPages (fun p => lo ≤ p && p < lo + regPages c.w1)).setCrec r (fun x => { x with ver := none })
      else m
    let m := m.setCrec r (fun x => { x with gen := c.gen, seam := c.seamGen.isSome, seamGen := c.seamGen.getD 0 })
    (m.raiseGen c.gen).raiseGen (c.seamGen.getD 0)
  else ((m.setTwr r (fun x => { x with st := .refused })).sendCtl ctlRegcfg [r, 0, 0, 0, 0, 0, 0])

/-- REGCFG arrives: at the home it says that the holder refused the region. -/
def Mod.regcfgFrame (m : Mod) (c : RegCfg) : Mod :=
  if m.linkUp && m.twin.pair = .paired then
    if m.homeHere c.region then m.setTwr c.region (fun x => { x with st := .refused, pages := [], rest := none })
    else { m with tx := { m.tx with regcfg := m.tx.regcfg ++ [c] } }
  else m

/-! ### Takeover and Stale regions (R65, R230, R231) -/

/-- Regions of a range that this module holds. -/
def Mod.heldIn (m : Mod) (first count : Nat) : List Nat :=
  (m.twin.regs.filter (fun e => e.2.held && first ≤ e.1 && e.1 < first + count && e.2.st != .stale)).map (·.1)

/-- May a Twin Takeover start (R65)? While the epoch write of an earlier one has not taken effect another is refused, as is a range
without a held region. Log entry 94 (DESIGN CHOICE). -/
def Mod.takeoverOk (m : Mod) (epoch first count : Nat) : Bool :=
  epoch = m.nv.epoch && !m.tx.sbLive && m.tx.takeover.isNone && !(m.heldIn first count).isEmpty && first + count ≤ 4096

def Mod.takeoverStart (m : Mod) (epoch first count : Nat) : Mod :=
  ({ m with tx := { m.tx with takeover := some (first, count, epoch + 1) } }).seedWrite (.epoch (epoch + 1) m.nv.paired)

/-- The home side of an entry. Log entry 77 (DEDUCED). -/
def Mod.setHome (m : Mod) (r side : Nat) : Mod :=
  m.setRegion r ((m.rw0 r &&& ~~~ (fld 24 1)) ||| fld 24 side) (m.rw1 r)

/-- A region that the Seam was passing over comes with an engine suspended where the copy stands, while one is free (R226, R331). Log entry
117 (DEDUCED). -/
def Mod.seamTaken (m : Mod) (r : Nat) : Mod :=
  let c := m.crec r
  if !c.seam || (m.seamOf r).isSome then m
  else match (List.range 2).find? (fun e => (m.seam e).st = .idle) with
    | some e => m.setSeam e (fun _ => { st := .suspended, region := r, ptr := c.seamPtr, gen := c.seamGen, durable := c.seamPtr / 64 })
    | none => m
/-- At the boundary after the epoch write the module is home to the held regions of the range. -/
def Mod.takeoverApply (m : Mod) : Mod :=
  match m.tx.takeover with
  | none => m
  | some (first, count, e) =>
    if m.nv.epoch = e then
      let l := m.heldIn first count
      let m := { m with tx := { m.tx with takeover := none }, twin := { m.twin with takes := m.twin.takes + 1 } }
      let m := l.foldl (fun m r =>
        let m := if (m.twr r).keyok then m else m.setSlot r none
        ((m.setHome r m.twin.side).setTwr r (fun x => { x with held := false, st := .broken, pages := [], rest := none, taken := true })).seamTaken r) m
      let m := m.twinRec 1 0 e first count (count - l.length)
      if m.linkUp then m.sendTake else m
    else m

/-- TAKE arrives: the regions become Stale at the next boundary; the higher epoch is taken over. -/
def Mod.takeFrame (m : Mod) (epoch : Nat) (regs : List Nat) : Mod :=
  if m.twin.trained then
    let mine := regs.filter m.homeHere
    let m := { m with tx := { m.tx with takeNext := m.tx.takeNext ++ mine } }
    if m.epochNow < epoch then (m.epochCheck epoch).seedWrite (.epoch epoch m.nv.paired) else m
  else m

/-- Stale at the boundary: no request is admitted, and the bitmap goes to the new home. -/
def Mod.staleApply (m : Mod) : Mod :=
  let l := m.tx.takeNext
  let m := { m with tx := { m.tx with takeNext := [] } }
  l.foldl (fun m r =>
    let pages := (m.twr r).pages
    let m := (m.setHome r (1 - m.twin.side)).setTwr r (fun x => { x with held := true, st := .stale, pages := [], rest := none, taken := false })
    m.sendCtl ctlBitmap (r :: pages)) m

/-- BITMAP: pages to copy back to the former home. -/
def Mod.bitmapFrame (m : Mod) (r : Nat) (pages : List Nat) : Mod :=
  if m.twin.trained && m.homeHere r then pages.foldl (fun m p => m.addPage r p) m else m

/-! ### Resync and repair (R232–R234) -/

/-- A line's ciphertext as it stands in the hopper or on the medium; a line never written is the encryption of zeros. -/
def Mod.lineCt (m : Mod) (r lineNo : Nat) : Line :=
  let loc := m.mediaLoc (lineNo / 64)
  let c : Cell := match m.findLine (lineNo / 64) (lineNo % 64) with
    | some f => m.cellAt f (lineNo % 64)
    | none => if loc != 0 then m.mediaCell loc (lineNo % 64) else { zero := true }
  if c.zero then
    match m.keyFor r lineNo with
    | some k => encLine k lineNo 0
    | none => 0
  else c.ct

/-- A page's 64 lines, and the sidecar lines of a tagged region, as resync records of the stream. -/
def Mod.sendPage (m : Mod) (r page : Nat) : Mod :=
  let one := fun (m : Mod) (j : Nat) (side : Bool) =>
    m.putRec { msn := m.twin.txmsn + 1, region := r, lineNo := page * 64 + j,
               gen := match m.keyFor r (page * 64 + j) with | some k => k.gen | none => (m.crec r).gen,
               ct := if side then m.tagLine (page * 64 + j) else m.lineCt r (page * 64 + j),
               poison := !side && m.poisoned (page * 64 + j), sync := false, sidecar := side, part := none, sent := false, ackedAt := none,
               req := none, resync := true }
  let m := (List.range 64).foldl (fun m j => one m j false) m
  if m.tagged r then (List.range 8).foldl (fun m i => one m (8 * i) true) m else m

/-- Is there anything of the page to copy? -/
def Mod.pageHeld (m : Mod) (page : Nat) : Bool := m.entry page != 0 || !(m.waysOf page).isEmpty || (m.psn page).mask != 0

/-- Steps 1 to 3 of a page's copy (R232): its bit is cleared, RSOPEN goes out, and what is not in the hopper is read from the medium as upkeep
reads. -/
def Mod.copyPage (m : Mod) (r page : Nat) : Mod :=
  let m := m.setTwr r (fun x => { x with pages := x.pages.filter (· != page) })
  let m := m.sendCtl ctlRsopen [r, page, m.twin.txmsn]
  let loc := m.mediaLoc page
  let cws := (List.range 16).filter (fun cw => (List.range 4).any (fun i => (m.findLine page (4 * cw + i)).isNone))
  let m := { m with tx := { m.tx with copying := m.tx.copying ++ [(r, page)] } }
  if loc = 0 || cws.isEmpty then m
  else
    let got : BitVec 16 := (List.range 16).foldl (fun v cw => if cws.contains cw then v else v ||| (1#16 <<< cw)) 0
    let m := { m with med := { m.med with moves := m.med.moves ++ [{ page, from_ := loc, wr := .clean, got, copy := true }] } }
    cws.foldl (fun m cw => m.mread (.mover page cw) page cw loc none m.time.dtc) m
/-- Step 4: pages that have been read are sent. -/
def Mod.copyDone (m : Mod) : Mod :=
  (m.tx.copying.filter (fun e => !m.med.moves.any (fun v => v.copy && v.page = e.2 && v.got != ~~~ (0 : BitVec 16)))).foldl (fun m e =>
    ({ m with tx := { m.tx with copying := m.tx.copying.erase e }
              med := { m.med with moves := m.med.moves.filter (fun v => !(v.copy && v.page = e.2)) } }).sendPage e.1 e.2) m

/-- The region's next page to copy: a listed one, or the next one in use of a whole-region resync. -/
def Mod.nextPage (m : Mod) (r : Nat) : Option Nat × Mod :=
  let x := m.twr r
  match x.pages with
  | p :: _ => (some p, m)
  | [] => match x.rest with
    | none => (none, m)
    | some n =>
      let p0 := regPage0 (m.rw1 r)
      let l := (m.hop.map.map (·.1) ++ (m.hop.frames.filter (fun e => e.2.v)).map (fun e => e.2.page) ++ m.hop.poison.map (·.1)).filter
        (fun p => p0 + n ≤ p && p < p0 + regPages (m.rw1 r))
      match bestBy (fun a b => decide (a < b)) l with
      | some p => (some p, m.setTwr r (fun x => { x with rest := some (p - p0 + 1) }))
      | none => (none, m.setTwr r (fun x => { x with rest := none }))

/-- Pages copied per frame: a page is 64 of the thousand LINE frames of a microsecond; TW_CTL.RSHARE of them, and what the live records of the
frame left free (R219, R233). -/
def Mod.rsPerFrame (m : Mod) : Nat := max (max 1 (cdiv (bits (m.w 0 0x80004) 15 8 * 10) 64)) ((1000 - m.tx.live) / 64)
def Mod.rsSteps : Nat → Mod → Nat → Mod
  | 0, m, _ => m
  | n + 1, m, r =>
    if m.twin.recs.all (·.sent) then
      match m.nextPage r with
      | (some p, m) => Mod.rsSteps n (m.copyPage r p) r
      | (none, m) => m
    else m

/-- Resync of one home region at a boundary: it starts, goes on, or ends Mirrored. -/
def Mod.rsRegion (m : Mod) (r : Nat) : Mod :=
  let x := m.twr r
  match x.st with
  | .inactive => (m.setTwr r (fun x => { x with st := .resync, rest := some 0, pages := [] })).sendRegcfg r false
  | .broken => m.setTwr r (fun x => { x with st := .resync })
  | .resync =>
    let m := Mod.rsSteps m.rsPerFrame m r
    let y := m.twr r
    if y.pages.isEmpty && y.rest.isNone && m.tx.copying.all (fun e => e.1 != r) && m.twin.recs.all (fun q => !(q.resync && q.region = r)) then
      (m.setTwr r (fun x => { x with st := .mirrored })).sendKeychk r (m.crec r).gen
    else m
  | _ => m

/-- Ask the holder for a page (R234). -/
def Mod.pull (m : Mod) (r page : Nat) : Mod :=
  if m.tx.pulled.any (fun e => e.1 = page) then m
  else ({ m with tx := { m.tx with pulled := m.tx.pulled ++ [(page, ~~~ (0 : Dword))] }
                 rep := { m.rep with lostPages := m.rep.lostPages.filter (· != page) } }).sendCtl ctlRpull [r, page]
/-- Repair of a Sync region while it is in resync or mirrored. -/
def Mod.repairRegion (m : Mod) (r : Nat) : Mod :=
  let st := (m.twr r).st
  if rMirror (m.rw0 r) = 1 && (st = .mirrored || st = .resync) then (m.toRepair r).foldl (fun m p => m.pull r p) m else m

/-- RPULL at the holder: only for a region that was Mirrored at the fault (R234). -/
def Mod.pullFrame (m : Mod) (r page : Nat) : Mod :=
  let x := m.twr r
  if m.twin.pair = .paired && m.linkUp && x.held && (x.wasMir || x.st = .mirrored) then m.sendPage r page else m

/-- TW_CMD 4 applies. -/
def Mod.twRepair (m : Mod) (r : Nat) (acceptLag : Bool) : Mod :=
  let st := (m.twr r).st
  if m.twin.pair = .paired && m.homeHere r && (st = .mirrored || st = .resync) && (rMirror (m.rw0 r) = 1 || acceptLag) then
    let m := (m.toRepair r).foldl (fun m p => m.pull r p) m
    { m with twin := { m.twin with cmd := if m.tx.pulled.isEmpty then 0 else 4 } }
  else m

/-! ### Detach (R235) -/

/-- Records are no longer sent; Sync writes that waited are acknowledged. -/
def Mod.stopStream (m : Mod) : Mod :=
  let m := { m with twin := { m.twin with recs := [], rsopen := [] }, tx := { m.tx with copying := [] },
                    med := { m.med with moves := m.med.moves.filter (fun v => !v.copy) } }
  (m.releaseSync (fun _ => true)).lineCovered (fun _ => true)

/-- Both modules: regions Inactive, copies freed, the detach epoch written, the record unpaired. -/
def Mod.detachNow (m : Mod) : Mod :=
  let e := m.epochNow + 1
  let m := m.stopStream.seedWrite (.epoch e none)
  let held := (m.twin.regs.filter (fun x => x.2.held)).map (·.1)
  let m := held.foldl (fun m r => m.freeHeld r) m
  let m := { m with twin := { m.twin with regs := [], pair := .unpaired, cmd := 0, refuse := 0 }
                    tx := { m.tx with detachNext := false, takeNext := [], regcfg := [], pulled := [], proposed := none, commitWait := none } }
  m.twinRec 3 0 e 0 0 0

/-- TW_CMD 2 applies: the detach takes place at the next boundary. -/
def Mod.twDetach (m : Mod) : Mod :=
  if m.nv.paired.isSome || m.twin.pair = .paired || m.twin.pair = .refused then
    { m with twin := { m.twin with pair := .detaching, cmd := 2 }, tx := { m.tx with detachNext := true } }
  else m
def Mod.detachFrame (m : Mod) (e : Nat) : Mod :=
  if m.linkUp && m.nv.paired.isSome && (e = m.epochNow || e = m.epochNow + 1) then m.detachNow else m

/-! ### At a boundary -/

/-- Regions whose mirror configuration a transaction of this boundary changed (R217). -/
def Mod.cfgChanged (m : Mod) (old : Tbl Word) (r : Nat) : Bool :=
  pget old (0x80000 + 4 * r) != m.rw0 r || pget old (0x80001 + 4 * r) != m.rw1 r

/-- The home's regions whose entry now says mode None, or is gone. -/
def Mod.unmirror (m : Mod) : Mod :=
  ((m.twin.regs.filter (fun e => !e.2.held && !(rValid (m.rw0 e.1) && rMirror (m.rw0 e.1) != 0))).map (·.1)).foldl (fun m r =>
    (m.setTwr r (fun _ => {})).sendRegcfg r false) m

/-- The twin's part of FRAME_BOUNDARY: detach, takeover, TAKE, REGCFG, mode changes, resync, repair. `old` holds the plates
before the boundary. -/
def Mod.twinBoundary (m : Mod) (old : Tbl Word) : Mod :=
  let m := if m.tx.detachNext then (if m.linkUp then m.sendCtl ctlDetach [m.epochNow] else m).detachNow else m
  let m := m.takeoverApply.staleApply
  let l := m.tx.regcfg
  let m := l.foldl Mod.regcfgApply { m with tx := { m.tx with regcfg := [] } }
  let m := m.unmirror
  if m.twin.pair = .paired && m.linkUp then
    let m := (m.homeRegs.filter (m.cfgChanged old)).foldl (fun m r =>
      (m.setTwr r (fun x => { x with st := if x.st = .refused then .inactive else x.st })).sendRegcfg r false) m
    let m := m.homeRegs.foldl Mod.rsRegion m.copyDone
    let m := { m with tx := { m.tx with live := 0 } }
    let m := m.homeRegs.foldl Mod.repairRegion m
    (m.twin.regs.filter (fun e => e.2.held && e.2.st = .resync)).foldl (fun m e =>
      if m.twin.rsopen.any (fun p => m.regionOfPage p.1 = e.1) then m else m.setTwr e.1 (fun x => { x with st := .mirrored })) m
  else m

end Sys2Proof.Machine
end

