-- ==== Sys2Proof/Machine/CryOps.lean ====
section
/-!
DEFINITION. Keys and the Seam (R318–R332): loads, clears and crypto-erases, generations, and the engines that re-key a region
while it serves.
-/

namespace Sys2Proof.Machine

/-! ### Slots (R319–R325) -/

/-- A region's crypto record has changed: it is written to the crypto area (R326). -/
def Mod.crecDirty (m : Mod) (r : Nat) : Mod :=
  let m := { m with cry := { m.cry with pend := if m.cry.pend.contains r then m.cry.pend else m.cry.pend ++ [r] } }
  m.writeMeta .crypto r

/-- Empty a slot; what was admitted under it completes under it (R24). -/
def Mod.dropSlot (m : Mod) (n : Nat) : Mod :=
  match m.slot n with
  | some s =>
    let l : List (Nat × Nat × Slot) := (m.cry.linger.filter (fun x => x.1 != n)).concat (n, m.time.dtc, s)
    ({ m with cry := { m.cry with linger := l } }).setSlot n none
  | none => m

/-- KEY_SLOT_DESTROY: no request or merge classified with the slot is left. -/
def Mod.slotDestroy (m : Mod) (n : Nat) : Mod :=
  match m.cry.linger.find? (fun x => x.1 = n) with
  | none => m
  | some x =>
    let busy : Bool := m.host.reqs.any (fun r => !r.free && r.region = n && r.key.isSome && r.stamp < x.2.1) ||
      ((m.slot n).isNone && m.hop.merge.any (fun e => e.region = n))
    if busy then m else { m with cry := { m.cry with linger := m.cry.linger.filter (fun y => y.1 != n) } }

/-- Does a slot match a verifier (R321)? -/
def Mod.verOf (m : Mod) (r : Nat) (s : Slot) (gen : Nat) : Dword := verifier s gen r (m.tagged r)

/-- A refused load: counted and recorded. -/
def Mod.keyRefused (m : Mod) (r : Nat) : Mod := (m.bump cKeyf).secRec r 0 0

/-- OP 1 on a region's slot. -/
def Mod.keyLoad (m : Mod) (r : Nat) (s : Slot) : Mod :=
  let v := m.verOf r s (m.crec r).gen
  match (m.crec r).ver with
  | none => (((m.setCrec r (fun c => { c with ver := some v })).setSlot r (some s)).crecDirty r).sendKeychk r (m.crec r).gen
  | some w => if w = v then (m.setSlot r (some s)).sendKeychk r (m.crec r).gen else m.keyRefused r
/-- OP 2. -/
def Mod.keyClear (m : Mod) (r : Nat) : Mod := m.dropSlot r

/-- The pages of a region. -/
def Mod.inRegion (m : Mod) (r page : Nat) : Bool :=
  let w1 := m.rw1 r
  decide (regPage0 w1 ≤ page) && decide (page < regPage0 w1 + regPages w1)

/-- The Seam of a region ends and its slot is cleared. -/
def Mod.seamStop (m : Mod) (r : Nat) : Mod :=
  match m.seamOf r with
  | some e => (m.dropSlot (4096 + e)).setSeam e (fun _ => {})
  | none => m

/-- OP 3 (R325). -/
def Mod.cryptoErase (m : Mod) (r : Nat) : Mod :=
  let m := (m.dropSlot r).seamStop r
  let g := m.assignGen
  let m := (g.2.setCrec r (fun _ => { gen := g.1, erasing := true })).crecDirty r
  let m := m.dropPages (m.inRegion r)
  if m.homeHere r && m.linkUp then m.sendRegcfg r true else m

/-- At a boundary: an erase whose record is durable ends. -/
def Mod.eraseBoundary (m : Mod) : Mod :=
  (m.cry.recs.filter (fun e => e.2.erasing && !m.cry.pend.contains e.1)).foldl (fun m e =>
    let m := (m.setCrec e.1 (fun c => { c with erasing := false })).crecDirty e.1
    { m with cry := { m.cry with erased := m.cry.erased + 1 } }) m

/-- A region entry's VALID bit has changed with this boundary (R318, R322). -/
def Mod.validChange (m : Mod) (old : Tbl Word) : Mod :=
  let was := validRegions old
  let now := validRegions m.cfg.plates
  let m := (was.filter (fun r => !now.contains r)).foldl (fun m r =>
    (((m.dropSlot r).seamStop r).setCrec r (fun c => { gen := c.gen })).crecDirty r) m
  (now.filter (fun r => !was.contains r && !(m.twr r).held)).foldl (fun m r =>
    let g := m.assignGen
    (g.2.setCrec r (fun _ => { gen := g.1 })).crecDirty r) m

/-! ### The Seam (R327–R332) -/

/-- A Seam start applies with the engine's slot. -/
def Mod.seamBegin (m : Mod) (e r : Nat) (verify : Bool) (cu : Nat) (s : Slot) : Mod :=
  let g := m.assignGen
  let v := g.2.verOf r s g.1
  let m := (g.2.setCrec r (fun c => { c with seam := true, seamGen := g.1, seamVer := some v, seamPtr := 0 })).setSlot (4096 + e) (some s)
  let m := (m.setSeam e (fun _ => { st := .starting, region := r, verify, cu, gen := g.1 })).crecDirty r
  if m.homeHere r && m.linkUp then (m.sendRegcfg r false).sendKeychk r g.1 else m

/-- The line of a region at an index. -/
def Mod.lineAt (m : Mod) (r i : Nat) : Nat := rBase (m.rw1 r) * 16777216 + i
/-- Is anything stored for the page: a media location, a frame? -/
def Mod.seamMapped (m : Mod) (page : Nat) : Bool := m.entry page != 0 || !(m.waysOf page).isEmpty

/-- A line's cell, brought into the hopper where it is on the medium. -/
def Mod.seamFetch (m : Mod) (lineNo : Nat) (bad : List (Fin 10)) : Option Cell × Mod :=
  let r := m.scanCell lineNo bad
  match r.1 with
  | .cell c => (some c, r.2)
  | _ => (none, r.2)

/-- Check one line of the unknown pages after a start (R331): the generation that verifies; neither poisons it. An untagged region has
nothing to check by: its line is poisoned. -/
def Mod.recheckLine (m : Mod) (e r lineNo : Nat) : Mod :=
  if m.poisoned lineNo then m
  else if !m.tagged r then m.mark lineNo false
  else
    let f := m.seamFetch lineNo []
    match f.1, m.slot r, m.slot (4096 + e) with
    | some c, some a, some b =>
      let old := slotUse a (m.crec r).gen
      let new := slotUse b (m.crec r).seamGen
      if c.zero || lineTag new lineNo c.ct == c.tag then f.2
      else if lineTag old lineNo c.ct == c.tag then
        (f.2.place (lineNo / 64) (lineNo % 64) (sealLine new lineNo true (decCell old lineNo c)) false true).getD f.2
      else f.2.mark lineNo false
    | _, _, _ => f.2

/-- Pages D to D + 255 of a region that hold anything. -/
def Mod.seamWindow (m : Mod) (r d : Nat) : List Nat :=
  ((List.range 256).map (fun i => regPage0 (m.rw1 r) + d + i)).filter (fun p => m.inRegion r p && m.seamMapped p)

/-- A suspended engine resumes once both slots are loaded. -/
def Mod.seamResume (m : Mod) (e : Nat) : Mod :=
  let s := m.seam e
  if s.st = .suspended && (m.slot s.region).isSome && (m.slot (4096 + e)).isSome then
    let m := if s.recheck then
        let m := (m.seamWindow s.region s.durable).foldl (fun m p => (List.range 64).foldl (fun m j => m.recheckLine e s.region (p * 64 + j)) m) m
        m.setSeam e (fun x => { x with ptr := (s.durable + 256) * 64, recheck := false })
      else m
    m.setSeam e (fun x => { x with st := .running })
  else m

/-- CRY_SEAMCTL applies with START, with the Seam slot's words where the transaction loads them. -/
def Mod.seamCtl (m : Mod) (e : Nat) (v : Word) (s : Option Slot) : Mod :=
  let r := bits v 11 0
  let x := m.seam e
  match x.st with
  | .idle => match s with
    | some s => m.seamBegin e r (bit v 30) (bits v 29 28) s
    | none => m
  | .stopped => m.setSeam e (fun x => { x with st := .running, verify := bit v 30, cu := bits v 29 28 })
  | .suspended =>
    let m := m.setSeam e (fun x => { x with verify := bit v 30, cu := bits v 29 28 })
    match s with
    | some s =>
      if (m.crec r).seamVer = some (m.verOf r s (m.crec r).seamGen) then (m.setSlot (4096 + e) (some s)).sendKeychk r (m.crec r).seamGen
      else m.keyRefused r
    | none => m
  | _ => m

/-- A start record has become durable: the engine runs. A durable pointer record moves D (R331). -/
def Mod.seamDurable (m : Mod) : Mod :=
  (List.range 2).foldl (fun m e =>
    let s := m.seam e
    if s.st = .idle || m.cry.pend.contains s.region then m
    else
      m.setSeam e (fun x => { x with st := if x.st = .starting then .running else x.st, durable := (m.crec x.region).seamPtr / 64 })) m

/-- A pointer record whenever S has crossed 128 pages beyond D. -/
def Mod.seamPoint (m : Mod) (e : Nat) : Mod :=
  let s := m.seam e
  let at_ := s.ptr / 64
  if (m.crec s.region).seamPtr / 64 + 128 ≤ at_ then
    (m.setCrec s.region (fun c => { c with seamPtr := s.ptr })).crecDirty s.region
  else m

/-- S advances past line `i`; the region's last page ends the walk with the finish record. -/
def Mod.seamAdvance (m : Mod) (e i : Nat) : Mod :=
  let s := m.seam e
  let r := s.region
  let pages := (m.hop.map.map (·.1) ++ (m.hop.frames.filter (fun x => x.2.v)).map (fun x => x.2.page)).filter (m.inRegion r)
  let p0 := regPage0 (m.rw1 r)
  let here := i % 64 = 0
  let next : Option Nat := if here then bestBy (fun a b => decide (a < b)) (pages.filter (fun p => p0 + i / 64 ≤ p)) else some (p0 + i / 64)
  match next with
  | some p => (m.setSeam e (fun x => { x with ptr := if here then (p - p0) * 64 else i, done := if here && i = x.ptr + 1 then x.done + 1 else x.done })).seamPoint e
  | none =>
    let n := regPages (m.rw1 r) * 64
    ((m.setSeam e (fun x => { x with ptr := n, st := .finishing, done := if i = x.ptr + 1 then x.done + 1 else x.done })).setCrec r (fun c => { c with seamPtr := n })).crecDirty r

/-- The claimed unit's CRC takes both plaintexts (R332). -/
def Mod.seamFeed (m : Mod) (n : Nat) (a b : Line) : Mod :=
  m.setCu n (fun c => (c.feed (leBytes 64 a.toNat)).feed (leBytes 64 b.toNat))

/-- Rewrite line S under the new key. -/
def Mod.seamRewrite (m : Mod) (e lineNo : Nat) (verifyOk : Bool) (bad : List (Fin 10)) : Mod :=
  let s := m.seam e
  let r := s.region
  let i := m.lineIn r lineNo
  let m := (m.lineSettle lineNo).filterCount 3 none 5 false lineNo 64
  let f := m.seamFetch lineNo bad
  match f.1, m.slot r, m.slot (4096 + e) with
  | some c, some a, some b =>
    let old := slotUse a (m.crec r).gen
    let new := slotUse b s.gen
    let tg := m.tagged r
    let m := f.2
    if !tagOk tg old lineNo c then (m.tagFail r lineNo).seamAdvance e (i + 1)
    else
      let d := decCell old lineNo c
      let cell := sealLine new lineNo tg d
      let m := if s.verify then m.seamFeed s.cu d d else m
      if s.verify && !verifyOk then ((m.setSeam e (fun x => { x with st := .stopped })).bump cSvf).secRec r 2 (lineNo * 64)
      else match m.place (lineNo / 64) (lineNo % 64) cell false tg with
        | none => m
        | some m =>
          let m := (m.filterCount 3 none 5 true lineNo 64).happen 0x17 1
          let m := (m.mirror r lineNo s.gen cell.ct false (rMirror (m.rw0 r) = 1) tg none none).2
          m.seamAdvance e (i + 1)
  | none, _, _ => if f.2.poisoned lineNo then f.2.seamAdvance e (i + 1) else f.2
  | _, _, _ => f.2

/-- SEAM_LINE_REWRITE: unmapped pages are passed over; poisoned lines keep their mark; the engine waits at page D + 256 and
while the budget is spent. -/
def Mod.seamLine (m : Mod) (e : Nat) (verifyOk : Bool) (bad : List (Fin 10)) : Mod :=
  let s := m.seam e
  if s.st != .running || m.evacRunning || m.pwr.phase < 4 then m
  else
    let lineNo := m.lineAt s.region s.ptr
    if !m.seamMapped (lineNo / 64) || regPages (m.rw1 s.region) ≤ s.ptr / 64 then m.seamAdvance e s.ptr
    else if s.durable + 256 ≤ s.ptr / 64 then m
    else if m.poisoned lineNo then m.seamAdvance e (s.ptr + 1)
    else if m.budget < m.dt + 4096 then m
    else m.seamRewrite e lineNo verifyOk bad

/-- At a boundary: a Seam whose finish record is durable ends (R330); suspended engines with both keys resume. -/
def Mod.seamBoundary (m : Mod) : Mod :=
  (List.range 2).foldl (fun m e =>
    let s := m.seam e
    if s.st = .finishing && !m.cry.pend.contains s.region then
      let r := s.region
      let k := m.slot (4096 + e)
      let m := (m.dropSlot r).setCrec r (fun c => { gen := c.seamGen, ver := c.seamVer })
      let m := (((m.setSlot r k).setSlot (4096 + e) none).setSeam e (fun _ => {})).crecDirty r
      if m.homeHere r && m.linkUp then m.sendRegcfg r false else m
    else m.seamResume e) m

end Sys2Proof.Machine
end

