-- ==== Sys2Proof/Machine/Drift.lean ====
section
/-!
DEFINITION. Drift (R169–R185): age buckets, equivalent age, temperature buckets, the patrol's visits with refinement and fragile
marks, the horizon, and the time across a power-off.
-/

namespace Sys2Proof.Machine

/-! ### Ages (R169–R172) -/

/-- Bucket of an age in seconds. -/
def ageBucket (a : Nat) : Nat := min 27 (log2Floor 64 (a + 1))
/-- Held buckets are keyed stripe block × 8 + segment. -/
def segKey (k s : Nat) : Nat := 8 * k + s
def Mod.bucketHeld (m : Mod) (k s : Nat) : Nat := tget 0 m.fb.buckets (segKey k s)

/-- AGE_BUCKET_REEVAL of the buckets 0–11, or of 12–27. -/
def Mod.reeval (m : Mod) (late : Bool) : Mod :=
  m.upk.blks.foldl (fun m e => e.2.ms.foldl (fun m g =>
    let b := m.bucketHeld e.1 g.1
    if (12 ≤ b : Bool) == late then
      { m with fb := { m.fb with buckets := tput 0 m.fb.buckets (segKey e.1 g.1) (ageBucket (m.ms - g.2.1)) } }
    else m) m) m

/-- 2^(t / 10) equivalent seconds in units of 2^-32 s, with `t` the excess over 55 °C in units of 0.1 °C. -/
def ageRate (t : Int) : Nat :=
  let q := t / 100
  let f := if t % 100 = 0 then 2 ^ 32 else Config.pow2Frac (t % 100).toNat
  if 0 ≤ q then f * 2 ^ q.toNat else f / 2 ^ (-q).toNat
/-- The temperature that the rate of group `g` takes: the highest model temperature of its dies since the last tick, or OFFTEMP in M4, where
CORE is off and the configuration is the stored one (R171). Log entry 57 (DEDUCED). -/
def Mod.ageTemp (m : Mod) (g : Nat) : Int :=
  if m.pwr.pstate = 4 then 10 * bits (pget m.nv2.plates (pkey 0 (0x6010C / 4))) 15 8
  else
    let now := ((sgDies g).map (fun n => (m.therm (64 + n)).temp)).foldl max ((m.therm (64 + dieOf g 0)).temp)
    match tget none m.fb.hot g with | some h => max h now | none => now
def Mod.addW (m : Mod) (g n : Nat) : Mod := { m with fb := { m.fb with w := tmod 0 m.fb.w g (· + n) } }

/-- Equivalent age of a segment and of a block's oldest segment, seconds. -/
def Mod.eqAge (m : Mod) (k s : Nat) : Nat := tget 0 m.fb.w (k / 16384) / 2 ^ 32 - (tget (0, 0) (m.blk k).ms s).2
def Mod.oldest (m : Mod) (k : Nat) : Nat := ((m.blk k).ms.map (fun g => m.eqAge k g.1)).foldl max 0
/-- The horizon in equivalent seconds (R180). -/
def Mod.horizon (m : Mod) : Nat := bits (m.w 0 0x6010C) 7 0 * 86400
/-- The moment a block reaches its horizon, as media seconds at the rate of 55 °C. Log entry 83 (DEDUCED). -/
def Mod.horizonAt (m : Mod) (k : Nat) : Nat := m.ms + (m.horizon - m.oldest k)

/-- Blocks with valid pages whose oldest segment has reached 90 % of its horizon are queued (R180). -/
def Mod.horizonQueue (m : Mod) : Mod :=
  (m.upk.blks.filter (fun e => (e.2.st = .opened || e.2.st = .full || e.2.st = .moving) && 9 * m.horizon ≤ 10 * m.oldest e.1 &&
    m.nValid e.1 != 0)).foldl
    (fun m e => m.queueRefresh (e.1 / 16384) (e.1 % 16384) (some (m.horizonAt e.1))) m

/-- EQUIV_AGE_TICK, once in each second of the DTC (R171). -/
def Mod.ageTick (m : Mod) : Mod :=
  let sec := m.time.dtc / 1000000000
  if sec ≤ m.fb.aged then m
  else
    let m := (List.range 20).foldl (fun m g => m.addW g (ageRate (m.ageTemp g - 550))) m
    ({ m with fb := { m.fb with hot := [], aged := sec } }).horizonQueue
/-- Buckets of every segment as recovery loads them into the reference stores (R172). -/
def Mod.loadBuckets (m : Mod) : Mod :=
  m.upk.blks.foldl (fun m e => e.2.ms.foldl (fun m g =>
    { m with fb := { m.fb with buckets := tput 0 m.fb.buckets (segKey e.1 g.1) (ageBucket (m.ms - g.2.1)) } }) m) m

/-- Temperature bucket (R173). -/
def tempBucket (t : Int) : Nat := (min 7 (max 0 ((t - 50) / 100))).toNat
/-- TEMP_BUCKET_CHANGE: the model temperature is 1 °C beyond the bucket's edge (R174). -/
def Mod.tempChange (m : Mod) (n : Nat) : Mod :=
  let t := (m.therm (64 + n)).temp
  let b : Int := (m.die n).tbucket
  if 100 * b + 160 ≤ t || t < 100 * b + 40 then m.setDie n (fun d => { d with tbucket := tempBucket t }) else m
/-- The set of a die's reference table for its temperature bucket (R174): age bucket × 8 + boundary → entry, the factory value where nothing
is listed. -/
def Mod.setOfDie (m : Mod) (n : Nat) : Tbl Word :=
  (m.cfg.plates.filter (fun e => isDrf e.1 && e.1 / 0x200000 / 65536 = n && e.1 / 0x200000 / 8 % 32 = (m.die n).tbucket)).foldl
    (fun (t : Tbl Word) (e : Nat × Word) => tput 0 t (e.1 / 0x200000 / 256 % 256 * 8 + e.1 / 0x200000 % 8) e.2) []
/-- A die's set has changed: it is loaded into the shadow, and shadow and active set are swapped between two sensings (R174). -/
def Mod.loadSet (m : Mod) (n : Nat) : Mod :=
  let t := m.setOfDie n
  if (m.die n).active = t then m else m.setDie n (fun d => { d with shadow := d.active, active := t })
/-- Dies whose sets follow changed entries or temperature buckets. -/
def Mod.loadSets (m : Mod) : Mod :=
  let ds := ((m.cfg.plates.filter (fun (e : Nat × Word) => isDrf e.1)).map (fun (e : Nat × Word) => e.1 / 0x200000 / 65536) ++
    (m.med.dies.filter (fun (e : Nat × Die) => !e.2.active.isEmpty)).map (fun (e : Nat × Die) => e.1)).eraseDups
  (ds.filter (· < 200)).foldl (fun m n => m.loadSet n) m

/-! ### The patrol (R178–R184) -/

/-- Wordlines of a block that hold programmed rows. -/
def Blk.wordlines (b : Blk) : Nat := match b.wr with
  | some w => if w.journalMode then min 512 (cdiv b.nextWl 20) else min 512 b.nextWl
  | none => min 512 b.nextWl
/-- Codewords of a block that a pass visits: 64 on each programmed wordline of each die that has not failed. -/
def Mod.blkWords (m : Mod) (k : Nat) (b : Blk) : Nat := 64 * b.wordlines * (10 - m.sgFailed (k / 16384))
/-- Codewords of a die-block's wordline, and of a whole block, that this pass has visited. -/
def visitKey (k x wl : Nat) : Nat := (k * 10 + x) * 512 + wl
def Mod.visitedOf (m : Mod) (k : Nat) : Nat := total ((m.fb.visited.filter (fun e => e.1 / 5120 = k)).map (·.2))
def Blk.patrolled (b : Blk) : Bool := b.st = .opened || b.st = .full || b.st = .moving || b.st = .metadata
def Mod.passSize (m : Mod) : Nat := total ((m.upk.blks.filter (fun e => e.2.patrolled)).map (fun e => m.blkWords e.1 e.2))
def Mod.cycleNs (m : Mod) : Nat := bits (m.w 0 0x60100) 8 0 * 3600000000000
/-- A new pass. -/
def Mod.passStart (m : Mod) : Mod :=
  let n := m.passSize
  { m with fb := { m.fb with passTotal := n, passLeft := n, passAt := m.time.dtc, visited := [] } }
def Mod.patrolRuns (m : Mod) : Bool :=
  m.pwr.pstate < 2 && 4 ≤ m.pwr.phase && m.per.evac.isNone && !bit (m.w 0 0x60118) 0 && m.thTop.1 < 3

/-- FIREBOSS_RATE_TICK: codewords left over the time left, per second. -/
def Mod.rateTick (m : Mod) : Mod :=
  if m.patrolRuns then
    let m := if m.fb.passTotal = 0 then m.passStart else m
    let left := max 1 ((m.fb.passAt + m.cycleNs - m.time.dtc) / 1000000000)
    { m with fb := { m.fb with rate := cdiv m.fb.passLeft left } }
  else { m with fb := { m.fb with rate := 0 } }

/-- Plate key of a table entry's DRF_ENTRY. -/
def drfInst (n a t k : Nat) : Nat := n * 65536 + a * 256 + t * 8 + k
def signed8 (v : Nat) : Int := if v < 128 then v else (v : Int) - 256

/-- Refine one entry (R179). -/
def Mod.refineEntry (m : Mod) (i dm dp : Nat) : Mod :=
  let x := tget ({} : Refine) m.fb.refine i
  let y : Refine := { x with visits := x.visits + 1, dm := x.dm + dm, dp := x.dp + dp }
  let key := pkey i (0x60184 / 4)
  let w := pget m.cfg.plates key
  let o := signed8 (bits w 7 0)
  let n : Int := if y.dp + (y.dm + y.dp) / 4 < y.dm && 4 * (y.dm - y.dp) > y.dm + y.dp then min 127 (o + 1)
    else if y.dm < y.dp && 4 * (y.dp - y.dm) > y.dm + y.dp then max (-128) (o - 1) else o
  let set := fun (m : Mod) (v : Refine) => { m with fb := { m.fb with refine := tput {} m.fb.refine i v } }
  if 4096 ≤ y.visits && n != o && !bit w 31 && !bit (m.w 0 0x60118) 1 && (y.changedAt = 0 || y.changedAt + 3600000000000 ≤ m.time.dtc) then
    let v := fld 31 (bits w 31 31) ||| fld 0 (n % 256).toNat
    let m := set m { changedAt := m.time.dtc }
    { m with cfg := { m.cfg with plates := pput m.cfg.plates key v } }
  else set m y

/-- Mark a die-block fragile (R180); twice early in a row retires it (R183). A block marked before and no longer queued is queued again. -/
def Mod.markFragile (m : Mod) (sg blk x seg : Nat) : Mod :=
  let k := bkey sg blk
  if (m.blk k).fragile.getLsbD x then
    (if m.fb.refq.any (fun q => q.sg = sg && q.blk = blk) then m else m.queueRefresh sg blk (some (min (m.ms + 86400) (m.horizonAt k))))
  else
    let early : Bool := m.eqAge k seg < 86400
    let run := if early then tget 0 (m.blk k).fragRun x + 1 else 0
    let m := m.setBlk k (fun b => { b with fragile := b.fragile ||| (1#10 <<< x), fragRun := tput 0 b.fragRun x run })
    let m := ((m.bump cFrag).bump (cDie (dieOf sg x))).queueRefresh sg blk (some (min (m.ms + 86400) (m.horizonAt k)))
    if 2 ≤ run then
      let m := m.retire sg blk x
      ({ m with fb := { m.fb with unref := m.fb.unref + 1 } }).upkeepRec (326 + dieOf sg x) 2 k
    else m

/-- A visit counts towards its pass. -/
def Mod.passCount (m : Mod) : Mod :=
  let m := { m with fb := { m.fb with passLeft := m.fb.passLeft - 1 } }
  if m.fb.passLeft = 0 then ({ m with fb := { m.fb with passes := m.fb.passes + 1 } }).passStart else m

/-- MVERIFY finds a copy of a journal page or root record that does not match its CRC: that copy is rewritten (R185, R143). Of the pages on
the wordline visited it is the first. Log entry 108 (DESIGN CHOICE). -/
def Mod.metaRewrite (m : Mod) (sg blk x wl : Nat) : Mod :=
  match (m.blk (bkey sg blk)).wr with
  | some .journal => match m.med.jpages.find? (fun p => enSg p.loc = sg && enBlk p.loc = blk && enPg p.loc / 4 = wl && enCh p.loc / 2 = x / 2) with
    | some p => m.rewriteJ p.seq (x % 2)
    | none => m
  | some .root => if (m.blk (rootBlk m.med.ckLast)).nextWl < 10240 && rootBlk m.med.ckLast = bkey sg blk then
      (m.bump (cDie (dieOf sg x))).writeRoot m.med.ckLast else m
  | _ => m

/-- FIREBOSS_VISIT of one codeword of a die-block's wordline: its three sensings' results (R178). Each of the 64 is visited once a pass; a busy
die is waited for; blocks it is behind on come first (R184). -/
def Mod.visit (m : Mod) (sg blk x wl : Nat) (res : Decode1) (dMinus dPlus : List Nat) (crcBad : Bool) : Mod :=
  let k := bkey sg blk
  let b := m.blk k
  let n := dieOf sg x
  let key := visitKey k x wl
  if !(m.patrolRuns && b.patrolled && wl < b.wordlines && !m.dieFailed n) || (m.therm (64 + n)).level = 2 || m.dieBusy n ||
      64 ≤ tget 0 m.fb.visited key || !(m.fb.behind.isEmpty || m.fb.behind.contains (sg, blk)) then m
  else
    let m := (m.setMch (mcOf sg x) (fun h => { h with xfer := h.xfer + 3 })).happen 0x0F 3
    let m := { m with fb := { m.fb with visited := tmod 0 m.fb.visited key (· + 1) } }
    let m := if m.blkWords k b ≤ m.visitedOf k then
        let m := m.setBlk k (fun b => { b with lastVisit := m.time.dtc })
        { m with fb := { m.fb with behind := m.fb.behind.filter (· != (sg, blk)) } }
      else m
    let m := m.passCount
    let a := m.bucketHeld k (wl / 64)
    let t := (m.die n).tbucket
    let m := (List.range 7).foldl (fun m i => m.refineEntry (drfInst n a t (i + 1)) (lget dMinus i) (lget dPlus i)) m
    let m := if crcBad && bit (m.w 0 0x60118) 3 && b.st = .metadata then m.metaRewrite sg blk x wl else m
    let w := m.w 0 0x60108
    let wide : Bool := bits w 31 16 ≤ total (dMinus.take 7) + total (dPlus.take 7)
    match res with
    | .ok c =>
      let m := m.setDie n (fun d => { d with bits := d.bits + c.val })
      if bits w 4 0 ≤ c.val || wide then m.markFragile sg blk x (wl / 64) else m
    | .uncorrectable => (m.codewordBad sg blk x).markFragile sg blk x (wl / 64)

/-- Blocks not visited for a cycle, when the module returns to M0 or M1 (R184). -/
def Mod.listBehind (m : Mod) : Mod :=
  let l := (m.upk.blks.filter (fun e => e.2.patrolled && e.2.lastVisit + m.cycleNs < m.time.dtc)).map (fun e => (e.1 / 16384, e.1 % 16384))
  { m with fb := { m.fb with behind := l } }

/-- REFRESH_OVERDUE (R182). -/
def Mod.overdue (m : Mod) (sg blk : Nat) : Mod :=
  let hit := fun (q : Refresh) => decide (q.sg = sg) && decide (q.blk = blk) && !q.overdue
  if m.fb.refq.any hit && m.horizon ≤ m.oldest (bkey sg blk) then
    ({ m with fb := { m.fb with refq := lmod hit (fun q => { q with overdue := true }) m.fb.refq } }).bump cOvd
  else m

/-! ### Witness rows and gaps (R176, R177) -/

/-- DTC_SAVE: the DTC is saved, one witness row per set programmed. -/
def Mod.dtcSave (m : Mod) : Mod :=
  if m.pwr.aonReset || m.pwr.phase = 0 then m
  else
    let m := m.saveDtc
    if m.pwr.phase = 4 || m.pwr.phase = 5 then { m with fb := { m.fb with witness := m.fb.witness ++ [m.ms] } } else m

/-- The newest media second that the medium records: segment stamps, the witness, the persisted tables (R169). -/
def Mod.newestMs (m : Mod) : Nat :=
  ((m.upk.blks.flatMap (fun e => e.2.ms.map (fun g => g.2.1))) ++ m.fb.witness).foldl max m.nv2.msSaved

/-- After a lost DTC the media seconds exceed by one every one recorded. -/
def Mod.raiseGap (m : Mod) (lost : Bool) : Mod :=
  if lost then { m with fb := { m.fb with gapsum := m.fb.gapsum + (m.newestMs + 1 - m.ms) } } else m

/-- Move a segment's stamp so that its age is the middle of a bucket (R177): after a witness estimate the sweep has sensed with the
segment's bucket and its two neighbours only, after an assumed gap with all. -/
def Mod.sweepSeg (m : Mod) (k s b : Nat) : Mod :=
  let near := fun (b0 : Nat) => m.fb.gapsrc = 2 || (b ≤ b0 + 1 && b0 ≤ b + 1)
  m.setBlk k (fun x =>
    let b0 := ageBucket (m.ms - (tget (0, 0) x.ms s).1)
    if x.ms.any (fun g => g.1 = s) && b != b0 && near b0 then
      { x with ms := tmod (0, 0) x.ms s (fun g => (m.ms - (2 ^ b - 1 + 2 ^ b / 2), g.2)) } else x)

/-- The time AON stood unpowered (R176): from the newest witness row that reads and its best bucket, or assumed. A0 is the MS at the last DTC
save less the row's stamp; after a lost DTC the MS now. -/
def Mod.creditGap (m : Mod) (witness : Option (Nat × Nat)) : Mod :=
  let row := witness.bind (fun w => m.fb.witness.reverse[w.1]?)
  let ms0 := if m.time.lost then m.ms else m.time.resumed / 1000000000 + m.fb.gapsum
  let a0 := ms0 - row.getD 0
  let ok : Bool := row.isSome
  let g := if ok then 2 ^ (max ((witness.map (·.2)).getD 0) (ageBucket a0) + 1) - 1 - a0 else bits (m.w 0 0x60110) 8 0 * 86400
  let off : Int := 10 * bits (m.w 0 0x6010C) 15 8
  let m := { m with fb := { m.fb with gapsum := m.fb.gapsum + g, gap := g, gapsrc := if ok then 1 else 2 } }
  let m := (List.range 20).foldl (fun m k => m.addW k (g * ageRate (off - 550))) m
  if ok then m else m.bump cFb

end Sys2Proof.Machine
end

