-- ==== Sys2Proof/Machine/Start.lean ====
section
/-!
DEFINITION. A start (R432–R442): power-up, the firmware image, training, and recovery in the order of R208 with the start kinds
of R207.
-/

namespace Sys2Proof.Machine

/-! ### Power-up (R17, R340, R432, R433) -/

/-- VIN crosses VTH + 0.20 V while AON is unpowered. -/
def Mod.vinUp (m : Mod) (mv : Nat) : Mod :=
  if m.pwr.aonReset && bits (m.w 0 0x7002C) 12 0 + 200 < mv then { m with pwr := { m.pwr with vinOn := true } } else m

/-- The DTC that AON counts on from (R17). -/
def resumeDtc (d : Option Nat) : Nat := match d with | some v => cdiv v 1000000000 * 1000000000 + 1000000000 | none => 0

/-- AON leaves reset: PHASE 1. With no readable copy of the stored DTC it starts at 0 (R17). -/
def Mod.aonRelease (m : Mod) (slotId : Nat) (dtcReads : Bool) : Mod :=
  if m.pwr.vinOn && m.pwr.aonReset then
    let m := if dtcReads then m else { m with nv := { m.nv with dtc := none } }
    let t := resumeDtc m.nv.dtc
    let m := { m with
      time := { m.time with dtc := t, opsecAt := t, lost := m.nv.dtc.isNone, resumed := m.nv.dtc.getD 0 }
      path := { m.path with slotId := slotId }
      pwr := { m.pwr with aonReset := false, wasOff := true }
      seed := { m.seed with recallUntil := if m.nv.compat then some (t + 3000000) else none }
      nv := { m.nv with pwrcyc := m.nv.pwrcyc + 1 } }
    let m := [0, 1, 2].foldl (fun m k => m.setRail k (fun r => { r with st := .inWindow })) m.startBegin
    let m := if m.time.lost then m.bump cTime else m
    m.badPages.foldl (fun m _ => m.bump cSeed) m
  else m

/-! ### Image and training (R434, R435, R439) -/

/-- PHASE 3 once training and the image load are complete, with the HOPPER and MEDIA groups up. -/
def Mod.phase3 (m : Mod) : Mod :=
  if m.pwr.phase = 2 && m.pwr.imgLoaded && m.pwr.trainOk && (groupRails 3 ++ groupRails 4).all (fun k => (m.rail k).st = .inWindow) then
    { m with pwr := { m.pwr with phase := 3 } }
  else m

/-- The slots in AON's order. -/
def slotOrder (next : Nat) : List Nat := ([next] ++ ([0, 1].filter (· != next)) ++ [2]).eraseDups

/-- A hook word of the image in slot `s`. The base shift as shipped binds hook 0 to ESRC 559, hook 1 to 558 and hook 2 to 566 (R430); a slot
that firmware was transferred into holds what was transferred. Log entry 120 (DEDUCED). -/
def Mod.imageHook (m : Mod) (s h w : Nat) : Word :=
  let v := Config.imageHookWord s h w
  if h < 3 && w = 0 && !m.nv2.fwVer.any (fun e => e.1 = s) then
    (v &&& ~~~ (0xF00003FF : Word)) ||| flag 31 true ||| fld 28 1 ||| fld 0 (lget [559, 558, 566] h)
  else v
/-- Reset values of hook entries 0–31 and trigger entries 56–63 in an image. -/
def Mod.imagePlates (m : Mod) (s : Nat) : Mod :=
  let hooks := (List.range 32).flatMap (fun h => (List.range 4).map (fun w => (0x103000 + 4 * h + w, m.imageHook s h w)))
  let trigs := (List.range 8).flatMap (fun t => (List.range 13).map (fun w => (0x102000 + 16 * (56 + t) + w, Config.imageTrigWord s (56 + t) w)))
  let p := (hooks ++ trigs).foldl (fun p e => writePlate p ⟨e.1, e.1, e.2⟩) m.cfg.plates
  { m with cfg := { m.cfg with plates := p } }

/-- IMAGE_LOAD_DONE: the first valid slot runs. -/
def Mod.imageLoad (m : Mod) (v : List Bool) : Mod :=
  if m.pwr.imgLoaded || !(m.pwr.phase = 1 || m.pwr.phase = 2) then m
  else
    let ok := fun (s : Nat) => (v[s]?).getD false && !m.nv2.fwBad.contains s
    match (slotOrder m.nv2.fwNext).find? ok with
    | some s =>
      let m := { m with nv2 := { m.nv2 with fwRun := s }, pwr := { m.pwr with imgLoaded := true } }
      let m := if s = m.nv2.fwNext then m else m.bump cFw
      (m.imagePlates s).phase3
    | none =>
      let m := m.powerDown .stay
      { m with pwr := { m.pwr with phase := 1 } }

/-- TRAINING_DONE: hopper channels that fail here, and those that failed since AON was powered, are fenced and left out of the layout; three
or more keep the module in PHASE 2 (R115). Log entry 112 (DEDUCED). -/
def Mod.training (m : Mod) (hop med : List Nat) : Mod :=
  if m.pwr.phase != 2 || m.pwr.trainOk then m
  else
    let m := (List.range 54).foldl (fun m c =>
      if hop.contains c || (m.hch c).failed then m.setHch c (fun h => { h with trained := false, failed := true, fenced := true, out := true })
      else m.setHch c (fun h => { h with trained := true })) m
    let m := (List.range 20).foldl (fun m c => if med.contains c then m.mediaChanFail c 0 else m.setMch c (fun h => { h with trained := true })) m
    if 3 ≤ (List.range 54).countP (fun c => (m.hch c).failed) then m
    else ({ m with pwr := { m.pwr with trainOk := true } }).phase3

/-! ### Recovery: map, configuration, blocks (R138, R158, R208 steps 1–6, R440) -/

/-- Journal pages in sequence order. -/
def insertPage (p : JPage) : List JPage → List JPage
  | [] => [p]
  | q :: t => if p.seq ≤ q.seq then p :: q :: t else q :: insertPage p t
def bySeq (l : List JPage) : List JPage := l.foldr insertPage []
/-- The newest checkpoint whose root is valid (R138). -/
def Mod.goodRoot (m : Mod) (bad : List Nat) : Option Ckpt := (m.med.ckpts.filter (fun c => !bad.contains c.seq)).getLast?
/-- The map of that checkpoint with the journal behind it in sequence order; replay stops at a page that is unreadable in both copies
(R136, R138, R143). Log entry 55 (DEDUCED). -/
def Mod.recMap (m : Mod) (bad : List Nat) (lost : Option Nat) : Tbl Nat :=
  let c := m.goodRoot bad
  let m0 : Tbl Nat := match c with | some c => c.map | none => []
  let from_ := match c with | some c => c.start | none => 0
  let ok := fun (p : JPage) => decide (from_ ≤ p.seq) && (match lost with | some s => decide (p.seq < s) | none => true)
  (((bySeq m.med.jpages).filter ok).flatMap (·.recs)).foldl (fun t r => tput 0 t r.page r.new) m0
/-- Checkpoints whose roots are not valid are no checkpoints: their blocks are released. -/
def Mod.dropRoots (m : Mod) (bad : List Nat) : Mod :=
  let gone := m.med.ckpts.filter (fun c => bad.contains c.seq)
  let keep := m.med.ckpts.filter (fun c => !bad.contains c.seq)
  if gone.isEmpty then m
  else ({ m with med := { m.med with ckpts := keep, ckLast := match keep.getLast? with | some c => c.seq | none => 0 } }).releaseBlks
    (gone.flatMap (fun (c : Ckpt) => c.blks))

/-- Plates that a start does not restore. -/
def restored (p : Tbl Word) : Tbl Word :=
  let p := [0xA0104, 0x80054].foldl (fun p o => pput p (pkey 0 (o / 4)) 0) p
  let p := pput p (pkey 0 (0x7003C / 4)) (pget p (pkey 0 (0x7003C / 4)) &&& ~~~ (3 : Word))
  pput p (pkey 0 (0x70010 / 4)) (pget p (pkey 0 (0x70010 / 4)) &&& ~~~ (0x100 : Word))

/-- Configuration from the persistence area; a first start keeps reset values and the image's (R440). Log entry 49 (DEDUCED). -/
def Mod.restoreCfg (m : Mod) (first : Bool) : Mod :=
  let p := if first then m.cfg.plates else restored m.nv2.plates
  let m := { m with cfg := { plates := p, prev := p }, fore := { m.fore with ready := true } }
  let m := m.nv2.hookStore.foldl (fun m e => m.setPs e.1 e.2) m
  m.nv2.lpAlloc.foldl (fun m e => m.setLp e.1 (fun l => { l with static := e.2.1, dcLen := e.2.2 })) m

/-- Blocks after the recount: valid pages keep a block Full; one that holds none and was used is Pending-reset; metadata stays
with the checkpoints, the journal, the records and the images that are kept. Of a block whose reset was pending or under way, die-blocks
that read as blank are not reset again, with a cycle more where no reset of them was recorded (R158). -/
def Mod.recount (m : Mod) (blank : List (Nat × Nat × Nat)) : Mod :=
  let keep := m.med.ckpts.flatMap (·.blks) ++ m.nv2.images.flatMap (·.blks)
  let rec_ := fun (b : Blk) => b.wr = some .evac || b.wr = some .ckpt || b.wr = none
  m.upk.blks.foldl (fun m e =>
    let b := e.2
    let st : BlkSt := match b.st with
      | .free => .free | .donor => .donor | .dead => .dead
      | .metadata => if rec_ b then (if keep.contains e.1 then .metadata else .pendingReset) else .metadata
      | .pendingReset | .resetting => .pendingReset
      | _ => if m.nValid e.1 = 0 then .pendingReset else .full
    let was : Bool := b.st = .pendingReset || b.st = .resetting
    let xs := (List.range 10).filter (fun x => was && blank.contains (e.1 / 16384, e.1 % 16384, x))
    let done : BitVec 10 := xs.foldl (fun v x => v ||| (1#10 <<< x)) 0
    m.setBlk e.1 (fun b => { b with
      st, wr := if st = .metadata || b.wr = some .root then b.wr else none, idxDue := false, resetDone := done
      cyc := xs.foldl (fun t x => if b.resetDone.getLsbD x then t else tput 0 t x (min 1048575 (tget 0 t x + 1))) b.cyc })) m

/-- A module that has never run: block 0 of SG0 and of SG10 hold the root areas; 57 blocks, 1 to 3 of SG0 to SG18, hold the persistence and
Fireboss areas, which with the Tally area's 5 make the 62 of R150. Log entries 78 (DEDUCED), 102 (DESIGN CHOICE). -/
def Mod.rootAreas (m : Mod) : Mod :=
  let m := [0, bkey 10 0].foldl (fun m k => m.setBlk k (fun b => { b with st := .metadata, wr := some .root })) m
  ((List.range 19).flatMap (fun g => [bkey g 1, bkey g 2, bkey g 3])).foldl
    (fun m k => m.setBlk k (fun b => { b with st := .metadata, wr := some .roll })) m

/-- Seams of the crypto records: engines suspended, at S where it is exact, at D to be checked otherwise (R331). Log entry 56 (DEDUCED). -/
def Mod.seamsBack (m : Mod) (exact : Bool) : Mod :=
  let l := ((m.cry.recs.filter (fun e => e.2.seam)).take 2).zipIdx
  l.foldl (fun m e =>
    let c := e.1.2
    let d := c.seamPtr / 64
    let m := m.setSeam e.2 (fun _ => { st := .suspended, region := e.1.1, ptr := c.seamPtr, gen := c.seamGen, durable := d, recheck := !exact })
    if exact then m
    else if m.tagged e.1.1 then m
    else
      let p0 := regPage0 (m.rw1 e.1.1) + d
      let pages := (m.hop.map.filter (fun x => p0 ≤ x.1 && x.1 < p0 + 256 && m.inRegion e.1.1 x.1)).map (·.1)
      let m := pages.foldl (fun m p => (List.range 64).foldl (fun m j => m.mark (p * 64 + j) false) m) m
      m.setSeam e.2 (fun x => { x with ptr := (d + 256) * 64, recheck := false })) m

/-- Mirror states after a start: what mirrored is Broken until a resync; holders keep their copies frozen (R228, R232). -/
def Mod.twinBack (m : Mod) : Mod :=
  let f := fun (x : TwReg) => if x.st = .mirrored || x.st = .resync then { x with st := Mir.broken, wasMir := decide (x.st = .mirrored) || x.wasMir, keyok := false }
    else { x with keyok := false }
  let side := match m.nv.paired with | some p => m.sideBy p | none => 0
  { m with twin := { m.twin with regs := tmap {} f m.nv2.twregs, side, peer := 0, pair := if m.nv.paired.isSome then .broken else .unpaired } }

/-! ### Recovery: what the image brings back (R207–R210) -/

/-- Codes of PER_START.KIND. -/
def kFirst : Nat := 0
def kClean : Nat := 1
def kEvac : Nat := 2
def kLoss : Nat := 3
def kIntr : Nat := 4
def kSuspect : Nat := 5

def Mod.imageOf (m : Mod) (e : Nat) : Option Image := m.nv2.images.find? (fun i => i.e = e)

/-- R207: the first row that applies. -/
def Mod.startKind (m : Mod) (f : RecoveryFinding) : Nat :=
  let byImage := fun (e : Nat) => match m.imageOf e with
    | none => kSuspect
    | some i =>
      if i.marker && f.markerReads then (if i.lost.isEmpty && f.badImage.isEmpty && i.flags % 4 = 0 then kEvac else kLoss)
      else if f.manifestReads then kIntr else kSuspect
  if f.journalLost.isSome then kSuspect
  else match m.nv.prec with
    | .never => kFirst
    | .clean => kClean
    | .evacuating e | .evacuated e => byImage e
    | .armed | .unreadable => kSuspect

/-- Poison a page's lines as internal errors, with their count (R54). -/
def Mod.losePage (m : Mod) (page : Nat) (mask : Dword) : Mod :=
  let m := (List.range 64).foldl (fun m j => if mask.getLsbD j then m.mark (page * 64 + j) false else m) m
  { m with rep := { m.rep with lost := m.rep.lost + popcount mask, lostPages := (m.rep.lostPages ++ [page]).eraseDups } }
/-- Lines that a lost record takes with it: its own, or for a sidecar record those whose tags it held. Log entry 114 (DEDUCED). -/
def ManRec.lines64 (r : ManRec) : Dword :=
  if r.side then (List.range 64).foldl (fun v j => if r.mask.getLsbD (j / 8) then v ||| (1#64 <<< j) else v) 0 else r.mask

/-- Reload one manifest record: its frame, its dirty lines, its marks, the rest from the medium (R209); a sidecar record's tag block goes
beside the reloaded page (R336). -/
def Mod.reload (m : Mod) (r : ManRec) : Mod :=
  let page := r.page
  let tg := m.tagged (m.regionOfPage page)
  let m := if r.poison = 0 then m else m.setPsn page { (m.psn page) with mask := (m.psn page).mask ||| r.poison }
  let loc := m.mediaLoc page
  let lines : Tbl Cell := (List.range 64).foldl (fun t j => tput {} t j
    (if r.mask.getLsbD j then tget {} r.lines j else if loc != 0 then m.mediaCell loc j else { zero := true })) []
  let x : Frame := { v := true, d := true, page, valid := ~~~ (0 : Dword), dirty := r.mask, imgHeld := true, lines,
                     tagDirty := 0 }
  if r.side then
    match m.hop.frames.find? (fun e => e.2.imgHeld && e.2.page = page) with
    | some e => m.setFrame e.1 (fun y => { y with tagDirty := r.mask.setWidth 8 })
    | none => m
  else match m.pickWay page tg with
  | some f => m.setFrame f (fun _ => x)
  | none => match m.pickSpill false with
    | some f => (m.setFrame f (fun _ => { x with saved := loc })).setEntry page (mkSpill f)
    | none => m

/-- Rows under way complete: recovery waits for its own programs. -/
def Mod.finishRows : Nat → Mod → Mod
  | 0, m => m
  | n + 1, m => match m.med.rows with
    | [] => m
    | r :: _ => Mod.finishRows n (if r.wr.journalMode then m.metaVerified r else m.rowVerified r)

/-- Clean the reloaded frames with journal kind 5, and make the records durable (R208 step 9). -/
def Mod.cleanReloaded (m : Mod) : Mod :=
  let fs := (m.hop.frames.filter (fun e => e.2.imgHeld)).map (·.1)
  let m := fs.foldl (fun m f => if m.setHalted (m.placeSet (m.frame f).page) then m else m.cleanFrame f) m
  let m := (Mod.finishRows (2 * m.med.rows.length + 2 * fs.length + 8) m).tailDurable
  fs.foldl (fun m f => m.cleanDone f) m

/-- Pages of records that reach beyond the image lines written before the marker threshold (R468). -/
def Image.beyond (i : Image) : List Nat :=
  if i.flags.testBit 1 then ((manIndex 0 i.man).filter (fun e => i.written < e.2 + popcount e.1.mask)).map (fun e => e.1.page) else []
/-- Image reload: records that were lost, were not written or do not decode poison their dirty lines, the rest come back (R207, R209, R468).
Frames that earlier images still hold come back from those. -/
def Mod.reloadImages (m : Mod) (e : Nat) (bad : List Nat) : Mod :=
  let m := (m.nv2.images.filter (fun i => i.e < e)).foldl (fun m i =>
    i.man.foldl (fun m r => if !r.side && (m.wayOf r.page).isSome then m else m.reload r) m) m
  match m.imageOf e with
  | none => m
  | some i =>
    let gone := i.lost ++ i.beyond ++ bad
    i.man.foldl (fun m r => if gone.contains r.page then m.losePage r.page r.lines64 else m.reload r) m

/-- The roll of a Suspect start: the pages listed, less those cleaned durably after their entry (R210). -/
def Mod.rollPages (m : Mod) : List Nat :=
  let all := m.nv2.roll
  let when_ := fun (p : Nat) => (all.filter (fun r => r.pages.contains p)).foldl (fun a r => max a r.endDtc) 0
  let cleaned := fun (p : Nat) => m.med.jpages.any (fun q => when_ p < q.durAt && q.recs.any (fun r => r.page = p && (r.kind = 0 || r.kind = 5)))
  ((all.flatMap (·.pages)).eraseDups).filter (fun p => !cleaned p)

/-- A Suspect start's marks and reports. -/
def Mod.suspect (m : Mod) : Mod :=
  let l := m.rollPages
  let m := { m with rep := { m.rep with rollList := l } }
  (l.foldl (fun m p => m.losePage p (~~~ (0 : Dword))) m).bump cSus

/-! ### Recovery: the records (R213, R408, R355) -/

/-- The recorder runs from S + 8,193. -/
def Mod.tallyStart (m : Mod) : Mod :=
  let found := (m.nv2.tpages.flatMap (fun p => p.recs.map (·.seq))).foldl max 0
  let s := max found m.nv.tallyBase
  let m := { m with tly := { m.tly with head := s + 8192, base := s + 8193, pers := s + 8192, staged := 0, ring := [], lostBefore := false, running := true } }
  m.tally 0x11 0 islFore (leBytes 1 0 ++ leBytes 8 (s + 1) ++ leBytes 8 8192)

/-- AON hands over its log of writes made while CORE was off. -/
def Mod.handOver (m : Mod) : Mod :=
  let m := m.path.aonLog.foldl (fun m e =>
    if e.2.2.1 then m.tally 2 e.2.2.2 islAon (leBytes 4 0 ++ leBytes 8 0 ++ leBytes 2 1 ++ leBytes 8 m.time.dtc)
    else m.tally 3 e.2.2.2 islAon (leBytes 8 0 ++ leBytes 4 0 ++ leBytes 1 0)) m
  { m with path := { m.path with aonLog := [] } }

/-- A pairing record that neither copy gives: unpaired, epoch 0, recorded (R216). Log entry 118 (DEDUCED). -/
def Mod.pairLost (m : Mod) : Mod :=
  ({ m with nv := { m.nv with paired := none, epoch := 0 } }).tally 0x10 0 islAon (leBytes 1 2 ++ leBytes 4 0)
/-- Steps 1–6: the map, the configuration, ages, blocks. -/
def Mod.recoverBase (m : Mod) (f : RecoveryFinding) (first exact : Bool) : Mod :=
  let m := { m with hop := { m.hop with map := m.recMap f.badRoots f.journalLost, poison := m.nv2.poison }, cry := { m.cry with recs := m.nv2.crec } }
  let m := m.dropRoots f.badRoots
  let m := m.restoreCfg first
  let m := m.tallyStart
  let m := if f.pairReads then m else m.pairLost
  let m := if m.time.lost then m.timeRec islAon 0 0 else m
  let m := m.raiseGap m.time.lost
  let m := if m.pwr.wasOff && !first then (m.creditGap (f.witness.map (fun w => (w.1, w.2.val)))) else { m with fb := { m.fb with gap := 0, gapsrc := 0 } }
  let m := if m.pwr.wasOff && !first then m.timeRec islAon 3 m.fb.gap else m
  let m := if f.tablesRead then m else
    ({ m with cfg := { m.cfg with plates := m.cfg.plates.filter (fun e => !isDrf e.1) }, fb := { m.fb with refine := [] } }.bump cFb).upkeepRec 550 1 0
  let m := if m.pwr.wasOff && !first then f.sweep.foldl (fun m e => m.sweepSeg (bkey e.1.val e.2.1.val) e.2.2.1.val e.2.2.2.val) m else m
  let m := { m with pwr := { m.pwr with wasOff := false } }
  let m := m.loadBuckets
  let m := if first then m.rootAreas else m.recount (f.blank.map (fun e => (e.1.val, e.2.1.val, e.2.2.val)))
  let m := f.journalOne.foldl (fun m e => m.rewriteJ e.1 e.2.val) m
  (m.seamsBack exact).twinBack

/-- Steps 7–9 for a start kind. -/
def Mod.recoverImage (m : Mod) (k : Nat) (bad : List Nat) : Mod :=
  let e := match m.nv.prec with | .evacuating e | .evacuated e => e | _ => 0
  if k = kEvac || k = kLoss || k = kIntr then (m.reloadImages e bad).cleanReloaded
  else if k = kSuspect then m.suspect else m

/-- Step 10. -/
def Mod.recoverEnd (m : Mod) (k : Nat) : Mod :=
  let e := match m.nv.prec with | .evacuating e | .evacuated e => e | _ => 0
  let img := m.imageOf e
  let m := if k = kSuspect then m
    else
      let m := m.keepHeld
      { m with nv := { m.nv with prec := m.endRec } }
  let m := m.tailDurable
  let m := { m with nv := { m.nv with dsc := if k = kLoss || k = kIntr || k = kSuspect then m.nv.dsc + 1 else m.nv.dsc } }
  let m := if k = kLoss || k = kIntr || k = kSuspect then m.bump cEvac else m
  let cause := match img with | some i => i.cause | none => m.rep.evcause
  let m := m.tally 8 cause islFore (leBytes 8 e ++ leBytes 1 k ++ leBytes 8 m.rep.lost ++ leBytes 4 m.rep.rollList.length ++
    leBytes 4 (match img with | some i => i.man.length | none => 0))
  let lps := (m.rep.lostPages.flatMap (fun p => m.lpsOfGran (granOfPage p))).eraseDups
  let m := if k = kClean || k = kFirst || k = kEvac then m else lps.foldl (fun m l => m.ldRec l 2 2 k) m
  let m := if k = kSuspect then m.allLdRec 2 2 k else m
  m.handOver

/-- RECOVERY: R208 in order; the module serves reads once it is complete. With the LINK group failed PHASE stays 3 (R345).
Log entry 46 (DEDUCED). -/
def Mod.recover (m : Mod) (f : RecoveryFinding) : Mod :=
  if m.pwr.phase != 3 || m.fore.ready then m
  else
    let m := if f.precReads then m else { m with nv := { m.nv with prec := .unreadable } }
    let k := m.startKind f
    let exact : Bool := k = kClean || k = kEvac || (k = kLoss && (match m.nv.prec with
      | .evacuating e | .evacuated e => (match m.imageOf e with | some i => !i.flags.testBit 1 | none => false)
      | _ => false))
    let m := { m with rep := { m.rep with start := k, lost := 0, rollList := [], lostPages := [] } }
    let m := ((m.recoverBase f (k = kFirst) exact).recoverImage k f.badImage).recoverEnd k
    let m := if f.journalLost.isSome then m.ckStart else m
    let m := if bits (pget m.nv2.plates (pkey 0 (0x600A0 / 4))) 31 30 = 0 || k = kFirst then m
      else
        let w := m.w 0 0x600A0
        m.dStart (bits w 31 30) (bits w 11 0) (m.w 0 0x600A4).toNat (m.w 0 0x600A8).toNat
    if m.groupFailed 2 then m else { m with pwr := { m.pwr with phase := 4 } }

end Sys2Proof.Machine
end

