-- ==== Sys2Proof/Machine/DebugOps.lean ====
section
/-!
DEFINITION. What the debug port reaches (R368–R379): the level, halts, line commands from AON, scratch access through port B,
DQ submission; and the program store word that FORE_PSADDR names (R257, R259).
-/

namespace Sys2Proof.Machine

/-! ### Level and halts (R370, R371, R373) -/

/-- A foreman stands between instructions, or in a wait that a halt does not let complete. -/
def Wait.between (w : Wait) : Bool :=
  match w with | .line _ => false | .txc => false | .oneWrite _ => false | _ => true

/-- Foreman `f` is the only BASE foreman without a halt request. -/
def Mod.lastBase (m : Mod) (f : Nat) : Bool :=
  m.assign f 0 && !(List.range 8).any (fun g => g != f && m.assign g 0 && !(m.fm g).haltReq)

def Mod.haltOne (m : Mod) (f : Nat) (on : Bool) : Mod :=
  if on then
    if (m.fm f).haltReq || m.lastBase f then m
    else m.setFm f (fun x => { x with haltReq := true, halted := x.wait.between })
  else m.setFm f (fun x => { x with haltReq := false, halted := false })

/-- A write of DBG_FHALT; the register reads back the requests that stand. -/
def Mod.setHalts (m : Mod) (v : Word) : Mod :=
  let m := (List.range 8).foldl (fun m f => m.haltOne f (bit v f)) m
  m.setW 0 0x130010 (loW (bitsOf 8 (fun f => (m.fm f).haltReq)))

/-- A requested halt takes hold once the foreman stands between instructions. -/
def Mod.haltHold (m : Mod) (f : Nat) : Mod :=
  m.setFm f (fun x => if x.haltReq && x.wait.between then { x with halted := true } else x)

/-! ### Line commands (R375–R378) -/

/-- The line operation a DBG_MCMD code matches. -/
def dbgKind (op : Nat) : Option Nat :=
  match op with | 1 => some 0 | 2 => some 1 | 3 => some 2 | 4 => some 4 | 5 => some 5 | 6 => some 6 | _ => none

/-- A read that misses the hopper in M3 brings the MEDIA group up (R378). -/
def Mod.dbgMediaUp (m : Mod) : Mod :=
  if m.pwr.pstate = 3 && m.pwr.m3Media && m.med.reads.any (fun r => r.who = .debug) then
    ({ m with pwr := { m.pwr with m3Media := false } }).railNext
  else m

/-- DBG_MCMD with a code, while no command runs. Log entry 67 (DEDUCED). -/
def Mod.dbgLine (m : Mod) (op : Nat) : Mod :=
  match dbgKind op with
  | none => m
  | some k =>
    if m.dbg.mcmd.isSome || m.pwr.phase = 0 || m.per.evac.isSome then m
    else
      let lineNo := ((m.w 0 0x130040).toNat + bits (m.w 0 0x130044) 11 0 * 2 ^ 32) / 64
      let mask := BitVec.ofNat 64 ((m.w 0 0x13004C).toNat + (m.w 0 0x130050).toNat * 2 ^ 32)
      let ps := m.pwr.pstate
      let m := { m with dbg := { m.dbg with mstat := flag 31 true, mwoke := ps = 2, mcipher := false, mediaHold := none } }
      let m := if ps = 2 then { m with pwr := { m.pwr with waking := true } } else m
      (m.lineStart .debug k 0 lineNo 0 mask (if ps = 2 then 8000 else if ps = 3 then 50000000 else 0)).dbgMediaUp

/-- A debug line command whose status is known ends. -/
def Mod.dbgLineDone (m : Mod) : Mod :=
  match m.dbg.mcmd with
  | none => m
  | some o => match o.status with
    | none => m
    | some st =>
      let hold : Option Nat := if m.pwr.pstate = 3 && !m.pwr.m3Media then some (m.time.dtc + 1000000000) else none
      { m with dbg := { m.dbg with mcmd := none, mstat := flag 30 m.dbg.mcipher ||| flag 29 m.dbg.mwoke ||| fld 0 st, mediaHold := hold } }

/-- One second after the last debug line command of M3 the MEDIA group goes off again. -/
def Mod.dbgMediaDown (m : Mod) : Mod :=
  match m.dbg.mediaHold with
  | none => m
  | some t =>
    if t ≤ m.time.dtc && m.pwr.pstate = 3 && m.dbg.mcmd.isNone && !m.pwr.m3Exit then
      let m := [11, 9, 10].foldl (fun m k => m.setRail k (fun r => { r with st := .off })) m
      { m with pwr := { m.pwr with m3Media := true }, dbg := { m.dbg with mediaHold := none } }
    else m

/-! ### Scratch (R270, R28, R29) -/

/-- DBG_SADDR of a master: the foreman and the word's byte address; and the address after an access. -/
def Mod.scratchAt (m : Mod) (who : Nat) : Nat × Nat :=
  let a := selV (m.master who).sel 0x130018
  (bits a 20 18, bits a 17 0 / 4 * 4)
def Mod.scratchNext (m : Mod) (who : Nat) : Mod :=
  let a := selV (m.master who).sel 0x130018
  m.setMaster who (fun x => { x with sel := tput 0 x.sel 0x130018 (fld 18 (bits a 20 18) ||| fld 0 ((bits a 17 0 + 4) % 262144)) })
def Mod.scratchRead (m : Mod) (who : Nat) : Word × Mod :=
  let at_ := m.scratchAt who
  (loW (ofLe ((m.fm at_.1).bytes at_.2 4)), m.scratchNext who)
def Mod.scratchWrite (m : Mod) (who : Nat) (v : Word) : Mod :=
  let at_ := m.scratchAt who
  (m.setFm at_.1 (fun x => x.putBytes at_.2 (leBytes 4 v.toNat))).scratchNext who

/-- Masters of R397: the debug port is master 9 of scratch memories, foreman n is master n. -/
def Mod.conflict (m : Mod) (mem master : Nat) : Mod := m.setScr mem (fun s => { s with conf := tmod 0 s.conf master (· + 1) })
/-- A port B access that meets the core's access to the same word (R28, R270): a read waits one cycle and is made; a write that meets a
store is discarded and signalled. -/
def Mod.scratchMeets (m : Mod) (who : Nat) (write : Option Word) : Mod :=
  let f := (m.scratchAt who).1
  match write with
  | none => m.conflict f 9
  | some _ =>
    let m := ((m.conflict f 9).conflict f f).setScr f (fun s => { s with wwc := tmod 0 s.wwc 9 (· + 1) })
    m.scratchNext who

/-! ### The program store word (R257, R259, R261) -/

def Mod.psAddr (m : Mod) (who : Nat) : Nat := bits (selV (m.master who).sel 0x100138) 19 0
def Mod.psNext (m : Mod) (who : Nat) : Mod :=
  let a := m.psAddr who
  m.setMaster who (fun x => { x with sel := tput 0 x.sel 0x100138 (fld 0 ((a + 1) % 1048576)) })
def Mod.psRead (m : Mod) (who : Nat) : Word × Mod := (m.psWord (m.psAddr who), m.psNext who)
/-- An address inside an unlocked hook slot, below word 2,044 of it. -/
def Mod.psOpen (m : Mod) (a : Nat) : Bool :=
  0x70000 ≤ a && a < 0xA0000 && (a - 0x70000) % 2048 < 2044 && !hookEn (m.hookW (32 + (a - 0x70000) / 2048) 0)
def Mod.psWrite (m : Mod) (who : Nat) (v : Word) : Mod :=
  let a := m.psAddr who
  (if m.psOpen a then m.setPs a v else { m with fore := { m.fore with psrej := m.fore.psrej + 1 } }).psNext who

/-! ### DQ (R379, R243) -/

def Mod.dqLen (m : Mod) (v : Word) : Mod := ({ m with dbg := { m.dbg with dqStage := [] } }).setW 0 0x130148 (fld 0 (bits v 10 0))
def Mod.dqAppend (m : Mod) (v : Word) : Mod :=
  if m.dbg.dqStage.length < 2044 then { m with dbg := { m.dbg with dqStage := m.dbg.dqStage ++ [v] } } else m
/-- DBG_DQGO.SUBMIT; `upset` says that a pointer copy of the queue has changed (R245). -/
def Mod.dqGo (m : Mod) (upset : Bool) : Mod :=
  let m := (if upset then m.queueUpset 2 else m).queueCheck 2
  let len := bits (m.w 0 0x130148) 10 0
  let steps := (m.w 0 0x130144).toNat
  if 1 ≤ len && len ≤ 2044 && m.dbg.dqStage.length = len && steps ≤ 10000000 && 2 ≤ m.dbg.level then
    match m.submit 2 (m.w 0 0x130140).toNat steps m.dbg.dqStage with
    | some r => { r.2 with dbg := { r.2.dbg with dqTkt := r.1 } }
    | none => { m with dbg := { m.dbg with dqTkt := 0 } }
  else { m with dbg := { m.dbg with dqTkt := 0 } }

end Sys2Proof.Machine
end

