-- ==== Sys2Proof/Machine/Imm.lean ====
section
/-!
DEFINITION. Accesses to immediate words and reads by a master (R9, R238, R239, R289–R296): what a write of a select register, an
RW or a WO word does when it reaches its block, and reads that act. Masters are numbered 0 BAR, 1 management, 2 debug, 3 + n
foreman n.
-/

namespace Sys2Proof.Machine

def pathNum : Path → Nat | .bar => 0 | .mgmt => 1 | .dbg => 2
/-- FORE_LASTFAIL.SRC of a path (R250). Log entry 70 (DEDUCED). -/
def pathSrc : Path → Nat | .bar => 5 | .mgmt => 6 | .dbg => 7

/-- Does the master carry debug rights (R240, R287)? -/
def Mod.whoDebug (m : Mod) (who : Nat) : Bool := who = 2 || (3 ≤ who && m.debugRights (.foreman (who - 3)))

/-- Halves of a 64-bit context word. -/
def putLo (x : Nat) (v : Word) : Nat := x / 2 ^ 32 * 2 ^ 32 + v.toNat
def putHi (x : Nat) (v : Nat) : Nat := v * 2 ^ 32 + x % 2 ^ 32

/-- A write to a context word is ignored, and recorded as no-change, while a scan runs on the unit (R393). -/
def Mod.cuCtx (m : Mod) (who i : Nat) (f : Cu → Cu) : Mod := if (m.cu i).state = 1 then m.noteNoChange who else m.setCu i f
/-- A write to a word of check unit `i` (R391–R395). -/
def Mod.cuWrite (m : Mod) (who i off : Nat) (v : Word) : Mod :=
  match off - 0xD0000 with
  | 0x04 => m.setCu i (fun c => c.context (fun c => c.setCfg v))
  | 0x10 => m.setMaster who (fun a => { a with cuLo := v })
  | 0x14 => let lo := (m.master who).cuLo; m.cuCtx who i (fun c => { c with run := BitVec.ofNat 64 (v.toNat * 2 ^ 32 + lo.toNat) })
  | 0x20 => m.cuCtx who i (fun c => { c with faddr := putLo c.faddr v })
  | 0x24 => m.cuCtx who i (fun c => { c with faddr := putHi c.faddr (bits v 11 0) })
  | 0x28 => m.cuCtx who i (fun c => { c with seq := putLo c.seq v })
  | 0x2C => m.cuCtx who i (fun c => { c with seq := putHi c.seq v.toNat })
  | 0x30 => m.cuCtx who i (fun c => { c with boff := bits v 5 0 })
  | 0x38 => m.setCu i (fun c => { c with scaddr := putLo c.scaddr v })
  | 0x3C => m.setCu i (fun c => { c with scaddr := putHi c.scaddr (bits v 11 0) })
  | 0x40 => m.setCu i (fun c => { c with sclen := v.toNat })
  | 0x44 =>
    let m := m.setCu i (fun c => { c with raw := bit v 0 })
    let m := if bit v 31 then m.scanGo who i (m.whoDebug who) (bit v 0) else m
    if bit v 30 then m.scanStop i else m
  | _ => m

/-- A write to an immediate word of the DEBUG block (R379). -/
def Mod.dbgWrite (m : Mod) (who off : Nat) (v : Word) (mask : Nat) (upset : Bool) : Mod :=
  match off - 0x130000 with
  | 0x10 => m.setHalts v
  | 0x14 => if bit v 3 && (m.fm (bits v 2 0)).halted then { m with dbg := { m.dbg with stepGo := some (bits v 2 0) } } else m
  | 0x1C => m.scratchWrite who v
  | 0x48 => m.dbgLine (bits v 3 0)
  | 0x148 => m.dqLen v
  | 0x14C => m.dqAppend v
  | 0x150 => if bit v 0 then m.dqGo upset else m
  | _ => m.setW 0 off (v &&& BitVec.ofNat 32 mask)

/-- An acknowledge register takes any value (R300); the trip count's pair is kept in the Seed Store (R366). -/
def Mod.ackWrite32 (m : Mod) (k : Nat) (v : Word) : Mod :=
  let m := m.setAck k v
  if k = cThTrip then { m with nv := { m.nv with tripAck := v } } else m

/-- A write to an RW or WO word other than a select register, with its instance resolved. Log entry 79 (DESIGN CHOICE). -/
def Mod.wordWrite (m : Mod) (who i off : Nat) (v : Word) (mask : Nat) (ok : Bool) : Mod :=
  match ackKey off i with
  | some k => m.ackWrite32 k v
  | none =>
    if off / 0x10000 = 0x0D then m.cuWrite who i off v
    else if off / 0x10000 = 0x13 then m.dbgWrite who off v mask (!ok)
    else match off with
      | 0x40030 => m.setHch i (fun c => { c with flipArm := bit v 31, flipLanes := BitVec.ofNat 16 (bits v 15 0) })
      | 0x70038 => if bits v 15 0 = 0x5E7A then m.evacCommit 8 else m
      | 0xA001C => if bit v 0 then m.railRestart i else m
      | 0xC0028 => if bit v 0 then { m with perf := { m.perf with ctrs := tput {} m.perf.ctrs i {} } } else m
      | 0xE000C => if bit v 0 then m.tallyFetch who ok else m
      | 0xF0004 => m.seedPut who v
      | 0xF0008 => m.seedOp who v
      | 0xF000C => m.setMaster who (fun a => { a with pwd := BitVec.ofNat 64 (putLo a.pwd.toNat v) })
      | 0xF0010 => m.setMaster who (fun a => { a with pwd := BitVec.ofNat 64 (putHi a.pwd.toNat v.toNat) })
      | 0x10013C => m.psWrite who v
      | 0x11000C => if v = loW (m.srcCnt i) then m.ackSrc i else m
      | _ => m.setW i off (v &&& BitVec.ofNat 32 mask)

/-- A write to an immediate register word by a master; `ok` is the finding that a Tally fetch or a DQ submission meets. A write to a read-only
word, or of an instance that the select names nowhere, is ignored and recorded as no-change (R9, R295); the spec gives that record no
layout: the model counts it. Log entry 113 (DESIGN CHOICE). -/
def Mod.immWrite (m : Mod) (who idx : Nat) (v : Word) (ok : Bool) : Mod :=
  let off := 4 * idx
  match rowAt off with
  | none => m
  | some r =>
    if r.acc = .sel then m.setMaster who (fun a => { a with sel := tput 0 a.sel off (v &&& BitVec.ofNat 32 r.mask) })
    else match instOf (m.master who).sel r.inst with
      | none => m.noteNoChange who
      | some i =>
        if r.acc = .rw || r.acc = .wo then m.wordWrite who i off v r.mask ok
        else if r.acc = .ro || r.acc = .rl then m.noteNoChange who
        else m

/-- A read by a master, with the words whose read acts: SEED_DATA, FORE_PSDATA, DBG_SDATA. Log entry 61 (DESIGN CHOICE). -/
def Mod.readWord (m : Mod) (who idx : Nat) : Word × Mod :=
  match 4 * idx with
  | 0xF0004 => m.seedRead who
  | 0x10013C => m.psRead who
  | 0x13001C => m.scratchRead who
  | _ => readBy m who idx

end Sys2Proof.Machine
end

