-- ==== Sys2Proof/Machine/Apply.lean ====
section
/-!
DEFINITION. A committed transaction at its boundary (R22 step 2, R23, R253, R258, R320): its plates, the commands among
them, its record; and what the persistence area then holds (R440).
-/

namespace Sys2Proof.Machine

/-! ### Key slots (R319) -/

/-- 256 bits from eight words, word 0 least significant. -/
def words256 (l : List Word) : BitVec 256 := BitVec.ofNat 256 (total ((l.take 8).zipIdx.map (fun e => e.1.toNat * 2 ^ (32 * e.2))))
/-- The slot that 24 words load; words that are not given are zero. -/
def slotOfWords (l : List Word) : Slot := { k1 := words256 l, k2 := words256 (l.drop 8), kt := words256 (l.drop 16) }
/-- Words 0 to 23 that a transaction writes to slot `n`. -/
def slotWords (ws : List PWrite) (n : Nat) : List Word :=
  (List.range 24).map (fun k => match ws.find? (fun w => keyIdx w.key = 0xE0000 + 32 * n + k) with | some w => w.val | none => 0)

/-- The operation on a region's slot. -/
def Mod.keyOp (m : Mod) (ws : List PWrite) (n : Nat) : Mod :=
  match opOf ws n with
  | 1 => m.keyLoad n (slotOfWords (slotWords ws n))
  | 2 => m.keyClear n
  | 3 => m.cryptoErase n
  | _ => m

/-! ### Commands that are plates -/

/-- What an applied write makes the module do beside holding the value. -/
def Mod.plateCmd (m : Mod) (ws : List PWrite) (w : PWrite) : Mod :=
  let i := keyIdx w.key
  if isKeyIdx i then (if (i - 0xE0000) % 32 = 24 && i < 0x100000 then m.keyOp ws ((i - 0xE0000) / 32) else m)
  else match 4 * i with
    | 0x600A0 => if bits w.val 31 30 = 0 then m
        else m.dStart (bits w.val 31 30) (bits w.val 11 0) (m.w 0 0x600A4).toNat (m.w 0 0x600A8).toNat
    | 0x60184 => { m with fb := { m.fb with refine := tput {} m.fb.refine (keyInst w.key) { changedAt := m.time.dtc } } }
    | 0x70010 => if bit w.val 8 then m.capStart else m
    | 0x7003C => if bits w.val 1 0 = 1 then m.orderlyStart 1 else m
    | 0x80004 => if bit w.val 0 then m else m.twinDown
    | 0x80054 => (match bits w.val 31 28 with
        | 1 => m.twAttach
        | 2 => m.twDetach
        | 4 => m.twRepair (bits w.val 11 0) (bit w.val 27)
        | _ => m)
    | 0x90104 =>
      let e := keyInst w.key
      if bit w.val 31 then m.seamCtl e w.val (if opOf ws (4096 + e) = 1 then some (slotOfWords (slotWords ws (4096 + e))) else none) else m
    | 0xA0104 => m.pcmd (bits w.val 2 0)
    | 0xC0004 | 0xC0008 | 0xC000C | 0xC0010 | 0xC0014 | 0xC0018 =>
      { m with perf := { m.perf with ctrs := tput {} m.perf.ctrs (keyInst w.key) {} } }
    | 0xF0100 => { m with nv := { m.nv with compat := bit w.val 0 } }
    | _ => m

/-! ### Hooks (R255) -/

/-- ORIGIN of a hook that a source commits. -/
def Origin.hookOrg (o : Origin) : Nat :=
  match o.src with | 0 => 0 | 1 => o.org | 2 => 1 | 3 => 2 | 4 => 3 | 5 => 2 | 6 => 1 | _ => 3
/-- ORIGIN is set in a hook's first word as the write applies. -/
def Mod.hookOrigin (m : Mod) (o : Origin) (w : PWrite) : Mod :=
  let i := keyIdx w.key
  if 0x103000 ≤ i && i < 0x103200 && i % 4 = 0 then m.setPlate i ((m.tab i &&& ~~~ (0xE000 : Word)) ||| fld 13 o.hookOrg) else m

/-! ### One transaction -/

/-- Apply a transaction: plates, origins, then the commands in order. -/
def Mod.applyWrites (m : Mod) (t : Tx) : Mod :=
  let m := { m with cfg := { m.cfg with plates := writePlates m.cfg.plates t.writes } }
  let m := t.writes.foldl (fun m w => m.hookOrigin t.org w) m
  t.writes.foldl (fun m w => m.plateCmd t.writes w) m

/-- FORE_TXAPP and the record of an applied transaction; AON's own writes while CORE is off carry no number. -/
def Mod.txApplied (m : Mod) (t : Tx) : Mod :=
  if t.num = 0 then m
  else
    let m := ({ m with fore := { m.fore with txapp := max m.fore.txapp t.num } }).happen 0x1A 1
    m.tally 2 t.org.code islFore (leBytes 4 t.org.ticket ++ leBytes 8 t.num ++ leBytes 2 t.writes.length ++ leBytes 8 m.time.dtc)
def Mod.applyTx (m : Mod) (t : Tx) : Mod := (m.applyWrites t).txApplied t

/-- Words that survive with the metadata: RWB plates and the LD maps with their DC extents (R252, R440). -/
def durableKey (k : Nat) : Bool :=
  let i := keyIdx k
  (decide (0x90000 ≤ i) && decide (i < 0xD8000)) || (match plateAcc i with | some .rwb => true | _ => false)
def Mod.savePlates (m : Mod) : Mod :=
  let hk := fun (a : Nat) => decide (0x70000 ≤ a) && decide (a < 0xA0000) && hookEn (m.hookW (32 + (a - 0x70000) / 2048) 0)
  { m with nv2 := { m.nv2 with plates := keepTables m.nv2.plates (m.cfg.plates.filter (fun e => durableKey e.1)), hookStore := m.fore.store.filter (fun e => hk e.1) } }

/-- Step 2 of R22: transactions in commit order, then single writes in arrival order. With the recovered configuration in force,
the persistence area takes the result. -/
def Mod.applyStaged (m : Mod) : Mod :=
  let l := m.fore.staged
  let m := { m with fore := { m.fore with staged := [] } }
  let m := (l.filter (fun t => !t.one)).foldl Mod.applyTx m
  let m := (l.filter (fun t => t.one)).foldl Mod.applyTx m
  if m.fore.ready then m.savePlates else m

end Sys2Proof.Machine
end

