-- ==== Sys2Proof/Machine/Commit.lean ====
section
/-!
DEFINITION. The commit unit (R249, R250, R471), the access paths' write queues (R298) and AON in the commit unit's place while
CORE is off (R355).
-/

namespace Sys2Proof.Machine

/-! ### What a path reaches (R292, R355, R372, R376) -/

/-- CORE is powered and its functions run. -/
def Mod.coreOn (m : Mod) : Bool := (m.rail 3).st = .inWindow && m.pwr.pstate != 4
def blockOf (off : Nat) : Nat := off / 0x10000
/-- Blocks that AON serves while CORE is off. -/
def aonBlock (off : Nat) : Bool := blockOf off = 0 || blockOf off = 10 || blockOf off = 15
/-- The path exists now and its rights allow the access. -/
def Mod.pathOk (m : Mod) (p : Path) (wr : Bool) (off : Nat) : Bool :=
  match p with
  | .bar => m.coreOn && ((m.port m.path.ctlPort).link = .l0 || (m.port m.path.ctlPort).link = .l1)
  | .mgmt => !m.pwr.aonReset
  | .dbg =>
    if m.pwr.aonReset then false
    else if m.pwr.pstate = 4 || m.pwr.phase = 0 then blockOf off = 15 && (if wr then 2 else 1) ≤ m.dbg.req
    else (if wr then 2 else 1) ≤ m.dbg.level
/-- The control port's link sleeps: an access on the BAR path waits for the host's exit (R292). -/
def Mod.barAsleep (m : Mod) (p : Nat) : Bool := p = 0 && (m.port m.path.ctlPort).link != .l0
/-- The block answers. -/
def Mod.reaches (m : Mod) (off : Nat) : Bool := m.coreOn || aonBlock off
def Mod.badAccess (m : Mod) : Mod := { m with path := { m.path with badacc := m.path.badacc + 1 } }

/-! ### Staging a write -/

/-- A staged plate write by a master: the instance selected now, and the table word that a view names (R239, R303). None when
the select value names nothing. -/
def Mod.mkWrite (m : Mod) (who idx : Nat) (v : Word) : Option PWrite :=
  if idx < 0x80000 then
    match rowAt (4 * idx) with
    | none => some ⟨pkey 0 idx, idx, v⟩
    | some r => (instOf (m.master who).sel r.inst).map (fun i => ⟨(viewOf i idx).getD (pkey i idx), (viewOf i idx).getD idx, v⟩)
  else if idx < 0x200000 then some ⟨idx, idx, v⟩
  else some ⟨pkey idx 0x1FFFFF, idx, v⟩

/-- AON's handling of an RWB write while CORE is off (R355): judged, staged for its next boundary, logged. -/
def Mod.aonStage (m : Mod) (src : Nat) (w : PWrite) : Mod :=
  let t : Tx := { org := { src }, writes := [w], one := true }
  let ok : Bool := (m.validate t).isNone
  let lg := m.path.aonLog.concat (w.idx, w.val, ok, t.org.code)
  let m := { m with path := { m.path with aonLog := lg.drop (lg.length - 64) } }
  if ok then { m with fore := { m.fore with staged := m.fore.staged ++ [t] } } else m.badAccess

/-! ### Write queues (R298) -/

/-- A path holds an access back until what stands before it has left (R12, R298). -/
def Mod.stall (m : Mod) (p : Nat) (x : Stalled) : Mod := m.setPathQ p (fun q => { q with wait := q.wait ++ [x] })

/-- Send a write to the commit unit as a one-write transaction. Log entry 38 (DEDUCED). -/
def Mod.sendOne (m : Mod) (t : Tx) : Mod := { m with fore := { m.fore with commitQ := m.fore.commitQ ++ [t] } }

/-- The head of a path's queue leaves it, if it can. -/
def Mod.pumpOne (m : Mod) (p src : Nat) : Mod :=
  let q := m.pathQ p
  match q.q with
  | [] => m
  | w :: rest =>
    let staged : Bool := match plateAcc w.idx with | some .rwb => true | none => true | some .wo => 0x80000 ≤ w.idx | _ => false
    if q.busy then m
    else if staged then
      match m.mkWrite p w.idx w.val with
      | none => (m.setPathQ p (fun x => { x with q := rest })).noteNoChange p
      | some pw =>
        if !m.coreOn then (m.setPathQ p (fun x => { x with q := rest })).aonStage src pw
        else if m.fore.ready then
          (m.setPathQ p (fun _ => { q := rest, busy := true })).sendOne { org := { src }, writes := [pw], one := true, path := some p }
        else m
    else
      let m := m.setPathQ p (fun x => { x with q := rest })
      m.immWrite p w.idx w.val w.ok

def Mod.pumpN : Nat → Mod → Nat → Nat → Mod
  | 0, m, _, _ => m
  | n + 1, m, p, src => Mod.pumpN n (m.pumpOne p src) p src

/-- A waiting DBGACC access completes once the writes before it have left (R369). -/
def Mod.dbgPoll (m : Mod) : Mod :=
  let q := m.pathQ 2
  match m.dbg.accRead with
  | some i =>
    if q.q.any (fun w => blockOf (4 * w.idx) = blockOf (4 * i)) || !q.wait.isEmpty then m
    else
      let r := m.readWord 2 i
      { r.2 with dbg := { r.2.dbg with accRead := none, accStatus := 0, accData := r.1 } }
  | none => if q.q.isEmpty && q.wait.isEmpty && m.dbg.accStatus = 1 then { m with dbg := { m.dbg with accStatus := 0 } } else m

/-- Earlier writes of the path to the same block are still queued. -/
def Mod.readWaits (m : Mod) (p off : Nat) : Bool := (m.pathQ p).q.any (fun w => blockOf (4 * w.idx) = blockOf off)

/-- A read completes on a path (R14); a block that the path cannot reach reads zero (R292). -/
def Mod.readNow (m : Mod) (p : Path) (off : Nat) : Mod :=
  if !m.reaches off then m.emit (.read p off 0)
  else
    let r := m.readWord (pathNum p) (off / 4)
    r.2.emit (.read p off r.1)

/-- Words of Read Registers (R291), and of Read Plates (R63), as accesses of their path. -/
def Mod.readRegs (m : Mod) : Nat → Nat → List Fld × Mod
  | _, 0 => ([], m)
  | off, n + 1 =>
    let r := if m.reaches off then m.readWord 1 (off / 4) else (0, m)
    let x := r.2.readRegs (off + 4) n
    (⟨4, r.1.toNat⟩ :: x.1, x.2)
def Mod.readWords (m : Mod) (who : Nat) : Nat → Nat → List Fld × Mod
  | _, 0 => ([], m)
  | i, n + 1 =>
    let r := m.readWord who i
    let x := r.2.readWords who (i + 1) n
    (⟨4, r.1.toNat⟩ :: x.1, x.2)
/-- The path that carries a mailbox's command (R63). -/
def mboxWho : Mbox → Nat | .mctp => 1 | _ => 0
def Mod.readRegsNow (m : Mod) (first n : Nat) : Mod :=
  let r := m.readRegs first n
  r.2.emit (.mailbox .mctp 0 r.1)
def Mod.readPlatesNow (m : Mod) (b : Mbox) (first n : Nat) : Mod :=
  let r := m.readWords (mboxWho b) first n
  r.2.emit (.mailbox b 0 r.1)

def pathOfNum (p : Nat) : Path := if p = 0 then .bar else if p = 1 then .mgmt else .dbg
/-- May the access leave now? -/
def Mod.stallOver (m : Mod) (p : Nat) (x : Stalled) : Bool :=
  !m.barAsleep p && match x with
  | .write _ => decide ((m.pathQ p).q.length < 64)
  | .read off => !m.readWaits p off
  | .regs first n => !(List.range n).any (fun i => m.readWaits p (first + 4 * i))
  | .plates _ first n => !(List.range n).any (fun i => m.readWaits p (4 * (first + i)))
/-- The access that was held back is made. -/
def Mod.unstallOne (m : Mod) (p src : Nat) : Stalled → Mod
  | .write w => Mod.pumpN 64 (m.setPathQ p (fun x => { x with q := x.q ++ [w] })) p src
  | .read off => m.readNow (pathOfNum p) off
  | .regs first n => m.readRegsNow first n
  | .plates b first n => m.readPlatesNow b first n
/-- Accesses that a path held back are made in order while they can be (R12, R14, R298). -/
def Mod.unstall : Nat → Mod → Nat → Nat → Mod
  | 0, m, _, _ => m
  | n + 1, m, p, src =>
    match (m.pathQ p).wait with
    | [] => m
    | x :: rest =>
      if m.stallOver p x then Mod.unstall n ((m.setPathQ p (fun q => { q with wait := rest })).unstallOne p src x) p src else m

/-- Drain what can leave a path's queue, and what it held back. -/
def Mod.pump (m : Mod) (p : Nat) : Mod :=
  let src := if p = 0 then 5 else if p = 1 then 6 else 7
  let m := Mod.pumpN (m.pathQ p).q.length m p src
  let m := Mod.unstall (m.pathQ p).wait.length m p src
  if p = 2 then m.dbgPoll else m
def Mod.pumpAll (m : Mod) : Mod := [0, 1, 2].foldl Mod.pump m

/-- A full queue of the path, or a link in L1: the next write has no place in it yet (R292, R298). -/
def Mod.pathFull (m : Mod) (p : Nat) : Bool := m.barAsleep p || 64 ≤ (m.pathQ p).q.length || !(m.pathQ p).wait.isEmpty
/-- A write arrives on a path (R298): it joins the queue; with the queue full the management path answers Busy, and the BAR and debug
paths hold it back. Log entry 39 (DEDUCED). -/
def Mod.pathWrite (m : Mod) (p : Path) (off : Nat) (v : Word) (ok : Bool) : Mod :=
  let w : QWrite := { idx := off / 4, val := v, ok }
  if !m.pathOk p true off then m
  else if !m.reaches off then m.badAccess
  else if m.pathFull (pathNum p) then (if p = .mgmt then m.emit (.mailbox .mctp 6 []) else m.stall (pathNum p) (.write w))
  else (m.setPathQ (pathNum p) (fun x => { x with q := x.q ++ [w] })).pump (pathNum p)

/-- A read arrives on a path; it waits until earlier writes of the path to its block have left (R14, R298). -/
def Mod.pathRead (m : Mod) (p : Path) (off : Nat) : Mod :=
  if !m.pathOk p false off then m
  else if m.barAsleep (pathNum p) || m.readWaits (pathNum p) off || !(m.pathQ (pathNum p)).wait.isEmpty then m.stall (pathNum p) (.read off)
  else m.readNow p off

/-! ### The commit unit -/

/-- May the transaction share the next boundary with what is staged (R249)? -/
def Mod.canStage (m : Mod) (t : Tx) : Bool :=
  total (m.fore.staged.map (fun s => s.writes.length)) + t.writes.length ≤ 4096 &&
    m.fore.staged.all (fun s => s.one == t.one || s.writes.all (fun w => t.writes.all (fun v => v.key != w.key)))

/-- The result word of a failure (R248). -/
def failWord (f : Fail) : Nat := 2 ^ 63 + f.idx % 2 ^ 32 * 2 ^ 16 + f.sub % 256 * 256 + f.code.code

/-- A validation failure is shown and recorded (R248, R250, R258). -/
def Mod.txFailed (m : Mod) (t : Tx) (f : Fail) : Mod :=
  let m := { m with fore := { m.fore with lastSrc := t.org.src, lastSub := f.sub, lastCode := f.code.code, lastIdx := f.idx } }
  let m := if t.one then m.bump cSwfail else { m with fore := { m.fore with txfail := m.fore.txfail + 1 } }
  m.tally 3 t.org.code islFore (leBytes 8 (failWord f) ++ leBytes 4 t.org.ticket ++ leBytes 1 0)

/-- The result reaches the foreman whose TXC waits. -/
def Mod.txResult (m : Mod) (f rd word res : Nat) (num : Option Nat) : Mod :=
  (m.setFm f (fun x =>
    let y := x.setG rd (BitVec.ofNat 64 word)
    { y with wait := .none_, txres := res, txnum := num.getD y.txnum })).haltHold f

/-- A foreman's earlier one-write has been validated: the one that waited is handed on (R273). -/
def Mod.nextOne (m : Mod) (f : Nat) : Mod :=
  match (m.fm f).wait with
  | .oneWrite t => ((m.setFm f (fun x => { x with wait := .none_ })).sendOne t).haltHold f
  | _ => m

/-- Who sent the transaction goes on. -/
def Mod.txRelease (m : Mod) (t : Tx) (r : Option Fail) : Mod :=
  match t.path, t.foreman with
  | some p, _ => (m.setPathQ p (fun x => { x with busy := false })).pump p
  | none, some (f, rd) =>
    if t.one then m.nextOne f
    else match r with
      | some x => m.txResult f rd (failWord x) (failWord x % 65536) none
      | none => m.txResult f rd m.fore.txnum 0 (some m.fore.txnum)
  | none, none => m

/-- COMMIT_UNIT_VALIDATE: the oldest arrival, unless it has to wait for the boundary. -/
def Mod.commitNext (m : Mod) : Mod :=
  match m.fore.commitQ with
  | [] => m
  | t :: rest =>
    if !m.coreOn || !m.fore.ready || !m.canStage t then m
    else
      let m := { m with fore := { m.fore with commitQ := rest } }
      match m.validate t with
      | some f => (m.txFailed t f).txRelease t (some f)
      | none =>
        let n := m.fore.txnum + 1
        ({ m with fore := { m.fore with txnum := n, staged := m.fore.staged ++ [{ t with num := n }] } }).txRelease t none

end Sys2Proof.Machine
end

