-- ==== Sys2Proof/Machine/Bauri.lean ====
section
/-!
DEFINITION. The Bauri instruction set (R260–R286, R469): an instruction, its encoding and decoding, and what each does on a
foreman.
-/

namespace Sys2Proof.Machine

/-! ### Instructions -/

/-- The sixteen operations of the ALU group, in the order of fn (R264). -/
inductive Alu where
  | add | sub | and | or | xor | sll | srl | sra | slt | sltu | mul | mulhu | divu | remu | minu | maxu
  deriving DecidableEq, Repr

/-- Immediate operations of opcodes 0x02–0x07 (R265). -/
inductive AluI where
  | addi | andi | ori | xori | slti | sltiu
  deriving DecidableEq, Repr

/-- Shifts by an immediate, in the order of sub. -/
inductive Shift where
  | slli | srli | srai
  deriving DecidableEq, Repr

/-- Widths of scratch accesses, in the order of the opcodes: 8, 16, 32, 64 bits. -/
inductive Width where
  | w8 | w16 | w32 | w64
  deriving DecidableEq, Repr

/-- Operations of the line group, in the order of fn (R277). -/
inductive LineK where
  | lrd | lrdx | lwr | lzero | lflush | lpin | lunpin
  deriving DecidableEq, Repr

/-- A Bauri instruction with its fields (R262, R263). -/
inductive BOp where
  | alu (o : Alu) (rd ra rb : BitVec 5)
  | alui (o : AluI) (rd rs : BitVec 5) (imm : BitVec 14)
  | shift (o : Shift) (rd rs : BitVec 5) (sh : BitVec 6)
  | li (rd : BitVec 5) (imm : BitVec 21)
  | lih (rd : BitVec 5) (imm : BitVec 21)
  | ld (w : Width) (rd rs : BitVec 5) (imm : BitVec 14)
  | st (w : Width) (rd rs : BitVec 5) (imm : BitVec 14)
  | br (ra rb : BitVec 5) (cond : Fin 6) (off : BitVec 10)
  | j (imm : BitVec 21)
  | call (imm : BitVec 21)
  | ret
  | loop (ra : BitVec 5) (off : BitVec 10)
  | loopi (count : BitVec 11) (off : BitVec 10)
  | lend
  | pld (r : BitVec 5) (x : Bool) (idx : BitVec 20)
  | pst (r : BitVec 5) (x : Bool) (idx : BitVec 20)
  | pwait (r : BitVec 5) (x : Bool) (idx : BitVec 20)
  | line (k : LineK) (rd ra rb : BitVec 5)
  | cusel (rd ra : BitVec 5)
  | cufeed (ra rb : BitVec 5)
  | cuget (rd : BitVec 5)
  | cuput (ra : BitVec 5)
  | txb
  | txc (rd : BitVec 5)
  | txa
  | evwait (rd rs : BitVec 5) (imm : BitVec 14)
  | evsig (rd : BitVec 5) (code : BitVec 8)
  | evack (rd rs : BitVec 5) (imm : BitVec 14)
  | time (rd : BitVec 5)
  | halt
  | yield (imm : BitVec 14)
  | trap (imm : BitVec 14)
  deriving DecidableEq, Repr

/-! ### Codes of the tables -/

def Alu.fn : Alu → BitVec 11
  | .add => 0 | .sub => 1 | .and => 2 | .or => 3 | .xor => 4 | .sll => 5 | .srl => 6 | .sra => 7
  | .slt => 8 | .sltu => 9 | .mul => 10 | .mulhu => 11 | .divu => 12 | .remu => 13 | .minu => 14 | .maxu => 15
def aluOf (fn : BitVec 11) : Option Alu :=
  match fn.toNat with
  | 0 => some .add | 1 => some .sub | 2 => some .and | 3 => some .or | 4 => some .xor | 5 => some .sll | 6 => some .srl
  | 7 => some .sra | 8 => some .slt | 9 => some .sltu | 10 => some .mul | 11 => some .mulhu | 12 => some .divu
  | 13 => some .remu | 14 => some .minu | 15 => some .maxu | _ => none
def AluI.op : AluI → BitVec 6
  | .addi => 0x02 | .andi => 0x03 | .ori => 0x04 | .xori => 0x05 | .slti => 0x06 | .sltiu => 0x07
def Shift.sub : Shift → BitVec 2 | .slli => 0 | .srli => 1 | .srai => 2
def Width.ldOp : Width → BitVec 6 | .w8 => 0x0C | .w16 => 0x0D | .w32 => 0x0E | .w64 => 0x0F
def Width.stOp : Width → BitVec 6 | .w8 => 0x10 | .w16 => 0x11 | .w32 => 0x12 | .w64 => 0x13
def Width.bytes : Width → Nat | .w8 => 1 | .w16 => 2 | .w32 => 4 | .w64 => 8
def LineK.fn : LineK → BitVec 11
  | .lrd => 0 | .lrdx => 1 | .lwr => 2 | .lzero => 3 | .lflush => 4 | .lpin => 5 | .lunpin => 6
def lineOfFn (fn : BitVec 11) : Option LineK :=
  match fn.toNat with
  | 0 => some .lrd | 1 => some .lrdx | 2 => some .lwr | 3 => some .lzero | 4 => some .lflush | 5 => some .lpin
  | 6 => some .lunpin | _ => none
/-- LZERO, LFLUSH, LPIN and LUNPIN have no scratch operand: rb must be g0. -/
def LineK.scratch : LineK → Bool | .lrd => true | .lrdx => true | .lwr => true | _ => false

/-! ### Formats (R262) -/

def fmtA (op : BitVec 6) (rd ra rb : BitVec 5) (fn : BitVec 11) : Word := op ++ rd ++ ra ++ rb ++ fn
def fmtB (op : BitVec 6) (rd rs : BitVec 5) (sub : BitVec 2) (imm : BitVec 14) : Word := op ++ rd ++ rs ++ sub ++ imm
def fmtC (op : BitVec 6) (ra rb : BitVec 5) (cond : BitVec 3) (z : BitVec 3) (off : BitVec 10) : Word :=
  op ++ ra ++ rb ++ cond ++ z ++ off
def fmtD (op : BitVec 6) (rd : BitVec 5) (imm : BitVec 21) : Word := op ++ rd ++ imm
def fmtE (op : BitVec 6) (r : BitVec 5) (x : Bool) (idx : BitVec 20) : Word := op ++ r ++ BitVec.ofBool x ++ idx

/-- The word of an instruction. -/
def bencode : BOp → Word
  | .alu o rd ra rb => fmtA 0x01 rd ra rb o.fn
  | .alui o rd rs imm => fmtB o.op rd rs 0 imm
  | .shift o rd rs sh => fmtB 0x08 rd rs o.sub ((0 : BitVec 8) ++ sh)
  | .li rd imm => fmtD 0x09 rd imm
  | .lih rd imm => fmtD 0x0A rd imm
  | .ld w rd rs imm => fmtB w.ldOp rd rs 0 imm
  | .st w rd rs imm => fmtB w.stOp rd rs 0 imm
  | .br ra rb cond off => fmtC 0x14 ra rb (BitVec.ofNat 3 cond.val) 0 off
  | .j imm => fmtD 0x15 0 imm
  | .call imm => fmtD 0x16 0 imm
  | .ret => fmtA 0x17 0 0 0 0
  | .loop ra off => fmtC 0x18 ra 0 0 0 off
  | .loopi count off => fmtD 0x19 0 (count ++ off)
  | .lend => fmtA 0x1A 0 0 0 0
  | .pld r x idx => fmtE 0x20 r x idx
  | .pst r x idx => fmtE 0x21 r x idx
  | .pwait r x idx => fmtE 0x22 r x idx
  | .line k rd ra rb => fmtA 0x24 rd ra rb k.fn
  | .cusel rd ra => fmtA 0x28 rd ra 0 0
  | .cufeed ra rb => fmtA 0x28 0 ra rb 1
  | .cuget rd => fmtA 0x28 rd 0 0 2
  | .cuput ra => fmtA 0x28 0 ra 0 3
  | .txb => fmtA 0x2C 0 0 0 0
  | .txc rd => fmtA 0x2C rd 0 0 1
  | .txa => fmtA 0x2C 0 0 0 2
  | .evwait rd rs imm => fmtB 0x30 rd rs 0 imm
  | .evsig rd code => fmtB 0x31 rd 0 0 ((0 : BitVec 6) ++ code)
  | .evack rd rs imm => fmtB 0x32 rd rs 0 imm
  | .time rd => fmtA 0x38 rd 0 0 0
  | .halt => fmtA 0x38 0 0 0 1
  | .yield imm => fmtB 0x39 0 0 0 imm
  | .trap imm => fmtB 0x3A 0 0 0 imm

/-- Immediates and registers within the ranges that an instruction states. -/
def BOp.wf : BOp → Bool
  | .pwait r _ _ => r.toNat < 30
  | .line k _ _ rb => k.scratch || rb = 0
  | .yield imm => 1 ≤ imm.toNat && imm.toNat ≤ 1023
  | .trap imm => 1 ≤ imm.toNat && imm.toNat ≤ 0x7F
  | _ => true

/-- Keep an instruction whose immediates are in range. -/
def keepWf (b : BOp) : Option BOp := if b.wf then some b else none
def guard1 (c : Bool) (b : BOp) : Option BOp := if c then some b else none

/-- The instruction that a word is, or none: it traps with ILLEGAL. -/
def bdecode (w : Word) : Option BOp :=
  let a := w.extractLsb' 21 5
  let b := w.extractLsb' 16 5
  let c := w.extractLsb' 11 5
  let fn := w.extractLsb' 0 11
  let sub := w.extractLsb' 14 2
  let imm := w.extractLsb' 0 14
  let imm21 := w.extractLsb' 0 21
  let x := w.getLsbD 20
  let idx := w.extractLsb' 0 20
  let cond := (w.extractLsb' 13 3).toNat
  let z := w.extractLsb' 10 3
  let off := w.extractLsb' 0 10
  let s0 : Bool := sub = 0
  match (w.extractLsb' 26 6).toNat with
  | 0x01 => (aluOf fn).map (fun o => .alu o a b c)
  | 0x02 => guard1 s0 (.alui .addi a b imm)
  | 0x03 => guard1 s0 (.alui .andi a b imm)
  | 0x04 => guard1 s0 (.alui .ori a b imm)
  | 0x05 => guard1 s0 (.alui .xori a b imm)
  | 0x06 => guard1 s0 (.alui .slti a b imm)
  | 0x07 => guard1 s0 (.alui .sltiu a b imm)
  | 0x08 =>
    if w.extractLsb' 6 8 = 0 then
      (match sub.toNat with
      | 0 => some (.shift .slli a b (w.extractLsb' 0 6))
      | 1 => some (.shift .srli a b (w.extractLsb' 0 6))
      | 2 => some (.shift .srai a b (w.extractLsb' 0 6))
      | _ => none)
    else none
  | 0x09 => some (.li a imm21)
  | 0x0A => some (.lih a imm21)
  | 0x0C => guard1 s0 (.ld .w8 a b imm)
  | 0x0D => guard1 s0 (.ld .w16 a b imm)
  | 0x0E => guard1 s0 (.ld .w32 a b imm)
  | 0x0F => guard1 s0 (.ld .w64 a b imm)
  | 0x10 => guard1 s0 (.st .w8 a b imm)
  | 0x11 => guard1 s0 (.st .w16 a b imm)
  | 0x12 => guard1 s0 (.st .w32 a b imm)
  | 0x13 => guard1 s0 (.st .w64 a b imm)
  | 0x14 => if h : cond < 6 then guard1 (z = 0) (.br a b ⟨cond, h⟩ off) else none
  | 0x15 => guard1 (a = 0) (.j imm21)
  | 0x16 => guard1 (a = 0) (.call imm21)
  | 0x17 => guard1 (w.extractLsb' 0 26 = 0) .ret
  | 0x18 => guard1 (b = 0 && cond = 0 && z = 0) (.loop a off)
  | 0x19 => guard1 (a = 0) (.loopi (w.extractLsb' 10 11) off)
  | 0x1A => guard1 (w.extractLsb' 0 26 = 0) .lend
  | 0x20 => some (.pld a x idx)
  | 0x21 => some (.pst a x idx)
  | 0x22 => keepWf (.pwait a x idx)
  | 0x24 => (lineOfFn fn).bind (fun k => keepWf (.line k a b c))
  | 0x28 =>
    (match fn.toNat with
    | 0 => guard1 (c = 0) (.cusel a b)
    | 1 => guard1 (a = 0) (.cufeed b c)
    | 2 => guard1 (b = 0 && c = 0) (.cuget a)
    | 3 => guard1 (a = 0 && c = 0) (.cuput b)
    | _ => none)
  | 0x2C =>
    (match fn.toNat with
    | 0 => guard1 (a = 0 && b = 0 && c = 0) .txb
    | 1 => guard1 (b = 0 && c = 0) (.txc a)
    | 2 => guard1 (a = 0 && b = 0 && c = 0) .txa
    | _ => none)
  | 0x30 => guard1 s0 (.evwait a b imm)
  | 0x31 => guard1 (s0 && b = 0 && w.extractLsb' 8 6 = 0) (.evsig a (w.extractLsb' 0 8))
  | 0x32 => guard1 s0 (.evack a b imm)
  | 0x38 =>
    (match fn.toNat with
    | 0 => guard1 (b = 0 && c = 0) (.time a)
    | 1 => guard1 (a = 0 && b = 0 && c = 0) .halt
    | _ => none)
  | 0x39 => if a = 0 && b = 0 && s0 then keepWf (.yield imm) else none
  | 0x3A => if a = 0 && b = 0 && s0 then keepWf (.trap imm) else none
  | _ => none

/-! ### Arithmetic (R264–R266) -/

def b2d (c : Bool) : Dword := if c then 1 else 0
/-- Result of an ALU operation. -/
def Alu.eval (o : Alu) (a b : Dword) : Dword :=
  match o with
  | .add => a + b | .sub => a - b | .and => a &&& b | .or => a ||| b | .xor => a ^^^ b
  | .sll => a <<< (b.toNat % 64) | .srl => a >>> (b.toNat % 64) | .sra => a.sshiftRight (b.toNat % 64)
  | .slt => b2d (a.slt b) | .sltu => b2d (a.ult b)
  | .mul => a * b | .mulhu => BitVec.ofNat 64 (a.toNat * b.toNat / 2 ^ 64)
  | .divu => if b = 0 then ~~~ 0 else a / b
  | .remu => if b = 0 then a else a % b
  | .minu => if b.ult a then b else a
  | .maxu => if a.ult b then b else a
def AluI.eval (o : AluI) (a : Dword) (imm : BitVec 14) : Dword :=
  let s : Dword := imm.signExtend 64
  let z : Dword := imm.setWidth 64
  match o with
  | .addi => a + s | .andi => a &&& z | .ori => a ||| z | .xori => a ^^^ z
  | .slti => b2d (a.slt s) | .sltiu => b2d (a.ult s)
def Shift.eval (o : Shift) (a : Dword) (n : Nat) : Dword :=
  match o with | .slli => a <<< n | .srli => a >>> n | .srai => a.sshiftRight n
/-- BR's conditions. -/
def brCond (c : Fin 6) (a b : Dword) : Bool :=
  match c.val with
  | 0 => a == b | 1 => a != b | 2 => a.slt b | 3 => !a.slt b | 4 => a.ult b | _ => !a.ult b

/-! ### A foreman's own state -/

def Foreman.val (x : Foreman) (r : BitVec 5) : Dword := x.reg r.toNat
def Foreman.put (x : Foreman) (r : BitVec 5) (v : Dword) : Foreman := { x.setG r.toNat v with pc := x.pc + 1 }
def Foreman.next (x : Foreman) : Foreman := { x with pc := x.pc + 1 }
def Foreman.depth (x : Foreman) : Nat := x.calls.length
/-- exit_loops (R267). -/
def exitLoops (depth target : Nat) : List LoopE → List LoopE
  | [] => []
  | t :: l => if t.depth = depth && t.stop < target then exitLoops depth target l else t :: l
/-- A taken branch or jump. -/
def Foreman.jump (x : Foreman) (target : Nat) : Foreman := { x with pc := target, loops := exitLoops x.depth target x.loops }
def Foreman.pushLoop (x : Foreman) (n off : Nat) : Foreman :=
  if n = 0 then { x with pc := x.pc + 2 + off }
  else { x with loops := { start := x.pc + 1, stop := x.pc + 1 + off, left := n, depth := x.depth } :: x.loops, pc := x.pc + 1 }
/-- LEND, with a matching loop on top. -/
def Foreman.loopEnd (x : Foreman) (t : LoopE) (l : List LoopE) : Foreman :=
  if 1 < t.left then { x with pc := t.start, loops := { t with left := t.left - 1 } :: l }
  else { x with pc := x.pc + 1, loops := l }
def popDepth (d : Nat) : List LoopE → List LoopE
  | [] => []
  | t :: l => if t.depth = d then popDepth d l else t :: l
/-- RET, with the top's return address in g31. -/
def Foreman.leave (x : Foreman) (c : Nat × Nat) (l : List (Nat × Nat)) : Foreman :=
  let back : Nat := match l with | d :: _ => d.1 | [] => 0
  let y := x.setG 31 (BitVec.ofNat 64 back)
  { y with pc := c.1, calls := l, loops := popDepth x.depth x.loops }

/-! ### Traps and plates -/

/-- A trap (R286). -/
def Mod.btrap (m : Mod) (f code : Nat) : Mod := m.endProg f 3 code

/-- Kinds of plate (R238, R273). -/
inductive PlateKind where
  | select | immediate | staged | ro | unassigned
  deriving DecidableEq, Repr
def plateKind (idx : Nat) : PlateKind :=
  match plateAcc idx with
  | none => .unassigned
  | some .rwb => .staged
  | some .sel => .select
  | some .rw => .immediate
  | some .wo => if idx < 0x80000 then .immediate else .staged
  | some .ro => .ro
  | some .rl => .ro

/-- The plate index of format E (R271). -/
def Foreman.plateIdx (x : Foreman) (r : Bool) (idx : BitVec 20) : Nat :=
  if r then ((x.reg 30).toNat % 2 ^ 32 + idx.toNat) % 2 ^ 32 else idx.toNat

/-- A write that a transaction holds; a second one to the same plate and instance replaces the first (R247). -/
def Tx.hold (t : Tx) (w : PWrite) : Tx :=
  if t.writes.any (fun v => v.key = w.key) then { t with writes := t.writes.map (fun v => if v.key = w.key then w else v) }
  else if 512 ≤ t.writes.length then { t with full := some (t.full.getD w.idx) }
  else { t with writes := t.writes ++ [w] }

def Mod.org (m : Mod) (f : Nat) : Origin := match (m.fm f).prog with | some p => p.org | none => {}

/-- A foreman's one-write transaction goes to the commit unit, or waits for its earlier one (R273). -/
def Mod.oneWrite (m : Mod) (f : Nat) (w : PWrite) : Mod :=
  let t : Tx := { org := m.org f, writes := [w], one := true, foreman := some (f, 0) }
  let early : Bool := m.fore.commitQ.any (fun q => q.one && (match q.foreman with | some (g, _) => g == f | none => false))
  if early then m.setFm f (fun x => { x with wait := .oneWrite t }) else m.sendOne t

/-- PST (R273). -/
def Mod.bpst (m : Mod) (f idx : Nat) (v : Word) : Mod :=
  let m := m.setFm f Foreman.next
  match plateKind idx with
  | .select => m.immWrite (3 + f) idx v true
  | .immediate => (m.setFm f (fun x => { x with immW := x.immW + 1 })).immWrite (3 + f) idx v true
  | .ro => m.noteNoChange (3 + f)
  | _ => match m.mkWrite (3 + f) idx v with
    | none => m.noteNoChange (3 + f)
    | some w => match (m.fm f).tx with
      | some t => m.setFm f (fun x => { x with tx := some (t.hold w) })
      | none => m.oneWrite f w

/-- PWAIT's value: both halves of an LO/HI pair, or the word (R274). -/
def Mod.pwaitValue (m : Mod) (f idx : Nat) : Nat :=
  let ma := m.master (3 + f)
  let lo := (plateWord m (3 + f) ma idx).toNat
  match plateAcc idx with
  | some .rl => lo + (plateWord m (3 + f) ma (idx + 1)).toNat * 2 ^ 32
  | _ => lo
def pwaitCond (c v cmp : Nat) : Bool :=
  match c with | 0 => decide (cmp ≤ v) | 1 => decide (v < cmp) | 2 => v == cmp | _ => v != cmp

/-- A wait of PWAIT or EVWAIT ends with a result in a register. -/
def Mod.waitEnd (m : Mod) (f r : Nat) (v : Nat) : Mod :=
  m.setFm f (fun x => let y := x.setG r (BitVec.ofNat 64 v); { y with pc := x.pc + 1, wait := .none_ })

def Mod.bpwait (m : Mod) (f : Nat) (r : BitVec 5) (idx : Nat) : Mod :=
  let x := m.fm f
  let ctl := (x.reg (r.toNat + 1)).toNat
  let c := ctl % 4
  let cmp := (x.val r).toNat
  let tmo := ctl / 2 ^ 32
  if ctl % 2 ^ 32 / 4 != 0 then m.btrap f 0x80
  else if plateKind idx = .unassigned then m.btrap f 0x84
  else if pwaitCond c (m.pwaitValue f idx) cmp then m.waitEnd f (r.toNat + 1) 0
  else if tmo = 0 then m.waitEnd f (r.toNat + 1) 1
  else m.setFm f (fun x => { x with wait := .plate r.toNat idx c cmp (m.time.dtc + tmo) })

/-- A wait's condition is evaluated: PWAIT, EVWAIT, YIELD (R274, R281, R282). -/
def Mod.waitPoll (m : Mod) (f : Nat) : Mod :=
  match (m.fm f).wait with
  | .plate r idx c cmp t =>
    if pwaitCond c (m.pwaitValue f idx) cmp then m.waitEnd f (r + 1) 0
    else if t ≤ m.time.dtc then m.waitEnd f (r + 1) 1 else m
  | .event src rd t =>
    if (m.src src).pending then m.waitEnd f rd 0
    else if t ≤ m.time.dtc then m.waitEnd f rd 1 else m
  | .frames n => if n = 0 then m.setFm f (fun x => { x with pc := x.pc + 1, wait := .none_ }) else m
  | _ => m

/-! ### Line operations and check units -/

/-- The trap of a line operation's operands, lowest code first (R275, R270, R469). -/
def Mod.lineTrap (m : Mod) (f : Nat) (k : LineK) (dev scr : Nat) : Option Nat :=
  let n := if k = .lrdx then 72 else 64
  let al := if k = .lrdx then 8 else 64
  if dev % 64 != 0 || (k.scratch && scr % al != 0) then some 0x82
  else if k.scratch && 0x40000 < scr + n then some 0x83
  else if k = .lwr && (m.fm f).dbeIn scr 64 then some 0x89
  else none
def LineK.code : LineK → Nat | .lrd => 0 | .lrdx => 1 | .lwr => 2 | .lzero => 3 | .lflush => 4 | .lpin => 5 | .lunpin => 6

def Mod.bline (m : Mod) (f : Nat) (k : LineK) (rd ra rb : BitVec 5) : Mod :=
  let x := m.fm f
  let dev := (x.val ra).toNat
  let scr := if k.scratch then (x.val rb).toNat else 0
  match m.lineTrap f k dev scr with
  | some c => m.btrap f c
  | none => m.lineStart (.foreman f) k.code rd.toNat (dev / 64) scr (if k = .lwr then x.val rd else ~~~ 0) 0

/-- LINE_OP_DONE: the status is known, and the core goes on. -/
def Mod.blineDone (m : Mod) (f : Nat) : Mod :=
  match (m.fm f).wait with
  | .line o => match o.status with
    | some st => ((m.waitEnd f o.rd st).happen 0x1B 1).haltHold f
    | none => m
  | _ => m

def Mod.bcusel (m : Mod) (f : Nat) (rd ra : BitVec 5) : Mod :=
  let n := ((m.fm f).val ra).toNat
  if 4 ≤ n then m.btrap f 0x80
  else
    let r := m.cuSel f n
    r.2.setFm f (fun x => x.put rd (BitVec.ofNat 64 r.1))
def Mod.bcufeed (m : Mod) (f : Nat) (ra rb : BitVec 5) : Mod :=
  let x := m.fm f
  let a := (x.val ra).toNat
  let n := (x.val rb).toNat
  if n = 0 || 4096 < n then m.btrap f 0x80
  else if 0x40000 < a + n then m.btrap f 0x83
  else if x.dbeIn a n then m.btrap f 0x89
  else match m.cuOf f with
    | none => m.btrap f 0x8B
    | some u => (m.setCu u (fun c => c.feed (x.bytes a n))).setFm f Foreman.next
def Mod.bcuget (m : Mod) (f : Nat) (rd : BitVec 5) : Mod :=
  match m.cuOf f with
  | none => m.btrap f 0x8B
  | some u => m.setFm f (fun x => x.put rd (m.cu u).run)
def Mod.bcuput (m : Mod) (f : Nat) (ra : BitVec 5) : Mod :=
  match m.cuOf f with
  | none => m.btrap f 0x8B
  | some u => (m.setCu u (fun c => { c with run := (m.fm f).val ra })).setFm f Foreman.next

/-! ### Scratch (R269) -/

def Mod.bld (m : Mod) (f : Nat) (w : Width) (rd rs : BitVec 5) (imm : BitVec 14) : Mod :=
  let x := m.fm f
  let a := (x.val rs + imm.signExtend 64).toNat
  if a % w.bytes != 0 then m.btrap f 0x82
  else if 0x40000 ≤ a then m.btrap f 0x83
  else if x.dbeIn a w.bytes then m.btrap f 0x89
  else m.setFm f (fun x => x.put rd (BitVec.ofNat 64 (ofLe (x.bytes a w.bytes))))
def Mod.bst (m : Mod) (f : Nat) (w : Width) (rd rs : BitVec 5) (imm : BitVec 14) : Mod :=
  let x := m.fm f
  let a := (x.val rs + imm.signExtend 64).toNat
  if a % w.bytes != 0 then m.btrap f 0x82
  else if 0x40000 ≤ a then m.btrap f 0x83
  else m.setFm f (fun x =>
    let y := x.putBytes a (leBytes w.bytes (x.val rd).toNat)
    { y with pc := x.pc + 1, dbe := if w = .w64 then y.dbe.filter (fun k => k != a / 8) else y.dbe })

/-! ### Transactions and events (R280, R281) -/

def Mod.btxb (m : Mod) (f : Nat) : Mod :=
  if (m.fm f).tx.isSome then m.btrap f 0x88
  else m.setFm f (fun x => { x with pc := x.pc + 1, tx := some { org := m.org f } })
/-- TXC hands the transaction to the commit unit; with none open the answer is a RANGE failure. -/
def Mod.btxc (m : Mod) (f : Nat) (rd : BitVec 5) : Mod :=
  match (m.fm f).tx with
  | some t => (m.setFm f (fun x => { x with pc := x.pc + 1, tx := none, wait := .txc })).sendOne { t with foreman := some (f, rd.toNat) }
  | none =>
    let e : Fail := ⟨.range, 0, 0⟩
    ((m.setFm f Foreman.next).txFailed { org := m.org f } e).txResult f rd.toNat (failWord e) (failWord e % 65536) none
def Mod.btxa (m : Mod) (f : Nat) : Mod := m.setFm f (fun x => { x with pc := x.pc + 1, tx := none })

/-- The source an event instruction names. -/
def Foreman.evSrc (x : Foreman) (rs : BitVec 5) (imm : BitVec 14) : Nat := (x.val rs + imm.setWidth 64).toNat
def Mod.bevwait (m : Mod) (f : Nat) (rd rs : BitVec 5) (imm : BitVec 14) : Mod :=
  let x := m.fm f
  let s := x.evSrc rs imm
  let t := (x.val rd).toNat % 2 ^ 32
  if 576 ≤ s then m.btrap f 0x8C
  else if (m.src s).pending then m.waitEnd f rd.toNat 0
  else if t = 0 then m.waitEnd f rd.toNat 1
  else m.setFm f (fun x => { x with wait := .event s rd.toNat (m.time.dtc + t) })
def Mod.bevack (m : Mod) (f : Nat) (rd rs : BitVec 5) (imm : BitVec 14) : Mod :=
  let s := (m.fm f).evSrc rs imm
  if 576 ≤ s then m.btrap f 0x8C
  else if hasCnt s then
    let n := m.srcCnt s
    (m.ackSrc s).setFm f (fun x => { x.put rd (BitVec.ofNat 64 n) with immW := x.immW + 1 })
  else m.setFm f (fun x => x.put rd 0)
def Mod.bevsig (m : Mod) (f : Nat) (rd : BitVec 5) (code : BitVec 8) : Mod :=
  let x := m.fm f
  let o := m.org f
  let m := (m.setFm f Foreman.next).bump cSignal
  m.tally 5 o.code islFore (leBytes 1 code.toNat ++ leBytes 8 (x.val rd).toNat ++ leBytes 4 (if o.src < 2 then o.hook else o.ticket))

/-! ### One instruction -/

/-- What an instruction does once it executes; the step has been counted. -/
def Mod.bexec (m : Mod) (f : Nat) (b : BOp) : Mod :=
  let x := m.fm f
  match b with
  | .alu o rd ra rb => m.setFm f (fun x => x.put rd (o.eval (x.val ra) (x.val rb)))
  | .alui o rd rs imm => m.setFm f (fun x => x.put rd (o.eval (x.val rs) imm))
  | .shift o rd rs sh => m.setFm f (fun x => x.put rd (o.eval (x.val rs) sh.toNat))
  | .li rd imm => m.setFm f (fun x => x.put rd (imm.signExtend 64))
  | .lih rd imm => m.setFm f (fun x => x.put rd ((x.val rd <<< 21) ||| imm.setWidth 64))
  | .ld w rd rs imm => m.bld f w rd rs imm
  | .st w rd rs imm => m.bst f w rd rs imm
  | .br ra rb c off => m.setFm f (fun x => if brCond c (x.val ra) (x.val rb) then x.jump (x.pc + 1 + off.toNat) else x.next)
  | .j imm => m.setFm f (fun x => x.jump (x.pc + 1 + imm.toNat))
  | .call imm =>
    if 8 ≤ x.depth then m.btrap f 0x85
    else
      let base : Nat := match x.prog with | some p => p.base | none => 0
      m.setFm f (fun x => { x.setG 31 (BitVec.ofNat 64 (x.pc + 1)) with
        calls := (x.pc + 1, x.loops.length) :: x.calls, pc := base + imm.toNat })
  | .ret => (match x.calls with
      | [] => m.btrap f 0x86
      | c :: l => if x.reg 31 = BitVec.ofNat 64 c.1 then m.setFm f (fun x => x.leave c l) else m.btrap f 0x86)
  | .loop ra off => if 8 ≤ x.loops.length then m.btrap f 0x87 else m.setFm f (fun x => x.pushLoop ((x.val ra).toNat % 2 ^ 32) off.toNat)
  | .loopi n off => if 8 ≤ x.loops.length then m.btrap f 0x87 else m.setFm f (fun x => x.pushLoop n.toNat off.toNat)
  | .lend => (match x.loops with
      | [] => m.btrap f 0x87
      | t :: l => if t.stop = x.pc && t.depth = x.depth then m.setFm f (fun x => x.loopEnd t l) else m.btrap f 0x87)
  | .pld r e idx =>
    let i := x.plateIdx e idx
    if plateKind i = .unassigned then m.btrap f 0x84
    else
      let v := m.readWord (3 + f) i
      v.2.setFm f (fun x => x.put r (v.1.setWidth 64))
  | .pst r e idx => m.bpst f (x.plateIdx e idx) ((x.val r).setWidth 32)
  | .pwait r e idx => m.bpwait f r (x.plateIdx e idx)
  | .line k rd ra rb => m.bline f k rd ra rb
  | .cusel rd ra => m.bcusel f rd ra
  | .cufeed ra rb => m.bcufeed f ra rb
  | .cuget rd => m.bcuget f rd
  | .cuput ra => m.bcuput f ra
  | .txb => m.btxb f
  | .txc rd => m.btxc f rd
  | .txa => m.btxa f
  | .evwait rd rs imm => m.bevwait f rd rs imm
  | .evsig rd code => m.bevsig f rd code
  | .evack rd rs imm => m.bevack f rd rs imm
  | .time rd => m.setFm f (fun x => x.put rd (BitVec.ofNat 64 (m.stamp islFore)))
  | .halt => m.endProg f 2 0
  | .yield imm => m.setFm f (fun x => { x with wait := .frames imm.toNat })
  | .trap imm => m.endProg f 3 imm.toNat

/-! ### Fetch and execution -/

/-- The word at the program counter, when it lies in the program's area. -/
def Mod.fetch (m : Mod) (f : Nat) : Option Word :=
  let x := m.fm f
  match x.prog with
  | some p => if p.base ≤ x.pc && x.pc < p.base + p.size then some (m.psWord x.pc) else none
  | none => none
def Foreman.spent (x : Foreman) : Bool := match x.prog with | some p => decide (p.budget ≤ x.steps) | none => false
def Mod.countStep (m : Mod) (f : Nat) : Mod := m.setFm f (fun x => { x with steps := x.steps + 1 })

/-- A foreman stands before an instruction that it may execute. -/
def Foreman.ready (x : Foreman) : Bool := x.prog.isSome && x.wait == .none_ && !x.halted && !x.stopped

/-- The foreman executes the instruction at its PC if that is `b`; a spent budget aborts the program instead (R254). -/
def Mod.bauri (m : Mod) (f : Nat) (b : BOp) : Mod :=
  if !(m.fm f).ready then m
  else if (m.fm f).spent then m.endProg f 4 0
  else if (m.fetch f).bind bdecode = some b then ((m.countStep f).bexec f b).haltHold f
  else m

/-- What a load finds in the scratch word it reads (R27, R269): a word with a double-bit error keeps it until it is written whole. -/
def Mod.ldCheck (m : Mod) (f : Nat) (w : Width) (rd rs : BitVec 5) (imm : BitVec 14) (e : Ecc) : Mod :=
  let x := m.fm f
  let a := (x.val rs + imm.signExtend 64).toNat
  if !x.ready || x.spent || (m.fetch f).bind bdecode != some (.ld w rd rs imm) || a % w.bytes != 0 || 0x40000 ≤ a || e = .clean then m
  else
    let m := m.eccMeets f (a / 8) e
    if e = .double then m.setFm f (fun x => { x with dbe := if x.dbe.contains (a / 8) then x.dbe else x.dbe ++ [a / 8] }) else m

/-- Execute what stands at the PC, whatever it is. -/
def Mod.bstep (m : Mod) (f : Nat) : Mod :=
  if (m.fm f).spent then m.endProg f 4 0
  else match m.fetch f with
    | none => (m.countStep f).btrap f 0x81
    | some w => match bdecode w with
      | none => (m.countStep f).btrap f 0x80
      | some b => (m.countStep f).bexec f b

/-- DBG_FSTEP on a halted foreman: one instruction, or the end of a wait that is over (R373). -/
def Mod.fmStep (m : Mod) (f : Nat) : Mod :=
  let x := m.fm f
  if x.halted && x.prog.isSome && !x.stopped then
    if x.wait = .none_ then (m.bstep f).haltHold f else m.waitPoll f
  else m

/-- An unassigned word at the PC: ILLEGAL. -/
def Mod.billegal (m : Mod) (f : Nat) : Mod :=
  if (m.fm f).ready && !(m.fm f).spent && (match m.fetch f with | some w => (bdecode w).isNone | none => false) then
    (m.countStep f).btrap f 0x80
  else m
/-- The PC lies outside the area: FETCH. -/
def Mod.bfetch (m : Mod) (f : Nat) : Mod :=
  if (m.fm f).ready && !(m.fm f).spent && (m.fetch f).isNone then (m.countStep f).btrap f 0x81 else m

end Sys2Proof.Machine
end

