-- ==== Sys2Proof/Machine/Boundary.lean ====
section
/-!
DEFINITION. What takes place at a frame boundary (R22): windows close, staged writes apply, windows open, reservations and
decreases take effect; and every change that the spec puts at "the first frame boundary" after its cause.
-/

namespace Sys2Proof.Machine

/-! ### Windows (R22, R360, R386–R388) -/

/-- The length a meter runs under in a plate table; none while it is off. -/
def meterLen (t : Tbl Word) (l : Nat) : Option (Nat × Nat) :=
  let w := pget t (0x30400 + 4 * l)
  let k := bits (pget t (pkey 0 (0xC0200 / 4 + bits w 2 0))) 19 0
  if bit w 3 && k != 0 then some (bits w 2 0, k) else none

/-- A meter's window closes: its counts of occurrences stamped before the boundary are latched. -/
def LpAux.close (x : LpAux) (frame k : Nat) : LpAux :=
  { x with bwRd := x.accRd, bwWr := x.accWr, bwWin := frame % 2 ^ 32, short := frame + 1 - x.opened != k, accRd := 0, accWr := 0,
           opened := 0 }

/-- Step 1 for one meter: its window ends at this boundary, or its timer, length or enable changes with step 2. Log entry 36 (DEDUCED). -/
def Mod.meterClose (m : Mod) (old new : Tbl Word) (l : Nat) : Mod :=
  match meterLen old l with
  | none => m
  | some (t, k) =>
    if (m.aux l).opened != 0 && (m.frameNo % k = 0 || meterLen new l != some (t, k)) then
      m.setAux l (·.close m.frameNo k)
    else m
/-- Step 3 for one meter: a window opens where none is open. -/
def Mod.meterOpen (m : Mod) (new : Tbl Word) (l : Nat) : Mod :=
  if (meterLen new l).isSome && (m.aux l).opened = 0 then
    m.setAux l (fun x => { x with opened := m.frameNo + 1, accRd := 0, accWr := 0 })
  else m

/-- LPs whose BW_CFG is listed. -/
def meters (t : Tbl Word) : List Nat :=
  t.filterMap (fun e => if 0x30400 ≤ e.1 && e.1 < 0x30800 && e.1 % 4 == 0 then some ((e.1 - 0x30400) / 4) else none)

/-- TH_CTL.TIMER. -/
def thTimer (t : Tbl Word) : Nat := bits (pget t (pkey 0 (0xB0130 / 4))) 12 10

/-- Steps 1 to 3 of R22. -/
def Mod.windowsApply (m : Mod) : Mod :=
  let old := m.cfg.plates
  let new := m.applyStaged.cfg.plates
  let m := (meters old).foldl (fun m l => m.meterClose old new l) m
  let m := if m.frameNo % 1000000 = 0 || thTimer old != thTimer new then m.thWindow else m
  let m := ({ m with cfg := { m.cfg with prev := old } }).applyStaged
  (meters m.cfg.plates).foldl (fun m l => m.meterOpen new l) m

/-! ### LD maps and the control port (R43, R53) -/

/-- Word 0 of LD map entry `e` of LP `l`. -/
def ldIdx (l e : Nat) : Nat := 0x90000 + 0x480 * l + 2 * e
/-- The lowest free DC extent entry (64–575). -/
def Mod.freeExt (m : Mod) (l : Nat) : Option Nat := (lowest 512 (fun i => !bit (m.tab (ldIdx l (64 + i))) 31)).map (64 + ·)
def overlaps (a n b k : Nat) : Bool := decide (a < b + k) && decide (b < a + n)
/-- The LD can hold the extent now (R44, R45, R53): it lies in its DC region and in one region that is not a held mirror copy, takes no DPA
granule that is mapped and no device granule that is mapped, but for one of a shared region that another LD has mapped. -/
def Mod.extentLies (m : Mod) (l : Nat) (x : Extent) : Bool :=
  let y := m.lp l
  let taken : Bool := (List.range 256).any (fun q => q != l && (m.ldEnts q).any (fun e => overlaps x.dev x.count e.dev e.count))
  1 ≤ x.count && y.static ≤ x.dpa && x.dpa + x.count ≤ y.static + y.dcLen &&
    !(m.ldEnts l).any (fun e => overlaps x.dpa x.count e.dpa e.count || overlaps x.dev x.count e.dev e.count) &&
    (match m.regionOf x.dev with
     | none => false
     | some r => x.dev + x.count ≤ rBase (m.rw1 r) + regGranules (m.rw0 r) (m.rw1 r) && !(m.twr r).held && (rShared (m.rw0 r) || !taken))
/-- An accepted extent takes the lowest free entry. One that the LD can no longer hold at the boundary is not added.
Log entry 88 (DESIGN CHOICE). -/
def Mod.extAdd (m : Mod) (l : Nat) (x : Extent) : Mod :=
  if !m.extentLies l x then m else
  match m.freeExt l with
  | none => m
  | some e => (m.setPlate (ldIdx l e) (fld 30 3 ||| fld 16 x.dpa ||| fld 0 x.dev)).setPlate (ldIdx l e + 1) (fld 0 x.count)
def Mod.extDel (m : Mod) (l dpa : Nat) : Mod :=
  match (m.ldEnts l).find? (fun en => 64 ≤ en.e && en.dpa = dpa) with
  | none => m
  | some en => (m.setPlate (ldIdx l en.e) (plateReset (ldIdx l en.e))).setPlate (ldIdx l en.e + 1) (plateReset (ldIdx l en.e + 1))
/-- Extents released and accepted since the last boundary. -/
def Mod.extentsApply (m : Mod) : Mod :=
  (m.host.lps.filter (fun e => !e.2.dcAdd.isEmpty || !e.2.dcDel.isEmpty)).foldl (fun m e =>
    let m := e.2.dcDel.foldl (fun m d => m.extDel e.1 d) m
    let m := e.2.dcAdd.foldl (fun m x => m.extAdd e.1 x) m
    m.setLp e.1 (fun x => { x with dcAdd := [], dcDel := [] })) m

/-- Set Control Port takes effect; the BAR shadows are cleared (R64). -/
def Mod.ctlMove (m : Mod) : Mod :=
  match m.path.ctlNext with
  | none => m
  | some p => ({ m with path := { m.path with ctlPort := p, ctlNext := none } }).setMaster 0 (fun a => { a with sel := [], shadow := 0, tag := none })

/-! ### Tight-Pinned regions (R109) -/

def isPinnedW (w : Word) : Bool := rValid w && rClass w = 1

/-- A region leaves Tight-Pinned: second copies dropped, primaries unpinned. -/
def Mod.unpinRegion (m : Mod) (r : Nat) (w1 : Word) : Mod :=
  let mine := fun (p : Nat) => regPage0 w1 ≤ p && p < regPage0 w1 + regPages w1
  let gone := (m.hop.frames.filter (fun e => e.2.p && e.2.dup && mine e.2.page)).map (·.1)
  { m with hop := { m.hop with
      pwq := m.hop.pwq.filter (fun e => !gone.contains e.frame)
      frames := tmap {} (fun f => if f.p && mine f.page then (if f.dup then {} else { f with p := false }) else f) m.hop.frames
      pinned := m.hop.pinned.filter (· != r)
      pinPrev := tput 0 m.hop.pinPrev r 0
      pinLoad := if m.hop.pinLoad.any (fun x => x.1 = r) then none else m.hop.pinLoad } }

/-- Tight-Pinned at a boundary: regions leave, a completed load takes effect, the next load starts. -/
def Mod.pinBoundary (m : Mod) (old : Tbl Word) : Mod :=
  let w0 := fun (r : Nat) => pget old (0x80000 + 4 * r)
  let m := ((validRegions old).filter (fun r => isPinnedW (w0 r) && !isPinnedW (m.rw0 r))).foldl
    (fun m r => m.unpinRegion r (pget old (0x80001 + 4 * r))) m
  let entered := (validRegions m.cfg.plates).filter (fun r => isPinnedW (m.rw0 r) && rValid (w0 r) && !isPinnedW (w0 r))
  let m := { m with hop := { m.hop with pinPrev := entered.foldl (fun t r => tput 0 t r (rClass (w0 r))) m.hop.pinPrev } }
  let m := match m.hop.pinLoad with
    | some (r, _, true) => { m with hop := { m.hop with pinLoad := none, pinned := m.hop.pinned ++ [r], pinPrev := tput 0 m.hop.pinPrev r 0 } }
    | _ => m
  if m.hop.pinLoad.isSome then m.pinStep
  else if 4 ≤ m.pwr.phase then
    match (validRegions m.cfg.plates).find? (fun r => isPinnedW (m.rw0 r) && !m.hop.pinned.contains r) with
    | some r => { m with hop := { m.hop with pinLoad := some (r, 0, false) } }
    | none => m
  else m

/-! ### Endurance states (R164) -/

/-- A state is announced: the reclaim source by its level cause, an event on every host LD, a Tally record. UPK_STATE.CAUSE shows the cause of the state
entered last. Log entry 107 (DESIGN CHOICE). -/
def Mod.endurEnter (m : Mod) (state cause : Nat) : Mod :=
  (({ m with upk := { m.upk with cause := cause } }).allLdRec (if state < 3 then 1 else 2) 2 state).upkeepRec 551 0 (16 * cause + state)

/-- The lower margin, and the set that has it (A on a tie). -/
def Mod.lowMargin (m : Mod) : Int × Nat := if m.margin true < m.margin false then (m.margin true, 2) else (m.margin false, 1)

/-- The cause of Read-Only that holds now. -/
def Mod.roCause (m : Mod) : Option Nat :=
  let (g, c) := m.lowMargin
  if g < (bits (m.w 0 0x6005C) 15 0 : Int) then some c
  else if 2 ≤ m.chFailedIn false then some 3
  else if 2 ≤ m.chFailedIn true then some 4
  else if poisonCap - m.hop.poison.length < 1572864 then some 5
  else none

/-- States whose condition holds are entered, never left. -/
def Mod.endurBoundary (m : Mod) : Mod :=
  if m.pwr.phase < 4 then m
  else
    let (g, c) := m.lowMargin
    let m := if !m.upk.warned && g < (bits (m.w 0 0x60054) 15 0 : Int) then ({ m with upk := { m.upk with warned := true } }).endurEnter 1 c else m
    let m := if !m.upk.rmostly && g < (bits (m.w 0 0x60058) 15 0 : Int) then ({ m with upk := { m.upk with rmostly := true } }).endurEnter 2 c else m
    match m.roCause with
    | some k => if m.upk.ronly then m else ({ m with upk := { m.upk with ronly := true } }).endurEnter 3 k
    | none => m

/-! ### Hooks (R256, R257) -/

/-- The condition of a plate-threshold hook on the value watched. -/
def hookCond (cmp : Nat) (v th prev : Word) : Bool :=
  match cmp with | 0 => th.toNat ≤ v.toNat | 1 => v.toNat < th.toNat | _ => v != prev

/-- The watched plate as a program with all select values zero reads it. -/
def Mod.hookValue (m : Mod) (h : Nat) : Word := plateWord m 3 {} (m.hookW h 1).toNat

/-- One evaluation. -/
def Mod.hookEval (m : Mod) (h : Nat) : Mod :=
  let v := m.hookValue h
  let x := m.hook h
  let c := hookCond (bits (m.hookW h 0) 27 26) v (m.hookW h 2) (x.prevVal.getD v)
  let m := if c && !x.prevCond then m.fireHook h v.toNat else m
  m.setHook h (fun y => { y with prevCond := c, prevVal := some v })

/-- Hook `h` at a boundary; `was` is its first word before it. -/
def Mod.hookBoundary (m : Mod) (was : Word) (h : Nat) : Mod :=
  let w := m.hookW h 0
  let on : Bool := hookEn w && !hookEn was
  let m := if on then
      let v := m.hookValue h
      let m := m.setHook h (fun y => { y with prevCond := false, prevVal := some v })
      if hookKind w = 1 && (m.src (bits w 9 0)).pending then m.fireHook h 0 else m
    else m
  if !hookEn w then m.setHook h (fun y => { y with pending := none })
  else if hookKind w = 2 then (if m.frameNo % max 1 (m.hookW h 1).toNat = 0 then m.fireHook h 0 else m)
  else if hookKind w = 3 then (if m.frameNo % 1000 = 0 then m.hookEval h else m)
  else m

/-- Every hook whose first word is listed, or was. -/
def Mod.hooksBoundary (m : Mod) (old : Tbl Word) : Mod :=
  if m.fore.ready then
    let l := (List.range 128).filter (fun h => hookEn (m.hookW h 0) || hookEn (pget old (0x103000 + 4 * h)))
    l.foldl (fun m h => m.hookBoundary (pget old (0x103000 + 4 * h)) h) m
  else m

/-! ### The frame (R25, R77–R83, R101) -/

/-- LPs whose Tight miss reservation is listed, or that hold tokens. -/
def Mod.tokenLps (m : Mod) : List Nat :=
  let cfg : List Nat := m.cfg.plates.filterMap (fun e => if 0xD8000 ≤ e.1 && e.1 < 0xD8200 then some ((e.1 - 0xD8000) / 2) else none)
  let has : List Nat := m.host.aux.filterMap (fun e => if e.2.tokA != 0 || e.2.tokB != 0 then some e.1 else none)
  (cfg ++ has).eraseDups

/-- Step 4: tokens of the frame, bookings that have passed, credits. -/
def Mod.frameOpen (m : Mod) : Mod :=
  let m := m.tokenLps.foldl (fun m l => m.setAux l (fun x =>
    { x with tokA := effField m (0xD8001 + 2 * l) 4 0, tokB := effField m (0xD8001 + 2 * l) 12 8 })) m
  let m := { m with med := { m.med with
                      books := m.med.books.filter (fun b => m.time.dtc ≤ b.2.1 + 30),
                      chans := tmap {} (fun (h : MedCh) => { h with slots := h.slots.filter (fun t => m.time.dtc ≤ t + 30) }) m.med.chans,
                      reads := m.med.reads.filter (fun (r : MRead) => !(r.done && (match r.book with
                        | some b => decide (b.2 + 50 < m.time.dtc) | none => true))) },
                    host := { m.host with gate := m.waitHigh } }
  let m := { m with host := { m.host with rwdOpen := m.rwdAllowed } }
  m.fillCredits

def Foreman.yieldOne (x : Foreman) : Foreman :=
  match x.wait with
  | .frames n => { x with wait := .frames (n - 1) }
  | _ => x
/-- Foremen that yield count the boundary. -/
def Mod.yieldCount (m : Mod) : Mod :=
  { m with fore := { m.fore with fm := tmap {} Foreman.yieldOne m.fore.fm } }

/-- A copy under correction over `k` ticks (R18): behind, it gains 1 ns on each tick; ahead, it loses 1 ns on each second tick. It never
jumps and never steps back. -/
def Isl.pass (k : Nat) (i : Isl) : Isl :=
  if !i.fixing then i
  else if i.off < 0 then (let o := min 0 (i.off + k); { i with off := o, fixing := o != 0, half := false })
  else
    let n := k + i.half.toNat
    let o := max 0 (i.off - (n / 2 : Nat))
    { i with off := o, fixing := o != 0, half := o != 0 && n % 2 = 1 }
/-- The correction of a beacon that was heard starts at the boundary tick. -/
def Isl.correct (i : Isl) : Isl := if i.slew then { i with slew := false, fixing := i.off != 0, half := false } else i
/-- The DTC counts on to `t`, and every copy with it. -/
def Mod.clockTo (m : Mod) (t : Nat) : Mod :=
  { m with time := { m.time with dtc := t, isl := tmap {} (Isl.pass (t - m.time.dtc)) m.time.isl } }
/-- The boundary tick after now. -/
def Mod.nextB (m : Mod) : Nat := (m.time.dtc / 1000 + 1) * 1000
/-- The boundary tick: the next DTC that is a multiple of 1,000; copies with a beacon's correction begin it (R18). -/
def Mod.toBoundary (m : Mod) : Mod :=
  let m := m.clockTo m.nextB
  { m with time := { m.time with isl := tmap {} Isl.correct m.time.isl } }

/-- What CORE does at the boundary after step 3. -/
def Mod.coreBoundary (m : Mod) (old : Tbl Word) : Mod :=
  let m := (m.extentsApply.ctlMove.validChange old).m3Open.pinBoundary old
  let m := ((m.twinBoundary old).eraseBoundary.seamBoundary.budgetApply.endurBoundary).hooksBoundary old
  let m := m.yieldCount.frameOpen.movers.horizonQueue.tallyTrim
  if m.fore.ready then m.savePlates else m

/-- A frame boundary (R22). While AON is unpowered or in reset the DTC does not count. -/
def Mod.frameBoundary (m : Mod) : Mod :=
  if m.pwr.aonReset then m
  else
    let old := m.cfg.plates
    let m := m.toBoundary
    let m := if m.host.rwdOpen then m else m.happen 0x16 1
    let m := (m.windowsApply.happen 0x01 1).debugLevel
    if m.coreOn then m.coreBoundary old else m

end Sys2Proof.Machine
end

