-- ==== Sys2Proof/Machine/Ops.lean ====
section
/-!
DEFINITION. The one frame every command runs in: its own effect, then what the module does at once in consequence, until
nothing more follows from the command itself (a source's transition, a free foreman that takes work, a write that now
finds its place). Also the clock tick of an empty queue (log entry 20) and the deadlines that a move of the DTC passes.
-/

namespace Sys2Proof.Machine

/-! ### Consequences -/

/-- The gate closes as soon as a projected wait is too long; RwD credits stop as soon as a cause of R82 holds. -/
def Mod.closeGates (m : Mod) : Mod :=
  { m with host := { m.host with gate := m.host.gate || m.waitHigh, rwdOpen := m.host.rwdOpen && m.rwdAllowed } }

/-- Writes, merges and line writes that waited for room (R103, R117). -/
def Mod.retryAll (m : Mod) : Mod := m.retryWrites.retryMerges.retryLines

/-- States that follow from durable records and idle queues: Seam, epoch, orderly evacuation, M3, PHASE 3, M0 and M1. -/
def Mod.follow (m : Mod) : Mod :=
  m.seamDurable.epochDurable.orderlyStep.standby.m3Back.phase3.idleState

/-- The module returns to M0 or M1 with PHASE 5: Fireboss lists blocks it is behind on (R184). -/
def Mod.returned (old m : Mod) : Mod :=
  if 2 ≤ old.pwr.pstate && m.pwr.pstate ≤ 1 && m.pwr.phase = 5 then m.listBehind else m

/-- DBG_FSTEP.GO runs one instruction. -/
def Mod.stepOnce (m : Mod) : Mod :=
  match m.dbg.stepGo with
  | some f => ({ m with dbg := { m.dbg with stepGo := none } }).fmStep f
  | none => m

/-- A hopper channel fails (R115): fenced, recorded, Evacuate with cause 6; `why` is 0 training, 1 uncorrectable lines, 2 a device fault
(R465). The layout leaves it out from the restart on. -/
def Mod.hopChanFail (m : Mod) (c why : Nat) : Mod :=
  if (m.hch c).failed then m
  else
    let m := if why = 2 then m.bump (cDevice (c / 2)) else m
    ((m.setHch c (fun h => { h with failed := true, fenced := true })).faultRec (293 + c / 9) islHop 5 c why).evacCommit 6

/-- Channels that pass the limits of R115 and R144: more than 16 uncorrectable lines within 1 ms; more than 16 uncorrectable
codewords from three dies or more within 1 ms. -/
def Mod.chanChecks (m : Mod) : Mod :=
  let m := (m.hop.chans.filter (fun e => 16 < e.2.uncAt.length && !e.2.failed)).foldl (fun m e => m.hopChanFail e.1 1) m
  (m.med.chans.filter (fun e => 16 < e.2.uncAt.length && 3 ≤ ((e.2.uncAt.map (·.2)).eraseDups).length && !e.2.failed)).foldl
    (fun m e => (m.mediaChanFail e.1 1).goneSettle) m

/-- What MED does at once: page indexes of Full blocks, the root of a finished image, the operations that may start, the reference sets
that have changed. -/
def Mod.mediaOn (m : Mod) : Mod :=
  if m.coreOn && m.pwr.pstate < 3 then m.indexFull.ckGo.startOps.loadSets else m
/-- Everything that follows from a command at once; `old` is the module before it. -/
def Mod.fin (old m : Mod) : Mod :=
  let m := (Mod.rollStage old m).chanChecks.closeGates.retryAll.fillsEnd.follow
  let m := ((Mod.returned old m).stepOnce).mediaOn
  m.pumpAll.dbgMediaUp.overCheck.settleAll.dispatch

/-! ### Time passes -/

/-- Booked reads whose T is 50 ns away begin to sense; the non-Tight array reads in their planes make room (R80, R126). -/
def Mod.senseBooked (m : Mod) : Mod :=
  (m.med.reads.filter (fun r => !r.sensed && (match r.book with | some b => decide (b.2 ≤ m.time.dtc + 50) | none => false))).foldl
    (fun m r => ({ m with med := { m.med with reads := lmod (fun q => q.id = r.id) (fun q => { q with sensed := true }) m.med.reads } }).abandon r.loc) m
/-- What has fallen due at this instant (R39, R84, R85, R224, R225, R278): 20 ns before its deadline a late Sync write, or a lag of 20 µs,
breaks the pair, and any other request is deadline-poisoned; a poisoned response leaves at its deadline; a line operation ends with
DEADLINE, a held response is discarded, a cleared key slot is destroyed (R24). Log entry 31 (DEDUCED). -/
def Mod.expire (m : Mod) : Mod :=
  let due := fun (r : Req) => !r.late && decide (r.deadline ≤ m.time.dtc + 20)
  let m := if m.host.reqs.any (fun r => due r && r.waitMsn.isSome) then m.breakPair 2 else m
  let m := m.lagStop.senseBooked
  let m := ((m.host.reqs.filter due).foldl (fun m r => m.poisonReq r) m).sendLate
  let m := (m.lineAskers.filter (fun w => (m.lineOp w).any (fun o => o.status.isNone && o.bound ≤ m.time.dtc))).foldl
    (fun m w => m.lineDeadline w) m
  let m := (m.host.held.filter (fun h => h.req.deadline < m.time.dtc)).foldl (fun m h => m.heldDiscard h.req.id) m
  { m with cry := { m.cry with linger := m.cry.linger.filter (fun x => m.time.dtc < x.2.1 + 6200) } }

/-- Instants at which something falls due. -/
def Mod.dues (m : Mod) : List Nat :=
  m.host.reqs.map (fun r => if r.late then r.deadline else r.deadline - 20) ++ m.host.held.map (fun h => h.req.deadline + 1) ++
    m.lineAskers.map (fun w => match m.lineOp w with | some o => o.bound | none => 0) ++ m.cry.linger.map (fun x => x.2.1 + 6200) ++
    m.twin.recs.filterMap (fun r => if r.sync then none else r.ackedAt.map (· + 20000)) ++
    m.med.reads.filterMap (fun r => if r.sensed then none else r.book.map (fun b => b.2 - 50))
/-- The first of them after now and not after `t`. -/
def Mod.nextDue (m : Mod) (t : Nat) : Option Nat := (m.dues.filter (fun d => m.time.dtc < d && d ≤ t)).min?
/-- Time passes to `t`, within a frame, with everything done at the instant it falls due. -/
def Mod.passTo : Nat → Nat → Mod → Mod
  | 0, t, m => (m.clockTo t).expire
  | n + 1, t, m => match m.nextDue t with
    | some d => if d = t then (m.clockTo t).expire else Mod.passTo n t (m.clockTo d).expire
    | none => (m.clockTo t).expire
/-- More instants than can fall due: a request has two, and one more where its response is held. -/
def Mod.passFuel (m : Mod) : Nat := 3 * m.dues.length + 8
def Mod.pass (m : Mod) (t : Nat) : Mod := if m.time.dtc < t then Mod.passTo m.passFuel t m else m

/-- The rest of the frame passes, and the next frame boundary takes place. Without AON nothing counts. -/
def Mod.nextFrame (m : Mod) : Mod :=
  if m.pwr.aonReset then m else (m.pass (m.nextB - 1)).frameBoundary.expire
/-- Time passes to `t` over as many frame boundaries as lie before it, each with its consequences. -/
def Mod.passFrames : Nat → Nat → Mod → Mod
  | 0, t, m => m.pass t
  | n + 1, t, m => if m.nextB ≤ t then Mod.passFrames n t (Mod.fin m m.nextFrame) else m.pass t
/-- Time passes to `t`, if it has not come yet. -/
def Mod.passUntil (m : Mod) (t : Nat) : Mod :=
  if m.pwr.aonReset then m else Mod.passFrames ((t - m.time.dtc) / 1000 + 1) t m

/-- One nanosecond passes: the frame boundary's tick is a frame boundary. Without AON nothing counts. -/
def Mod.tick (m : Mod) : Mod :=
  if m.pwr.aonReset then m
  else if (m.time.dtc + 1) % 1000 = 0 then m.frameBoundary.expire
  else (m.clockTo (m.time.dtc + 1)).expire

/-- The step of an empty queue. -/
def idleTick (s : State) : State := { s with m := Mod.fin s.m s.m.tick }

/-! ### A command -/

/-- A command with its effect: the next state, with the queue's rest as it was. -/
def run (s : State) (op : Mod → Mod) : Host.Outcome State Fault Refusal := .next { s with m := Mod.fin s.m (op s.m) }

end Sys2Proof.Machine
end

