-- ==== Sys2Proof/Machine/Clock.lean ====
section
/-!
DEFINITION. Time, frames and on-chip memory tests (R15–R32): one meaning per command.
-/

namespace Sys2Proof.Machine

/-- An island's time becomes suspect (R20). -/
def Mod.suspectIsl (m : Mod) (i : Nat) : Mod :=
  if (m.isl i).suspect then m else ((m.setIsl i (fun x => { x with suspect := true })).bump cTime).timeRec i 1 (m.isl i).missed

/-- What a stalled island takes from the Evacuate that its stall commits (R20, R211): without a LINK island or TWIN the links go off at once;
without HOP or XBAR there is no manifest; without an MED island its channel is out of service. Log entry 111 (DEDUCED). -/
def Mod.evacIsl (m : Mod) (i : Nat) : Mod :=
  if i ≤ islTwin then m.linksOff
  else if i = islHop || i = islXbar then m.evSetOf (fun e => { e with noManifest := true })
  else if islMed 0 ≤ i && i < islFore then m.mediaChanFail (i - islMed 0) 1
  else m
/-- An island is declared stalled (R20): recorded, credits withheld, Evacuate with cause 4. While an Evacuate runs already, a stall ends every
program and AON powers down (R211). -/
def Mod.stallIsl (m : Mod) (i : Nat) : Mod :=
  if (m.isl i).stalled then m
  else
    let m' := ((m.setIsl i (fun x => { x with stalled := true })).bump cTime).timeRec i 2 (m.isl i).echoMissed
    if m.per.evac.isSome then m'.powerDown .m4
    else
      let m' := m'.evacCommit 4
      if m'.per.evac.isSome then m'.evacIsl i else m'

/-- The difference that a beacon finds at an island: within 2 ns while beacons arrive (R19); an island that missed the one before runs
on its ring oscillator, and its copy may have gone anywhere. -/
def Isl.found (i : Isl) (drift : Int) : Int := if i.missed = 0 then max (-2) (min 2 drift) else drift
/-- A beacon at island `i` whose copy differs by `drift` (R18–R20): the correction of a heard beacon begins at the boundary, and it ends
a suspicion; four in a row that are not heard begin one; eight echoes missed in a row stall the island. The difference itself is there
whether the beacon is heard or not. Log entry 30 (DEDUCED). -/
def Mod.beaconAt (m : Mod) (i : Nat) (drift : Int) (heard echoed : Bool) : Mod :=
  if m.pwr.aonReset || m.pwr.phase = 0 then m
  else
    let m := m.setIsl i (fun x => { x with
      off := x.found drift, fixing := false, slew := heard, missed := if heard then 0 else x.missed + 1,
      echoMissed := if echoed then 0 else x.echoMissed + 1, suspect := x.suspect && !heard })
    let m := if 4 ≤ (m.isl i).missed then m.suspectIsl i else m
    if 8 ≤ (m.isl i).echoMissed then m.stallIsl i else m

/-- The time PLL's rate changes, at most once per 1 ms, never the count (R16). -/
def Mod.pllAdjust (m : Mod) (ppb : Int) : Mod :=
  if m.pwr.aonReset || (match m.time.lastAdj with | some t => decide (m.time.dtc < t + 1000000) | none => false) then m
  else { m with time := { m.time with ppb := ppb, lastAdj := some m.time.dtc } }

/-- What the failure of memory `mem` at region `reg` stops (R32): a program-store region is 64 words of 64 bits, two instructions each; a
region of the Tally ring or of a command queue is fenced. -/
def Mod.memFailed (m : Mod) (mem reg : Nat) : Mod :=
  if mem < 8 then m.stopForeman mem
  else if mem = 8 then
    ((List.range 8).filter (fun f => match (m.fm f).prog with
      | some p => p.base < 128 * (reg + 1) && 128 * reg < p.base + p.size
      | none => false)).foldl Mod.stopForeman m
  else if mem < 12 then m.evacCommit 5
  else m.setScr mem (fun x => { x with fenced := x.fenced ++ [reg] })

/-- The background test of the next region, and what a failed memory stops (R30–R32). -/
def Mod.backTest (m : Mod) (mem : Nat) (fails : Bool) : Mod :=
  let had : Bool := (m.scr mem).failed
  let reg := (m.scr mem).next
  let m := m.testRegion mem fails
  if (m.scr mem).failed && !had then m.memFailed mem reg else m

/-- FRAME_BOUNDARY: the rest of the frame passes, then the boundary. -/
def execFrameBoundary (s : State) : Host.Outcome State Fault Refusal := run s (fun m => m.nextFrame)
/-- BEACON. -/
def execBeacon (isl : Fin 41) (drift : Int) (heard echoed : Bool) (s : State) : Host.Outcome State Fault Refusal :=
  run s (fun m => m.beaconAt isl drift heard echoed)
/-- TIME_SUSPECT. -/
def execTimeSuspect (isl : Fin 41) (s : State) : Host.Outcome State Fault Refusal :=
  run s (fun m => if m.pwr.aonReset then m else m.suspectIsl isl)
/-- ISLAND_STALL. -/
def execIslandStall (isl : Fin 41) (s : State) : Host.Outcome State Fault Refusal :=
  run s (fun m => if m.pwr.aonReset then m else m.stallIsl isl)
/-- TIME_PLL_ADJUST. -/
def execTimePllAdjust (ppb : Int) (s : State) : Host.Outcome State Fault Refusal := run s (fun m => m.pllAdjust ppb)
/-- DTC_SAVE. -/
def execDtcSave (s : State) : Host.Outcome State Fault Refusal := run s (fun m => m.dtcSave)
/-- KEY_SLOT_DESTROY. -/
def execKeySlotDestroy (slot : Fin 4098) (s : State) : Host.Outcome State Fault Refusal := run s (fun m => m.slotDestroy slot)
/-- BACKGROUND_TEST_REGION. -/
def execBackgroundTestRegion (mem : Fin 16) (fails : Bool) (s : State) : Host.Outcome State Fault Refusal :=
  run s (fun m => if m.coreOn then m.backTest mem fails else m)

end Sys2Proof.Machine
end

