-- ==== Sys2Proof/Machine/Debug.lean ====
section
/-!
DEFINITION. The commands of the test and debug port (R367–R379): instructions loaded into the TAP, accesses of the debug path,
halts, scratch, line commands, DQ.
-/

namespace Sys2Proof.Machine

/-! ### The TAP (R368, R376) -/

/-- The intrusive instructions are accepted in M4 and in PHASE 0. -/
def Mod.tapOpen (m : Mod) : Bool := m.pwr.pstate = 4 || m.pwr.phase = 0

/-- Load an instruction; a refused one loads BYPASS. A start that waited for a non-intrusive instruction goes on. -/
def Mod.loadIr (m : Mod) (code : Nat) : Mod :=
  if m.pwr.aonReset then m
  else
    let m := { m with dbg := { m.dbg with ir := code } }
    let m := if m.dbg.intrusive && !m.tapOpen then { m with dbg := { m.dbg with ir := 0x3F } } else m
    if m.pwr.startWait && !m.dbg.intrusive then m.startPhase1 else m

/-- Capture the pins into the boundary-scan register and shift it out, if instruction `code` is in force. -/
def Mod.scanPins (m : Mod) (code : Nat) (keep : Bool) : Mod :=
  if m.pwr.aonReset || m.dbg.ir != code then m
  else
    let d := m.draw
    let v := Config.boundaryScan d.1
    ({ d.2 with dbg := { d.2.dbg with bsr := if keep then v else d.2.dbg.bsr } }).emit (.tdo v.toNat)

/-- IDCODE's 32 bits. -/
def idWord : Nat := Config.step.toNat % 16 * 2 ^ 28 + 0x7256 * 2 ^ 12 + 0x4C3 * 2 + 1
def Mod.tdo (m : Mod) (v : Nat) : Mod := if m.pwr.aonReset then m else m.emit (.tdo v)

/-- DBGLVL: the capture shows LEVEL and REQ, the update sets REQ (R368, R370). -/
def Mod.setReq_ (m : Mod) (req : Nat) : Mod :=
  if m.pwr.aonReset then m
  else
    let m := (m.loadIr 0x20).tdo (4 * m.dbg.level + m.dbg.req)
    { m with dbg := { m.dbg with req := req } }

/-- The access's result as Capture-DR returns it. -/
def Mod.accWord (m : Mod) : Nat := m.dbg.accStatus * 2 ^ 33 + m.dbg.accData.toNat
/-- STATUS of an access that is refused: 2 for the level, 3 for the power state (R369, R376). -/
def Mod.accRefused (m : Mod) (write : Bool) (off : Nat) : Option Nat :=
  let dark : Bool := m.pwr.pstate = 4 || m.pwr.phase = 0
  let have_ := if dark then m.dbg.req else m.dbg.level
  if dark && blockOf off != 15 then some 3 else if have_ < (if write then 2 else 1) then some 2 else none
def Mod.accEnd (m : Mod) (st : Nat) (v : Word) : Mod := { m with dbg := { m.dbg with accStatus := st, accData := v, accRead := none } }

/-- DBGACC: the last result is shifted out, then the access is issued on the debug path. -/
def Mod.dbgAccess (m : Mod) (op off : Nat) (v : Word) : Mod :=
  if m.pwr.aonReset then m
  else
    let m := (m.loadIr 0x21).tdo m.accWord
    if op = 1 then
      match m.accRefused false off with
      | some st => m.accEnd st 0
      | none =>
        if !m.reaches off then m.accEnd 0 0
        else ({ m with dbg := { m.dbg with accStatus := 1, accData := 0, accRead := some (off / 4) } }).dbgPoll
    else if op = 2 then
      match m.accRefused true off with
      | some st => m.accEnd st 0
      | none => (m.accEnd 1 0).pathWrite .dbg off v true |>.dbgPoll
    else m

/-- TRST_N: REQ and LEVEL fall to DL0 (R370); the TAP's instruction register is reset. -/
def Mod.trst (m : Mod) : Mod :=
  if m.pwr.aonReset then m
  else (({ m with dbg := { m.dbg with req := 0 } }).debugLevel).loadIr 1

/-- EXTEST. -/
def execExtest (s : State) : Host.Outcome State Fault Refusal := run s (fun m => (m.loadIr 0).scanPins 0 false)
/-- IDCODE. -/
def execIdcode (s : State) : Host.Outcome State Fault Refusal := run s (fun m => (m.loadIr 1).tdo idWord)
/-- SAMPLE. -/
def execSample (s : State) : Host.Outcome State Fault Refusal := run s (fun m => (m.loadIr 2).scanPins 2 true)
/-- PRELOAD. -/
def execPreload (v : BitVec 64) (s : State) : Host.Outcome State Fault Refusal :=
  run s (fun m => if m.pwr.aonReset then m else let m := m.loadIr 3; { m with dbg := { m.dbg with bsr := v } })
/-- CLAMP. -/
def execClamp (s : State) : Host.Outcome State Fault Refusal := run s (fun m => m.loadIr 4)
/-- HIGHZ. -/
def execHighz (s : State) : Host.Outcome State Fault Refusal := run s (fun m => m.loadIr 5)
/-- BYPASS. -/
def execBypass (s : State) : Host.Outcome State Fault Refusal := run s (fun m => m.loadIr 0x3F)
/-- DBGLVL. -/
def execDbglvl (req : Fin 4) (s : State) : Host.Outcome State Fault Refusal := run s (fun m => m.setReq_ req)
/-- DBGACC. -/
def execDbgacc (op : Fin 4) (word : BitVec 19) (data : Word) (s : State) : Host.Outcome State Fault Refusal :=
  run s (fun m => m.dbgAccess op (4 * word.toNat) data)
/-- TRST_ASSERT. -/
def execTrstAssert (s : State) : Host.Outcome State Fault Refusal := run s (fun m => m.trst)

/-! ### Registers of the DEBUG block, written on the debug path -/

/-- Port B accesses need DL2 (R372). -/
def Mod.scratchAccess (m : Mod) (write : Option Word) (core : Bool) : Mod :=
  if !m.pathOk .dbg true 0x13001C then m
  else match write, core with
    | some v, false => m.pathWrite .dbg 0x13001C v true
    | some _, true => m.scratchMeets 2 write
    | none, false => m.pathRead .dbg 0x13001C
    | none, true => (m.scratchMeets 2 none).pathRead .dbg 0x13001C

/-- DBG_MCMD with an operation. -/
def Mod.dbgCmd (m : Mod) (op : Nat) : Mod := m.pathWrite .dbg 0x130048 (fld 0 op) true

/-- DEBUG_HALT. -/
def execDebugHalt (req : BitVec 8) (s : State) : Host.Outcome State Fault Refusal :=
  run s (fun m => m.pathWrite .dbg 0x130010 (fld 0 req.toNat) true)
/-- DEBUG_STEP. -/
def execDebugStep (f : Fin 8) (s : State) : Host.Outcome State Fault Refusal :=
  run s (fun m => m.pathWrite .dbg 0x130014 (flag 3 true ||| fld 0 f) true)
/-- DEBUG_SCRATCH_ACCESS. -/
def execDebugScratchAccess (write : Option Word) (core : Bool) (s : State) : Host.Outcome State Fault Refusal :=
  run s (fun m => m.scratchAccess write core)
/-- DEBUG_LINE_READ. -/
def execDebugLineRead (s : State) : Host.Outcome State Fault Refusal := run s (fun m => m.dbgCmd 1)
/-- DEBUG_RAW_READ. -/
def execDebugRawRead (s : State) : Host.Outcome State Fault Refusal := run s (fun m => m.dbgCmd 2)
/-- DEBUG_LINE_WRITE. -/
def execDebugLineWrite (s : State) : Host.Outcome State Fault Refusal := run s (fun m => m.dbgCmd 3)
/-- DEBUG_FLUSH. -/
def execDebugFlush (s : State) : Host.Outcome State Fault Refusal := run s (fun m => m.dbgCmd 4)
/-- DEBUG_PIN. -/
def execDebugPin (s : State) : Host.Outcome State Fault Refusal := run s (fun m => m.dbgCmd 5)
/-- DEBUG_UNPIN. -/
def execDebugUnpin (s : State) : Host.Outcome State Fault Refusal := run s (fun m => m.dbgCmd 6)
/-- DEBUG_LINE_CMD_DONE. -/
def execDebugLineCmdDone (s : State) : Host.Outcome State Fault Refusal := run s (fun m => m.dbgLineDone)
/-- DQ_LEN_WRITE. -/
def execDqLenWrite (v : Word) (s : State) : Host.Outcome State Fault Refusal := run s (fun m => m.pathWrite .dbg 0x130148 v true)
/-- DQ_DATA_APPEND. -/
def execDqDataAppend (v : Word) (s : State) : Host.Outcome State Fault Refusal := run s (fun m => m.pathWrite .dbg 0x13014C v true)
/-- DQ_SUBMIT; `upset` says that a pointer copy of the queue has changed (R245). -/
def execDqSubmit (upset : Bool) (s : State) : Host.Outcome State Fault Refusal :=
  run s (fun m => m.pathWrite .dbg 0x130150 (flag 0 true) (!upset))
/-- DEBUG_MEDIA_HOLD_EXPIRY. -/
def execDebugMediaHoldExpiry (s : State) : Host.Outcome State Fault Refusal := run s (fun m => m.dbgMediaDown)

end Sys2Proof.Machine
end

