-- ==== Sys2Proof/Machine/Holdup.lean ====
section
/-!
DEFINITION. The commands of persistence (R187–R214): the hold-up bank and its tests, power-fail detection, Evacuate, the dirty
roll, recovery; and what a register write starts of them.
-/

namespace Sys2Proof.Machine

/-- VIN above 21.0 V starts the debounce (R340). Log entry 6 (DEDUCED). -/
def Mod.overvoltage (m : Mod) (mv : Nat) : Mod := if 21000 < mv then m.debounceStart 1 else m
/-- The debounce's 40 µs pass, and it ends (R195). -/
def Mod.debounceOver (m : Mod) (good pfHigh : Bool) : Mod :=
  match m.per.debounce with
  | some t => (m.passUntil (t + 40000)).debounceEnd good pfHigh
  | none => m
/-- PWRFAIL_N from the chassis counts while PFIN is 1; the module ignores its own drive (R194). -/
def Mod.pwrfail (m : Mod) : Mod := if bit (m.w 0 0x7002C) 16 && !m.drivesPwrfail then m.debounceStart 2 else m

/-- CAP_TEST_START. -/
def execCapTestStart (s : State) : Host.Outcome State Fault Refusal := run s (fun m => m.capTimer)
/-- CAP_TEST_DONE. -/
def execCapTestDone (cap esr : Nat) (s : State) : Host.Outcome State Fault Refusal := run s (fun m => m.capDone cap esr)
/-- CAP_TEST_DEFER. -/
def execCapTestDefer (s : State) : Host.Outcome State Fault Refusal := run s (fun m => m.capDefer)
/-- BUDGET_RECOMPUTE. -/
def execBudgetRecompute (vhu : Nat) (s : State) : Host.Outcome State Fault Refusal := run s (fun m => m.budgetCompute vhu)
/-- UNDERVOLTAGE. -/
def execUndervoltage (s : State) : Host.Outcome State Fault Refusal := run s (fun m => m.debounceStart 1)
/-- PWRFAIL_IN. -/
def execPwrfailIn (s : State) : Host.Outcome State Fault Refusal := run s (fun m => m.pwrfail)
/-- VIN_OVERVOLTAGE. Above the absolute maximum rating of 24 V the module makes no claim (R340, R453). -/
def execVinOvervoltage (mv : Nat) (s : State) : Host.Outcome State Fault Refusal :=
  if 24000 < mv then .fault .outsideRatings else run s (fun m => m.overvoltage mv)
/-- DEBOUNCE_END. -/
def execDebounceEnd (vinGood pfHigh : Bool) (s : State) : Host.Outcome State Fault Refusal :=
  run s (fun m => m.debounceOver vinGood pfHigh)
/-- EVACUATE_COMMIT. -/
def execEvacuateCommit (cause : Fin 9) (s : State) : Host.Outcome State Fault Refusal :=
  run s (fun m => if cause.val = 0 then m else m.evacCommit cause)
/-- EVAC_MANIFEST_DURABLE. -/
def execEvacManifestDurable (s : State) : Host.Outcome State Fault Refusal := run s (fun m => m.evacManifest)
/-- EVAC_LINKS_OFF. -/
def execEvacLinksOff (s : State) : Host.Outcome State Fault Refusal := run s (fun m => m.evacLinks)
/-- EVAC_IMAGE_DONE. -/
def execEvacImageDone (s : State) : Host.Outcome State Fault Refusal := run s (fun m => m.evacImage)
/-- EVAC_METADATA_DURABLE. -/
def execEvacMetadataDurable (s : State) : Host.Outcome State Fault Refusal := run s (fun m => m.evacMeta)
/-- EVAC_MARKER_DURABLE. -/
def execEvacMarkerDurable (s : State) : Host.Outcome State Fault Refusal := run s (fun m => m.evacMarker)
/-- EVAC_POWER_DOWN. -/
def execEvacPowerDown (s : State) : Host.Outcome State Fault Refusal := run s (fun m => m.evacPower)
/-- MARKER_THRESHOLD. -/
def execMarkerThreshold (s : State) : Host.Outcome State Fault Refusal := run s (fun m => m.markerCut)
/-- VHU_FLOOR. -/
def execVhuFloor (s : State) : Host.Outcome State Fault Refusal := run s (fun m => m.floorCut)
/-- VIN_RETURN_WAIT_EXPIRY. -/
def execVinReturnWaitExpiry (s : State) : Host.Outcome State Fault Refusal := run s (fun m => m.vinReturn)
/-- EVACUATE_TEST_COMMAND: the test code in PER_EVCMD. -/
def execEvacuateTestCommand (p : Path) (s : State) : Host.Outcome State Fault Refusal :=
  run s (fun m => m.pathWrite p 0x70038 0x5E7A true)
/-- DIRTY_ROLL_WINDOW. -/
def execDirtyRollWindow (s : State) : Host.Outcome State Fault Refusal := run s (fun m => m.rollPage)
/-- ROLL_BASE. -/
def execRollBase (s : State) : Host.Outcome State Fault Refusal := run s (fun m => m.rollBase)
/-- SUSPECT_ACK: the count in PER_SUS_ACK. -/
def execSuspectAck (p : Path) (s : State) : Host.Outcome State Fault Refusal :=
  run s (fun m => m.pathWrite p 0x70064 (m.cntW cSus) true)
/-- RECOVERY, which ends at the boundary b_r, where hooks are evaluated for the first time (R440). -/
def execRecovery (f : RecoveryFinding) (s : State) : Host.Outcome State Fault Refusal :=
  run s (fun m => let n := m.recover f; if n.fore.ready && !m.fore.ready then n.hooksBoundary m.cfg.plates else n)

end Sys2Proof.Machine
end

