-- ==== Sys2Proof/Machine/Hopper.lean ====
section
/-!
DEFINITION. The hopper's commands (R87–R121) and the media read path's transfers (R81, R128): one meaning per command.
-/

namespace Sys2Proof.Machine

/-! ### Accesses, scrub, channel upkeep -/

/-- The hopper's devices answer: CORE is on and they are not in self-refresh. -/
def Mod.hopRuns (m : Mod) : Bool := m.coreOn && !m.hop.selfRef
/-- A line access can be granted: in self-refresh only the debug port's reads of M3 are served (R376, R378). -/
def Mod.hopServes (m : Mod) (who : Asker) : Bool := !m.hop.selfRef || (m.pwr.pstate = 3 && who = .debug)
/-- The medium works: not in M2, and in M3 only while a debug read holds the MEDIA group up (R351, R378). -/
def Mod.mediaRuns (m : Mod) : Bool :=
  m.pwr.pstate != 2 && (m.pwr.pstate != 3 || [9, 10, 11].all (fun k => (m.rail k).st = .inWindow))

/-- What a channel's arbiter grants: a line access, or the oldest posted write. -/
inductive Grant where
  | acc (id : Nat)
  | post
  deriving DecidableEq, Repr

/-- Weight of weighted requester `q` of a channel, in HOP_WGT's order from bit 0 (R116). -/
def Mod.hopWeight (m : Mod) (c q : Nat) : Nat := bits (m.w c 0x40008) (4 * q + 3) (4 * q)
/-- SPACING in effect: fewer reserved slots at once, more of them one frame late (R25, R117). -/
def Mod.hopSpacing (m : Mod) : Nat :=
  max (bits (m.w 0 0x40108) 3 0) (bits (pget m.cfg.prev (pkey 0 (0x40108 / 4))) 3 0)
/-- Accesses that wait on a channel, oldest first. -/
def Mod.chanAccs (m : Mod) (c : Nat) : List Access := m.hop.access.filter (fun a => a.ch = c && !a.cached)
def Mod.chanPost (m : Mod) (c : Nat) : Option Pwe := m.hop.pwq.find? (fun e => e.ch = c)
/-- What weighted requester `q` wants on a channel. -/
def Mod.wantsOf (m : Mod) (c q : Nat) : Option Grant :=
  if q = 1 then (m.chanPost c).map (fun _ => .post) else ((m.chanAccs c).find? (fun a => a.cl = q)).map (fun a => .acc a.id)
/-- The Tight host access that is served next: reads in stamp order, then the posted write at the head of the queue (R117). -/
def Mod.tightWant (m : Mod) (c : Nat) : Option Grant :=
  match (m.chanAccs c).find? (·.tight) with
  | some a => some (.acc a.id)
  | none => ((m.chanPost c).filter (·.tightPool)).map (fun _ => .post)
/-- Deficit round robin by HOP_WGT: the requester served goes on while its round lasts, then the next one that wants a slot; a weight of
0 is served when nothing else wants one (R116). Log entry 121 (DEDUCED). -/
def Mod.drrPick (m : Mod) (c : Nat) : Option (Nat × Grant) :=
  let h := m.hch c
  let order := (List.range 8).map (fun i => (h.cur + 1 + i) % 8)
  let first := if h.left != 0 && m.hopWeight c h.cur != 0 then h.cur :: order else order
  match first.find? (fun q => m.hopWeight c q != 0 && (m.wantsOf c q).isSome) with
  | some q => (m.wantsOf c q).map (fun g => (q, g))
  | none => (order.find? (fun q => (m.wantsOf c q).isSome)).bind (fun q => (m.wantsOf c q).map (fun g => (q, g)))
/-- The grant of the channel's next slot, and the weighted requester it counts for (R116–R118): debug at DL2 and above takes a slot that
is not reserved, at most one in 100 ns; then Tight accesses; then the weighted requesters. -/
def Mod.arbPick (m : Mod) (c : Nat) : Option (Option Nat × Grant) :=
  let h := m.hch c
  let dbg := ((m.chanAccs c).find? (fun a => a.cl = 8)).map (fun a => Grant.acc a.id)
  let free : Bool := h.slot % max 1 m.hopSpacing != 0 && 2 ≤ m.dbg.level && (h.dbgAt = 0 || h.dbgAt + 100 ≤ m.time.dtc + 1)
  match (if free then dbg else none), m.tightWant c, m.drrPick c with
  | some g, _, _ => some (none, g)
  | none, some g, _ => some (none, g)
  | none, none, some (q, g) => some (some q, g)
  | none, none, none => dbg.map (fun g => (none, g))
/-- A slot has been granted: the round of its requester goes on. -/
def Mod.granted (m : Mod) (c : Nat) (q : Option Nat) (debug : Bool) : Mod :=
  let now := m.time.dtc + 1
  m.setHch c (fun h =>
    let h := { h with slot := h.slot + 1, dbgAt := if debug then now else h.dbgAt }
    match q with
    | none => h
    | some q => if q = h.cur && h.left != 0 then { h with left := h.left - 1 } else { h with cur := q, left := m.hopWeight c q - 1 })

/-- The channel's arbiter serves the access now: none other goes before it, or it needs no slot. -/
def Mod.arbServes (m : Mod) (a : Access) : Bool := a.cached || (m.arbPick a.ch).any (fun p => p.2 = .acc a.id)
/-- The access takes its slot. -/
def Mod.takeSlot (m : Mod) (a : Access) : Mod :=
  if a.cached then m else m.granted a.ch ((m.arbPick a.ch).bind (·.1)) (a.cl = 8)

/-- A line access is granted and ends with `lanes` in error (R111, R114, R116). One that its channel's arbiter does not serve next cannot
end. -/
def Mod.accessDone (m : Mod) (id : Nat) (lanes : BitVec 16) : Mod :=
  match m.hop.access.find? (fun a => a.id = id) with
  | none => m
  | some a =>
    if !m.hopServes a.who || !m.arbServes a then m
    else
    let m := m.takeSlot a
    let m := { m with hop := { m.hop with access := m.hop.access.filter (fun x => x.id != id) } }
    match a.who with
    | .req q =>
      let r := m.readLine a.frame a.lineNo a.cell a.cached lanes
      (match r.2.reqById q with
      | some rq => r.2.answerAccess rq a r.1
      | none => r.2)
    | w => m.lineAccess w a lanes

/-- The head of a channel's rewrite queue is written corrected, if its frame still holds the line (R111). -/
def Mod.rewriteNext (m : Mod) (c : Nat) : Mod :=
  match (m.hch c).rewriteQ with
  | [] => m
  | (f, j) :: t =>
    let m := m.setHch c (fun h => { h with rewriteQ := t })
    if (m.frame f).valid.getLsbD j && (m.queued f j).isNone then
      m.rewriteLine f j { tget {} (m.frame f).lines j with flip := 0 } else m

/-- The scrub corrects a line of position `p` on channel `c` and counts its lanes; a lane with more than 64 lines in one pass marks
the channel DEGRADED (R112). -/
def Mod.scrubLane (m : Mod) (c : Nat) (lanes : BitVec 16) : Mod :=
  let m := m.setHch c (fun h => { h with
    corr := h.corr + 1, lanes := h.lanes ||| lanes,
    laneCnt := (List.range 16).foldl (fun t i => if lanes.getLsbD i then tmod 0 t i (· + 1) else t) h.laneCnt })
  if (m.hch c).laneCnt.any (fun e => 64 < e.2) && !(m.hch c).degraded then
    (m.setHch c (fun h => { h with degraded := true })).faultRec (293 + c / 9) islHop 4 c (m.hch c).lanes.toNat
  else m

/-- An uncorrectable map or metadata line at a frame position (R114, R465): 3 metadata, 4 map. -/
def Mod.positionBad (m : Mod) (p held : Nat) : Mod :=
  let c := m.chanOf p
  let now := m.time.dtc
  ((m.bump (cHopUnc c)).setHch c (fun h => { h with uncAt := (h.uncAt.filter (fun t => now < t + 1000000)) ++ [now] })).faultRec
    (293 + c / 9) islHop 3 (2 ^ 63 + p) (c + 256 * held)

/-- Pages whose 5-byte entries touch line `line` of the `p`-th position of the map (R90, R133). -/
def mapLinePages (p line : Nat) : List Nat :=
  let b := 4096 * p + 64 * line
  (List.range 14).filterMap (fun i => if b / 5 + i ≤ (b + 63) / 5 then some (b / 5 + i) else none)

/-- The entries of an uncorrectable map line wait for their rebuild (R114). -/
def Mod.mapLineBad (m : Mod) (p line : Nat) : Mod :=
  let m := m.positionBad p 4
  { m with hop := { m.hop with badMap := (m.hop.badMap ++ mapLinePages (p - m.mapBase) line).eraseDups } }

/-- The scrub reads a line of a frame position (R112); a position below the last one begins a new pass. Log entry 68 (DEDUCED). -/
def Mod.scrub (m : Mod) (p line : Nat) (lanes : BitVec 16) : Mod :=
  if !m.hopRuns || bits (m.w 0 0x40110) 23 0 = 0 || m.posEnd ≤ p || (m.hch (m.chanOf p)).failed then m
  else
    let c := m.chanOf p
    let m : Mod := if p < m.hop.scrubAt then
      { m with hop := { m.hop with chans := tmap {} (fun h => { h with lanes := 0, laneCnt := [] }) m.hop.chans } } else m
    let m : Mod := { m with hop := { m.hop with scrubAt := p } }
    if p < m.mapBase then
      let x := m.frame p
      if !x.valid.getLsbD line || (m.queued p line).isSome then m
      else
        let cell := tget {} x.lines line
        let e := cell.flip ||| lanes
        if laneCount e = 0 then m
        else if laneCount e = 1 then (m.scrubLane c e).rewriteLine p line { cell with flip := 0 }
        else (m.lineBad p (x.page * 64 + line)).2
    else
      let e := tget 0 m.hop.posFlip (64 * p + line) ||| lanes
      let clr : Mod := { m with hop := { m.hop with posFlip := tput 0 m.hop.posFlip (64 * p + line) 0 } }
      if laneCount e = 0 then m
      else if laneCount e = 1 then clr.scrubLane c e
      else if p < m.metaBase then clr.mapLineBad p line
      else clr.positionBad p 3

/-- A bank's refresh (R120). In self-refresh the devices refresh themselves. -/
def Mod.refreshBank (m : Mod) (c : Nat) : Mod :=
  if m.hopRuns && !(m.hch c).failed then (m.setHch c (fun h => { h with refs := h.refs + 1 })).happen 0x14 1 else m

/-- Threshold of weighted requester `q` of channel `c` in units of 100 ns (HOP_STVTH0, HOP_STVTH1). -/
def Mod.starveTh (m : Mod) (c q : Nat) : Nat :=
  if q < 4 then bits (m.w c 0x4000C) (8 * q + 7) (8 * q) else bits (m.w c 0x40010) (8 * (q - 4) + 7) (8 * (q - 4))

/-- A weighted requester passes its threshold, or waits no longer (R119). -/
def Mod.starvation (m : Mod) (c q : Nat) (waits : Bool) : Mod :=
  let on : Bool := (m.hch c).starve.testBit q
  if waits && !on && m.starveTh c q != 0 && m.hopRuns then
    (((m.setHch c (fun h => { h with starve := h.starve + 2 ^ q })).bump (cHopStv c))).happen 0x15 1
  else if !waits && on then m.setHch c (fun h => { h with starve := h.starve - 2 ^ q })
  else m

/-! ### Reads from the medium -/

/-- Rank of a waiting media read in R130's order: a Standard read, oldest stamp first; then program loads, Bulk reads and upkeep reads by
their weights. -/
def Mod.readRank (m : Mod) (r : MRead) : Nat :=
  match r.who with
  | .mover _ _ => 2
  | .req id => if m.host.reqs.any (fun q => q.id = id && (q.demoted || q.cls = .bulk)) then 1 else 0
  | _ => 0
/-- Reads that want a transfer on channel `c` now, not booked. -/
def Mod.chanReads (m : Mod) (c : Nat) : List MRead :=
  m.med.reads.filter (fun r => r.book.isNone && enSg r.loc / 10 = c / 10 && m.wants (m.tagged (m.regionOfPage r.page)) r (c % 10))
/-- A program unit waits for its loads on channel `c`. -/
def Mod.chanLoads (m : Mod) (c : Nat) : Bool :=
  (setSgs (10 ≤ c)).any (fun g => (m.sgWork g).any (fun e => e.1 == c % 10 && !e.2.1))
/-- Weights of MED_WGT: 0 program loads, 1 Bulk, 2 upkeep; Reclaim's reads take 15 while the Free count is below RCL_URGENT (R130, R153). -/
def Mod.medWeight (m : Mod) (c q : Nat) : Nat :=
  if q = 2 && m.setFree (10 ≤ c) < bits (m.w 0 0x60044) 15 0 && m.med.moves.any (fun v => v.wr = .reclaim) then 15
  else bits (m.w c 0x50024) (4 * q + 3) (4 * q)
/-- Weighted requesters of a channel that want a transfer. -/
def Mod.medWants (m : Mod) (c q : Nat) : Bool :=
  if q = 0 then m.chanLoads c else (m.chanReads c).any (fun r => m.readRank r = q)
/-- The weighted requester that is served next on channel `c`: the one served goes on while its round lasts, then the next that wants a
transfer; a weight of 0 only when no other wants one (R130). Log entry 122 (DEDUCED). -/
def Mod.medPick (m : Mod) (c : Nat) : Option Nat :=
  let h := m.mch c
  let order := (List.range 3).map (fun i => (h.cur + 1 + i) % 3)
  let first := if h.left != 0 then h.cur :: order else order
  match first.find? (fun q => m.medWeight c q != 0 && m.medWants c q) with
  | some q => some q
  | none => order.find? (m.medWants c)
/-- Channel `c` transfers a codeword of this read next (R130): of the Standard reads the oldest stamp; a Bulk or upkeep read when no
Standard read waits, within its round. Program loads give way to the read that the command names. Log entry 109 (DEDUCED). -/
def Mod.medServes (m : Mod) (c : Nat) (r : MRead) : Bool :=
  let l := m.chanReads c
  let std := l.filter (fun q => m.readRank q = 0)
  if m.readRank r = 0 then std.all (fun q => r.stamp ≤ q.stamp)
  else std.isEmpty && (match m.medPick c with | some 0 => true | some q => q = m.readRank r | none => true)
/-- The transfer of a read that is not booked takes its slot, and its requester's round goes on. -/
def Mod.takeMedSlot (m : Mod) (c t : Nat) (r : MRead) : Mod :=
  let q := m.readRank r
  let wt := m.medWeight c q
  m.setMch c (fun h =>
    let h := { h with slots := h.slots ++ [t] }
    if q = 0 then h else if q = h.cur && h.left != 0 then { h with left := h.left - 1 } else { h with cur := q, left := wt - 1 })

/-- A codeword of a read arrives (R128, R139), with the projected waits that result (R83). A booked one is transferred at T; another one in
the earliest time that its channel has open, if it is its turn. Either way it ends 30 ns after its start. -/
def Mod.codewordArrives (m : Mod) (id x : Nat) (res : Decode1) (w : Waits) : Mod :=
  match m.med.reads.find? (fun r => r.id = id) with
  | none => m
  | some r =>
    let tg := m.tagged (m.regionOfPage r.page)
    if !m.mediaRuns || !m.wants tg r x then m
    else
      let c := mcOf (enSg r.loc) x
      let go := fun (m : Mod) => match m.med.reads.find? (fun r => r.id = id) with
        | some r => if m.wants tg r x then Mod.deliver ((m.setWaits w).transfer r x res) else m
        | none => m
      match r.book with
      | some b => go (m.passUntil (b.2 + 30))
      | none =>
        if m.medServes c r then
          let t := m.openSlot c
          go ((m.takeMedSlot c t r).passUntil (t + 30))
        else m

/-- T + 50 ns of a booked read passes with fewer than eight codewords decoded (R81). -/
def Mod.stripeShort (m : Mod) (id : Nat) : Mod :=
  match m.med.reads.find? (fun r => r.id = id) with
  | none => m
  | some r => match r.book with
    | none => m
    | some b =>
      let m := m.passUntil (b.2 + 50)
      match m.med.reads.find? (fun r => r.id = id) with
      | some r => if !r.done && r.decoded < 8 then Mod.deliver (m.mergeShort r) else m
      | none => m

/-! ### Merging, cleaning, pin loads, map entries -/

/-- An open entry's line is read, merged and written (R103). -/
def Mod.mergeAt (m : Mod) (page line : Nat) : Mod :=
  match m.hop.merge.find? (fun e => e.lineNo = page * 64 + line && e.waiting.isEmpty) with
  | some e => m.completeMerge e
  | none => m

/-- The cleaner selects its next frame (R105). -/
def Mod.cleanNext (m : Mod) : Mod :=
  if m.pwr.phase < 4 || m.per.evac.isSome then m
  else match m.nextClean with
    | some f => m.cleanFrame f
    | none => m

/-- Cleaning of a frame is complete: an LFLUSH that waits for its lines ends (R106, R277). -/
def Mod.cleanEnd (m : Mod) (f : Nat) : Mod :=
  let x := m.frame f
  let m := m.cleanDone f
  if x.cleaning && !((m.frame f).cleaning && (m.frame f).page = x.page) then m.flushed x.page x.copied else m

/-- A map entry is found uncorrectable, or has been rebuilt from the checkpoint and journal (R114). Log entry 69 (DEDUCED). -/
def Mod.mapRebuild (m : Mod) (page : Nat) (unreadable : Bool) : Mod :=
  if unreadable then
    let p := m.mapBase + page * 5 / 4096
    if m.hopRuns && page < 2 ^ 32 && !m.hop.badMap.contains page then
      let m := m.positionBad p 4
      { m with hop := { m.hop with badMap := m.hop.badMap ++ [page] } }
    else m
  else { m with hop := { m.hop with badMap := m.hop.badMap.filter (· != page) } }

/-! ### The commands -/

/-- HOPPER_ACCESS_DONE. -/
def execHopperAccessDone (id : Nat) (lanes : BitVec 16) (s : State) : Host.Outcome State Fault Refusal :=
  run s (fun m => m.accessDone id lanes)
/-- HOPPER_REWRITE. -/
def execHopperRewrite (ch : Fin 54) (s : State) : Host.Outcome State Fault Refusal :=
  run s (fun m => if m.hopRuns then m.rewriteNext ch else m)
/-- HOPPER_SCRUB. -/
def execHopperScrub (frame : Nat) (line : Fin 64) (lanes : BitVec 16) (s : State) : Host.Outcome State Fault Refusal :=
  run s (fun m => m.scrub frame line lanes)
/-- HOPPER_CHANNEL_FAIL. -/
def execHopperChannelFail (ch : Fin 54) (why : Fin 3) (s : State) : Host.Outcome State Fault Refusal :=
  run s (fun m => if m.coreOn then m.hopChanFail ch why else m)
/-- HOPPER_REFRESH. -/
def execHopperRefresh (ch : Fin 54) (_bank : Fin 16) (s : State) : Host.Outcome State Fault Refusal :=
  run s (fun m => m.refreshBank ch)
/-- HOPPER_STARVATION. -/
def execHopperStarvation (ch : Fin 54) (req : Fin 8) (waits : Bool) (s : State) : Host.Outcome State Fault Refusal :=
  run s (fun m => m.starvation ch req waits)
/-- The oldest posted write of a channel takes the slot that the arbiter grants it (R98, R116). -/
def Mod.drainSlot (m : Mod) (c : Nat) : Mod :=
  match m.arbPick c with
  | some (q, .post) => if m.hopRuns && !(m.hch c).failed then (m.granted c q false).drainOne c else m
  | _ => m
/-- POSTED_WRITE_DRAIN. -/
def execPostedWriteDrain (ch : Fin 54) (s : State) : Host.Outcome State Fault Refusal := run s (fun m => m.drainSlot ch)
/-- CODEWORD_TRANSFER_DONE. -/
def execCodewordTransferDone (id : Nat) (x : Fin 10) (res : Decode1) (w : Waits) (s : State) : Host.Outcome State Fault Refusal :=
  run s (fun m => m.codewordArrives id x res w)
/-- STRIPE_MERGE_SHORT. -/
def execStripeMergeShort (id : Nat) (s : State) : Host.Outcome State Fault Refusal := run s (fun m => m.stripeShort id)
/-- BACKGROUND_FILL_DONE. -/
def execBackgroundFillDone (frame : FillEnd) (s : State) : Host.Outcome State Fault Refusal :=
  run s (fun m => m.fillDone frame.frame frame.bad)
/-- MERGE_COMPLETE. -/
def execMergeComplete (page : Nat) (line : Fin 64) (s : State) : Host.Outcome State Fault Refusal :=
  run s (fun m => m.mergeAt page line)
/-- CLEAN_START. -/
def execCleanStart (s : State) : Host.Outcome State Fault Refusal := run s (fun m => m.cleanNext)
/-- CLEAN_COMPLETE. -/
def execCleanComplete (frame : Nat) (s : State) : Host.Outcome State Fault Refusal := run s (fun m => m.cleanEnd frame)
/-- PIN_LOAD_COMPLETE. -/
def execPinLoadComplete (region : Fin 4096) (s : State) : Host.Outcome State Fault Refusal := run s (fun m => m.pinLoaded region)
/-- MAP_ENTRY_REBUILD. -/
def execMapEntryRebuild (page : Nat) (unreadable : Bool) (s : State) : Host.Outcome State Fault Refusal :=
  run s (fun m => m.mapRebuild page unreadable)

end Sys2Proof.Machine
end

