-- ==== Sys2Proof/Machine/HostPort.lean ====
section
/-!
DEFINITION. Host ports and CXL.mem requests (R36–R56): one meaning per command.
-/

namespace Sys2Proof.Machine

/-! ### Requests -/

/-- The region of a mapped device line. -/
def Mod.regOfLine (m : Mod) (lineNo : Nat) : Nat := (m.regionOf (granOfLine lineNo)).getD 0

/-- An unmapped request (R47): counted; a read is poisoned, a write discarded. -/
def Mod.unmappedReq (m : Mod) (l : Nat) (op : ReqOp) (tag : Nat) : Mod :=
  let x := (m.bump (cUnmap l)).stampUnmapped l op tag
  x.2.respond x.1 (if op = .read then some .poison else none)

/-- A region whose home has moved to the twin, or is about to at the next boundary, admits no request (R229–R231): to a host its lines are
unmapped. Log entry 116 (DEDUCED). -/
def Mod.notHome (m : Mod) (r : Nat) : Bool := (m.twr r).held || m.tx.takeNext.contains r
/-- A request arrives on a credit (R47–R50): stamped, classified, admitted, and served by `serve`. -/
def Mod.arrive (m : Mod) (l hpa : Nat) (op : ReqOp) (tag : Nat) (data : Line) (mask : Dword) (poison : Bool)
    (serve : Mod → Req → Option Nat → Mod) : Mod :=
  if m.canStamp l then
    let m := m.takeCredit l op.isWrite
    match m.decodeHpa l hpa with
    | none => m.unmappedReq l op tag
    | some lineNo =>
      if m.notHome (m.regOfLine lineNo) then m.unmappedReq l op tag
      else
      let x := m.stampReq l op tag lineNo (m.regOfLine lineNo) data mask poison
      serve x.2 x.1.1 x.1.2
  else m

/-- The words a read looks at (R27, R92): the directory always, the map cache on the miss path, the merge buffer where its line has an
open entry. -/
def Mod.readChecks (m : Mod) (r : Req) (chk : Checks) : List (Nat × Ecc) :=
  [(9, chk.dir)] ++ (if (m.wayOf (r.line / 64)).isNone || m.filling (r.line / 64) then [(10, chk.cache)] else []) ++
    (if m.hop.merge.any (fun e => e.lineNo = r.line) then [(11, chk.merge)] else [])
/-- A double-bit error returns poison to the read (R27). -/
def Mod.serveChecked (m : Mod) (chk : Checks) (r : Req) (b : Option Nat) : Mod :=
  let l := m.readChecks r chk
  let m := l.foldl (fun m e => m.eccMeets e.1 (r.line / 64) e.2) m
  if l.any (fun e => e.2 = .double) then m.respond r (some .poison) else m.serveRead r b
def Mod.memRead (m : Mod) (l hpa tag : Nat) (chk : Checks) : Mod :=
  m.arrive l hpa .read tag 0 0 false (fun m r b => m.serveChecked chk r b)
def Mod.memInval (m : Mod) (l hpa tag : Nat) : Mod := m.arrive l hpa .inv tag 0 0 false (fun m r _ => m.respond r none)
def Mod.memWrite (m : Mod) (l hpa tag : Nat) (data : Line) (poison : Bool) : Mod :=
  m.arrive l hpa .write tag data (~~~ (0 : Dword)) poison (fun m r _ => m.serveWrite r)
def Mod.memPartial (m : Mod) (l hpa tag : Nat) (data : Line) (be : Dword) (poison : Bool) : Mod :=
  m.arrive l hpa .ptl tag data be poison (fun m r b => m.servePtl r b)

/-! ### Commands -/

/-- LINK_TRAINED. -/
def execLinkTrained (port : Fin 16) (t : Option Trained) (s : State) : Host.Outcome State Fault Refusal :=
  run s (fun m => m.linkTrain port t)
/-- LINK_RECOVERY_OR_DOWN. -/
def execLinkRecoveryOrDown (port : Fin 16) (down : Bool) (s : State) : Host.Outcome State Fault Refusal :=
  run s (fun m => m.linkLeave port down)
/-- LINK_RETURN_L0. -/
def execLinkReturnL0 (port : Fin 16) (s : State) : Host.Outcome State Fault Refusal := run s (fun m => m.linkReturn port)
/-- RESPONSE_BOUND_DISCARD: the bound of a held response passes. -/
def execResponseBoundDiscard (id : Nat) (s : State) : Host.Outcome State Fault Refusal :=
  run s (fun m => match m.host.held.find? (fun h => h.req.id = id) with
    | some h => m.passUntil (h.req.deadline + 1)
    | none => m)
/-- PERST_ASSERT. -/
def execPerstAssert (port : Fin 16) (s : State) : Host.Outcome State Fault Refusal := run s (fun m => m.portReset port)
/-- PERST_DEASSERT. -/
def execPerstDeassert (port : Fin 16) (s : State) : Host.Outcome State Fault Refusal := run s (fun m => m.portRelease port)
/-- FUNCTION_LEVEL_RESET: of the LD function's CXL.io state the model holds Memory Space Enable. Log entry 27 (PRESUMED). -/
def execFunctionLevelReset (lp : Fin 256) (s : State) : Host.Outcome State Fault Refusal :=
  run s (fun m => m.setLp lp (fun x => { x with enabled := false }))
/-- ASPM_L1_ENTRY. -/
def execAspmL1Entry (port : Fin 16) (s : State) : Host.Outcome State Fault Refusal := run s (fun m => m.l1Enter port)
/-- ASPM_L1_EXIT. -/
def execAspmL1Exit (port : Fin 16) (s : State) : Host.Outcome State Fault Refusal := run s (fun m => m.l1Exit port)
/-- MEMORY_SPACE_ENABLE. -/
def execMemorySpaceEnable (lp : EnableWrite) (s : State) : Host.Outcome State Fault Refusal :=
  run s (fun m => m.memEnable lp.lp lp.viral)
/-- HDM_DECODER_COMMIT. -/
def execHdmDecoderCommit (lp : Fin 256) (dec : Fin 4) (base size : Nat) (ways : Fin 4) (gran : Fin 7) (pos : Fin 8) (skip : Nat)
    (s : State) : Host.Outcome State Fault Refusal :=
  run s (fun m => m.hdmCommit lp dec base size ways gran pos skip)
/-- MEMRD. -/
def execMemRd (lp : Fin 256) (hpa : Nat) (tag : ReadTag) (s : State) : Host.Outcome State Fault Refusal :=
  run s (fun m => m.memRead lp hpa tag.tag.toNat tag.chk)
/-- MEMRDDATA: as MemRd. -/
def execMemRdData (lp : Fin 256) (hpa : Nat) (tag : ReadTag) (s : State) : Host.Outcome State Fault Refusal :=
  run s (fun m => m.memRead lp hpa tag.tag.toNat tag.chk)
/-- MEMSPECRD: accepted and ignored. -/
def execMemSpecRd (_lp : Fin 256) (_hpa : Nat) (s : State) : Host.Outcome State Fault Refusal := run s (fun m => m)
/-- HOST_LINK_REPLAY: flits sent again are counted; they are no second responses (R39). -/
def execHostLinkReplay (port : Fin 16) (flits : Nat) (s : State) : Host.Outcome State Fault Refusal :=
  run s (fun m => if (m.port port).link = .l0 || (m.port port).link = .recovery then
    m.setPort port (fun x => { x with replay := x.replay + flits }) else m)
/-- MEMINV and MEMINVNT. -/
def execMemInv (lp : Fin 256) (hpa : Nat) (tag : BitVec 16) (_nt : Bool) (s : State) : Host.Outcome State Fault Refusal :=
  run s (fun m => m.memInval lp hpa tag.toNat)
/-- MEMWR. -/
def execMemWr (lp : Fin 256) (hpa : Nat) (tag : BitVec 16) (data : Line) (poison : Bool) (s : State) :
    Host.Outcome State Fault Refusal :=
  run s (fun m => m.memWrite lp hpa tag.toNat data poison)
/-- MEMWRPTL. -/
def execMemWrPtl (lp : Fin 256) (hpa : Nat) (tag : BitVec 16) (data : Line) (be : Dword) (poison : Bool) (s : State) :
    Host.Outcome State Fault Refusal :=
  run s (fun m => m.memPartial lp hpa tag.toNat data be poison)
/-- M2S_PROTOCOL_ERROR (R48): reported through AER, the message discarded. -/
def execM2sProtocolError (lp : Fin 256) (s : State) : Host.Outcome State Fault Refusal :=
  run s (fun m => if (m.port (lp / 16)).link = .l0 then (m.setAux lp (fun a => { a with proto := a.proto + 1 })).emit (.aer lp) else m)
/-- DEADLINE_POISON of an outstanding request: its decision 20 ns before the deadline, and the deadline, pass. -/
def execDeadlinePoison (id : Nat) (s : State) : Host.Outcome State Fault Refusal :=
  run s (fun m => match m.reqById id with
    | some r => m.passUntil r.deadline
    | none => m)
/-- SYNC_ACK_LATE: 20 ns before the deadline of a Sync write whose ACK has not come (R224). -/
def execSyncAckLate (id : Nat) (s : State) : Host.Outcome State Fault Refusal :=
  run s (fun m => match m.reqById id with
    | some r => if r.waitMsn.isSome then m.passUntil (r.deadline - 20) else m
    | none => m)
/-- GPF_PHASE1. -/
def execGpfPhase1 (port : Fin 16) (s : State) : Host.Outcome State Fault Refusal :=
  run s (fun m => if (m.port port).link = .l0 then m.emit (.gpfDone port 1) else m)
/-- GPF_PHASE2. -/
def execGpfPhase2 (port : Fin 16) (s : State) : Host.Outcome State Fault Refusal := run s (fun m => m.gpf2 port)
/-- GPF_PHASE2_CLEANED. -/
def execGpfPhase2Cleaned (port : Fin 16) (s : State) : Host.Outcome State Fault Refusal := run s (fun m => m.gpfCleaned port)

end Sys2Proof.Machine
end

