-- ==== Sys2Proof/Machine/Advert.lean ====
section
/-!
DEFINITION. What the module advertises or fixes and no command changes (R35, R41, R42, R56, R59, R446, R448, R449): the feature table, the
functions and their BARs, the advertised times and sizes, the contacts of the connector.
-/

namespace Sys2Proof.Machine

/-! ### Features (R35) -/

/-- Every feature that R35's table names. -/
inductive Feature where
  | cxlIo | cxlMem | cxlCache
  | type3Mld | singleLd | type1 | type2
  | flit256 | flit68 | flitLatencyOptimised
  | hdmHPersistent | hdmD | hdmDb | backInvalidate | deviceCoherentSharing
  | staticPersistent | dcRegion0 | sharedReadOnlyExtents | volatileCapacity | dcRegions1to7
  | interleave1248 | interleave3612
  | aer | poisonInData | viral | ecrc | doeIntegrity | ide
  | gpf | dirtyShutdownCount | otherPersistentFlush
  | aspmL1 | l0s | l0p | l1Substates
  | functionPerLd | ari | srIov | ats | pasid | pri | multipleFunctionsPerLd
  | pmPassphrase | tsp
  | devLoadTelemetry | fmQosControls | hostBandwidthPartitioning
  deriving DecidableEq, Repr

/-- What a capability structure reports of a feature: present in R35's column Supported, absent in its column Not supported. -/
def Feature.present : Feature → Bool
  | .cxlIo | .cxlMem | .type3Mld | .flit256 | .hdmHPersistent | .staticPersistent | .dcRegion0 | .sharedReadOnlyExtents
  | .interleave1248 | .aer | .poisonInData | .viral | .gpf | .dirtyShutdownCount | .aspmL1 | .functionPerLd | .ari
  | .devLoadTelemetry | .fmQosControls => true
  | .cxlCache | .singleLd | .type1 | .type2 | .flit68 | .flitLatencyOptimised | .hdmD | .hdmDb | .backInvalidate
  | .deviceCoherentSharing | .volatileCapacity | .dcRegions1to7 | .interleave3612 | .ecrc | .doeIntegrity | .ide
  | .otherPersistentFlush | .l0s | .l0p | .l1Substates | .srIov | .ats | .pasid | .pri | .multipleFunctionsPerLd
  | .pmPassphrase | .tsp | .hostBandwidthPartitioning => false

/-- Whether a feature is in force once `asked` tells what was asked for: an attempt to enable an absent one has no effect (R35). -/
def Feature.inForce (f : Feature) (asked : Bool) : Bool := asked && f.present

/-! ### Functions (R42) -/

/-- A base address register of a function: its number, its size in bytes; every one of them is of 64 bits. -/
structure Bar where
  bar : Nat
  size : Nat
  deriving DecidableEq, Repr

def barKib : Nat := 1024
/-- Each LD 0–15 presents one endpoint function with this BAR: component registers (HDM decoders, RAS), device registers, mailbox. -/
def ldBars : List Bar := [{ bar := 0, size := 128 * barKib }]
/-- The FM-owned LD of the control port: the module register window, and the mailbox for vendor commands. -/
def fmldBars : List Bar := [{ bar := 0, size := 2048 * barKib }, { bar := 2, size := 128 * barKib }]

/-! ### Times and sizes -/

/-- The advertised L1 exit latency, in ns (R41). -/
def l1ExitLatency : Nat := 8000
/-- The advertised durations of GPF phases 1 and 2, in ns (R56). -/
def gpfPhase1Time : Nat := 1000
def gpfPhase2Time : Nat := 200000000
/-- The payload size that every mailbox advertises, in bytes (R59). -/
def mboxPayload : Nat := 8192

/-! ### The connector (R446, R448, R449) -/

/-- A contact of segments H0–H7 and T: ground, or one wire of a pair of a lane; the module transmits on TX. -/
inductive LaneWire where
  | gnd | txp | txn | rxp | rxn
  deriving DecidableEq, Repr
/-- Rows A to F, numbered from 0. -/
def laneWire (row : Nat) : LaneWire := match row with | 0 => .txp | 1 => .txn | 3 => .rxp | 4 => .rxn | _ => .gnd
/-- Port and lane of column `col` (from 1) of segment H`k`: port 2k in columns 1–16, port 2k + 1 in columns 17–32. -/
def laneOfH (k col : Nat) : Nat × Nat := (2 * k + (col - 1) / 16, (col - 1) % 16)
/-- Lane of column `col` of segment T, the Twin Link. -/
def laneOfT (col : Nat) : Nat := (col - 1) % 16
/-- Contacts of the connector: the blades, segment S, segments H0–H7, segment T. -/
def contactCount : Nat := 8 + 4 * 12 + 8 * (6 * 32) + 6 * 16

/-- Signals of segment S. -/
inductive Sideband where
  | gnd | refclkP | refclkN | perst (port : Nat) | slotId (i : Nat) | present | alert | pwrfail
  | scl | sda | hbOut | hbIn | aux (i : Nat) | tck | tms | tdi | tdo | trst
  deriving DecidableEq, Repr
/-- The signal at column `col` (from 1) of row A to D (from 0) of segment S. -/
def sideband (col row : Nat) : Sideband :=
  match col, row with
  | 1, 0 => .refclkP | 1, 1 => .refclkN
  | 2, r => .perst r | 3, r => .perst (4 + r) | 4, r => .perst (8 + r) | 5, r => .perst (12 + r)
  | 6, r => .slotId r
  | 7, 0 => .slotId 4 | 7, 1 => .present | 7, 2 => .alert | 7, 3 => .pwrfail
  | 8, 0 => .scl | 8, 1 => .sda | 9, 0 => .hbOut | 9, 1 => .hbIn
  | 10, r => .aux r
  | 11, 0 => .tck | 11, 1 => .tms | 11, 2 => .tdi | 11, 3 => .tdo
  | 12, 0 => .trst | _, _ => .gnd
/-- Pins of the IO18 domain, which are unpowered in M4 and whenever the LINK group is off; the others are of the AON domain. -/
def Sideband.io18 : Sideband → Bool
  | .refclkP | .refclkN | .perst _ | .aux _ => true
  | _ => false

end Sys2Proof.Machine
end

