-- ==== Sys2Proof/Machine/MboxOps.lean ====
section
/-!
DEFINITION. The CXL mailboxes and the component command interface over MCTP (R55, R57–R68, R442): who may send a command, when it
is answered, and what the answers hold.
-/

namespace Sys2Proof.Machine

/-! ### Which mailbox (R59, R60, R442) -/

/-- A host LD's mailbox; an FM-owned LD's; that of the control port. -/
def isLd (b : Mbox) : Bool := match b with | .ld _ => true | _ => false
def isFm (b : Mbox) : Bool := match b with | .fmld _ => true | _ => false
def isMctp (b : Mbox) : Bool := match b with | .mctp => true | _ => false
def Mod.isCtl (m : Mod) (b : Mbox) : Bool := match b with | .fmld p => p.val = m.path.ctlPort | _ => false
/-- Index of the LD behind a mailbox: LPs 0–255, FM-owned LDs from 256. -/
def mboxLd (b : Mbox) : Nat := match b with | .ld l => l.val | .fmld p => 256 + p.val | .mctp => 512
/-- FQ for the control port, MQ over MCTP (R240); and the master of its register accesses (R291). -/
def mboxQueue (b : Mbox) : Nat := match b with | .mctp => 0 | _ => 1
/-- The mailbox exists now: its port's link is in L0, or AON runs. -/
def Mod.mboxUp (m : Mod) (b : Mbox) : Bool :=
  match b with
  | .ld l => (m.port (l.val / 16)).link = .l0
  | .fmld p => (m.port p.val).link = .l0
  | .mctp => !m.pwr.aonReset

/-- When a command is answered: always, from b_r on, or from PHASE 4 on. -/
inductive When where
  | early | ready | phase4
  deriving DecidableEq, Repr

def Mod.mboxBusy (m : Mod) (w : When) : Bool :=
  match w with
  | .early => false
  | .ready => !m.fore.ready
  | .phase4 => !m.fore.ready || m.pwr.phase < 4

/-- Answer a command: 0 Success, 2 Invalid Input, 3 Unsupported, 6 Busy (R60). -/
def Mod.reply (m : Mod) (b : Mbox) (rc : Nat) (out : List Fld) : Mod := m.emit (.mailbox b rc out)
def Mod.invalid (m : Mod) (b : Mbox) : Mod := m.reply b 2 []
/-- Invalid Input of a vendor command: the detail byte is the number of the input field that is out of range, the first field being 1.
Log entry 91 (DESIGN CHOICE). -/
def Mod.badField (m : Mod) (b : Mbox) (field : Nat) : Mod := m.reply b 2 [⟨1, field⟩]
/-- Success with a list that one payload (R59) may not hold: a payload for each `per` records, each with a header that says whether
more follow and how many it holds. Log entry 90 (DESIGN CHOICE). -/
def Mod.replyParts (m : Mod) (b : Mbox) (per : Nat) (head : Bool → Nat → List Fld) (recs : List (List Fld)) : Mod :=
  let n := max 1 ((recs.length + per - 1) / per)
  (List.range n).foldl (fun m i =>
    let part := (recs.drop (per * i)).take per
    m.reply b 0 (head (i + 1 < n) part.length ++ part.flatten)) m

/-- A command on a mailbox: none without a link; Unsupported where it is not offered; Busy before its time. -/
def Mod.mbox (m : Mod) (b : Mbox) (offered : Bool) (w : When) (f : Mod → Mod) : Mod :=
  if !m.mboxUp b then m
  else if !offered then m.reply b 3 []
  else if m.mboxBusy w then m.reply b 6 []
  else f m

/-- The port of an FM command: its own port's, any port's on the control port. -/
def Mod.fmPort (m : Mod) (b : Mbox) (p : Nat) : Bool := m.isCtl b || (match b with | .fmld q => q.val = p | _ => false)

/-! ### Events (R58, R311, R427) -/

/-- The log a mailbox reads. -/
def logIx : LogKind → Nat | .info => 0 | .warning => 1 | .failure => 2 | .fatal => 3
def mboxLog (b : Mbox) (k : LogKind) : Nat :=
  match b with | .ld l => logHost l.val (logIx k) | .fmld p => logFm p.val (logIx k) | .mctp => logMgmt

/-- Lanidric's record UUID as one number, most significant digit first. -/
def vendorUuid : Nat := 0x5c1e72564b4c4e719a0300000000e5c0
/-- A record as Get Event Records returns it (R427); the layouts of the specification's own types are open values. -/
def EvRec.flds (r : EvRec) : List Fld :=
  if r.kind = 0 then
    [⟨16, vendorUuid⟩, ⟨2, r.handle⟩, ⟨8, r.time⟩, ⟨2, r.src⟩, ⟨1, r.bits⟩, ⟨1, 0⟩, ⟨4, r.count⟩, ⟨8, r.data⟩, ⟨8, r.tally⟩, ⟨56, 0⟩]
  else [⟨16, Config.cxlField 0x0100 r.kind⟩, ⟨2, r.handle⟩, ⟨8, r.time⟩, ⟨80, r.data⟩]

/-- An 8 KiB payload takes 63 records. Reading a log to its end leaves no unread record (R312). -/
def Mod.evGet (m : Mod) (b : Mbox) (k : LogKind) : Mod :=
  let l := m.evLog (mboxLog b k)
  let n := min 63 l.recs.length
  let m := if isMctp b && l.recs.length ≤ 63 then { m with host := { m.host with mgmtUnread := false } } else m
  m.reply b 0 ([⟨1, l.ovf.toNat + 2 * (decide (63 < l.recs.length)).toNat⟩, ⟨2, l.overCount⟩, ⟨8, l.overFirst⟩, ⟨8, l.overLast⟩, ⟨2, n⟩] ++
    (l.recs.take 63).flatMap EvRec.flds)

/-- Clear records by handle or all; an emptied log loses its overflow indication. Log entry 33 (DESIGN CHOICE). -/
def Mod.evClear (m : Mod) (b : Mbox) (k : LogKind) (all : Bool) (hs : List Nat) : Mod :=
  let i := mboxLog b k
  let l := m.evLog i
  if !all && hs.any (fun h => !l.recs.any (fun r => r.handle = h)) then m.invalid b
  else
    let recs := if all then [] else l.recs.filter (fun r => !hs.contains r.handle)
    let l' : EvLog := if recs.isEmpty then { next := l.next } else { l with recs := recs }
    ({ m with host := { m.host with logs := tput {} m.host.logs i l' } }).reply b 0 []

/-! ### Capacity (R45, R53) -/

def gib : Nat := 0x40000000
/-- Identify Memory Device: total, volatile-only, persistent, in bytes; the FM-owned LD reports the module. -/
def Mod.capacity (m : Mod) (b : Mbox) : List Fld :=
  match b with
  | .ld l => let x := m.lp l.val; [⟨8, (x.static + x.dcLen) * gib⟩, ⟨8, 0⟩, ⟨8, x.static * gib⟩]
  | _ => [⟨8, 16384 * gib⟩, ⟨8, 0⟩, ⟨8, 16384 * gib⟩]
/-- Get Partition Info: volatile, persistent. -/
def Mod.partition (m : Mod) (b : Mbox) : List Fld := (m.capacity b).drop 1

/-- Get DC Config and Get DC Region Config: base, length, block size in bytes, extents held and free. -/
def Mod.dcRegion (m : Mod) (l : Nat) : List Fld :=
  let x := m.lp l
  [⟨8, x.static * gib⟩, ⟨8, x.dcLen * gib⟩, ⟨8, gib⟩, ⟨2, (m.extents l).length⟩, ⟨2, 512 - (m.extents l).length⟩]
/-- Get DC Extent List: more follow, extents in this payload, the extents; 511 of them to a payload. -/
def Mod.dcList (m : Mod) (b : Mbox) (l : Nat) : Mod :=
  m.replyParts b 511 (fun more n => [⟨1, more.toNat⟩, ⟨2, n⟩]) ((m.extents l).map (fun e => [⟨8, e.dpa * gib⟩, ⟨8, e.count * gib⟩]))

/-- May the extent be offered (R45, R53, R217, R305)? It can be held now, and no offer or accepted extent stands against it. -/
def Mod.extentOk (m : Mod) (l : Nat) (x : Extent) : Bool :=
  let y := m.lp l
  let shared : Bool := match m.regionOf x.dev with | none => false | some r => rShared (m.rw0 r)
  m.extentLies l x && (m.extents l).length + y.offers.length + y.dcAdd.length < 512 &&
    !(y.offers ++ y.dcAdd).any (fun e => overlaps x.dpa x.count e.dpa e.count || overlaps x.dev x.count e.dev e.count) &&
    (shared || !(List.range 256).any (fun q => q != l &&
      ((m.lp q).offers ++ (m.lp q).dcAdd).any (fun e => overlaps x.dev x.count e.dev e.count)))

def Mod.dcOffer (m : Mod) (b : Mbox) (l : Nat) (x : Extent) : Mod :=
  if m.extentOk l x then
    ((m.setLp l (fun y => { y with offers := y.offers ++ [x] })).ldRec l 0 3 x.dpa).reply b 0 []
  else m.invalid b

/-- The host's answer to an offer. An extent that can no longer be held (the regions, the maps or the DC region changed since) is not
accepted: Invalid Input, and it returns to the FM's pool. Log entry 88 (DESIGN CHOICE). -/
def Mod.dcAnswer (m : Mod) (b : Mbox) (dpa : Nat) (accept : Bool) : Mod :=
  let l := mboxLd b
  match (m.lp l).offers.find? (fun x => x.dpa = dpa) with
  | none => m.invalid b
  | some x =>
    let lies := m.extentLies l x
    let m := m.setLp l (fun y => { y with offers := y.offers.filter (fun z => z.dpa != dpa),
                                          dcAdd := if accept && lies then y.dcAdd ++ [x] else y.dcAdd })
    if accept && !lies then m.invalid b else m.reply b 0 []

def Mod.holdsExtent (m : Mod) (l dpa : Nat) : Bool := (m.extents l).any (fun e => e.dpa = dpa) && !(m.lp l).dcDel.contains dpa
/-- A release takes effect at the next boundary; one that the host did not make informs it (R53). -/
def Mod.dcRelease (m : Mod) (b : Mbox) (l dpa : Nat) (forced : Bool) : Mod :=
  if m.holdsExtent l dpa then
    let m := m.setLp l (fun y => { y with dcDel := y.dcDel ++ [dpa] })
    (if forced then m.ldRec l 0 3 dpa else m).reply b 0 []
  else m.invalid b
/-- The FM asks the host to release: a record, nothing else. -/
def Mod.dcAsk (m : Mod) (b : Mbox) (l dpa : Nat) : Mod :=
  if m.holdsExtent l dpa then (m.ldRec l 0 3 dpa).reply b 0 [] else m.invalid b

/-- One LD's new allocation is allowed: its ranges, its extents, its static runs (R45, R305). An extent that is offered, or accepted but
not yet applied, counts as one it holds. Log entry 92 (DESIGN CHOICE). -/
def Mod.allocOk (m : Mod) (l a d : Nat) : Bool :=
  let ext := (m.extents l).map (fun e => (e.dpa, e.count)) ++ ((m.lp l).offers ++ (m.lp l).dcAdd).map (fun e => (e.dpa, e.count))
  a + d ≤ 16384 && ext.all (fun e => a ≤ e.1 && e.1 + e.2 ≤ a + d) && (m.ldEnts l).all (fun e => 64 ≤ e.e || e.dpa + e.count ≤ a)
def Mod.setAlloc (m : Mod) (l a d : Nat) : Mod :=
  { m.setLp l (fun x => { x with static := a, dcLen := d }) with nv2 := { m.nv2 with lpAlloc := tput (0, 0) m.nv2.lpAlloc l (a, d) } }
/-- Set LD Allocations: all ranges, or none. -/
def Mod.allocate (m : Mod) (b : Mbox) (p first : Nat) (rs : List (Nat × Nat)) : Mod :=
  let l0 := 16 * p + first
  if first + rs.length ≤ 16 && rs.zipIdx.all (fun x => m.allocOk (l0 + x.2) x.1.1 x.1.2) then
    (rs.zipIdx.foldl (fun m x => m.setAlloc (l0 + x.2) x.1.1 x.1.2) m).reply b 0 []
  else m.invalid b
/-- Get LD Allocations: the granularity and each LD's two ranges in granules. -/
def Mod.allocations (m : Mod) (p : Nat) : List Fld :=
  [⟨8, gib⟩, ⟨1, 16⟩] ++ (List.range 16).flatMap (fun d => [⟨8, (m.lp (16 * p + d)).static⟩, ⟨8, (m.lp (16 * p + d)).dcLen⟩])

/-! ### Poison (R54, R55) -/

/-- Poisoned lines of LP `l` in a DPA range of lines, in DPA order, with whether their source is external. -/
def Mod.poisonIn (m : Mod) (l lo n : Nat) : List (Nat × Bool) :=
  let all : List (Nat × Bool) := m.hop.poison.flatMap (fun e =>
    (List.range 64).filterMap (fun j => if e.2.mask.getLsbD j then
      (m.devToDpa l (64 * e.1 + j)).map (fun d => (d, e.2.ext.getLsbD j)) else none))
  (all.filter (fun x => lo ≤ x.1 && x.1 < lo + n)).mergeSort (fun a b => a.1 ≤ b.1)
/-- Get Poison List: flags (bit 0 overflow: more than 4,096 lines; bit 1 more payloads follow), lines in this payload, then each
line's DPA and source, 1 external or 2 internal; 909 lines to a payload. -/
def Mod.poisonList (m : Mod) (b : Mbox) (dpa len : Nat) : Mod :=
  let x := m.poisonIn (mboxLd b) (dpa / 64) len
  m.replyParts b 909 (fun more n => [⟨1, (decide (4096 < x.length)).toNat + 2 * more.toNat⟩, ⟨2, n⟩])
    ((x.take 4096).map (fun e => [⟨8, 64 * e.1⟩, ⟨1, if e.2 then 1 else 2⟩]))

/-- The device line of an LP's DPA. -/
def Mod.dpaLine (m : Mod) (l dpa : Nat) : Option Nat := (m.dpaGran l (dpa / gib)).map (fun g => g * 16777216 + dpa % gib / 64)
/-- PW_LDCTL.POISONINJ of the LP. -/
def Mod.injectOn (m : Mod) (b : Mbox) : Bool := bit (m.w (mboxLd b) 0x10048) 0

/-- Clear Poison: a full-line write of the supplied data; Busy, and nothing written, while the write finds no place in the hopper or no
key to write under. Log entry 93 (DESIGN CHOICE). -/
def Mod.poisonClear (m : Mod) (b : Mbox) (dpa : Nat) (d : Line) : Mod :=
  let l := mboxLd b
  match m.dpaLine l dpa with
  | none => m.invalid b
  | some n =>
    let reg := m.regionOfPage (n / 64)
    match m.writeBar reg (m.secOf reg), m.keyFor reg n with
    | some why, _ => (m.countDiscard l reg why).reply b 0 []
    | none, none => m.reply b 6 []
    | none, some k =>
      let c := m.seal reg n k d
      match m.place (n / 64) (n % 64) c false (m.tagged reg) with
      | none => m.reply b 6 []
      | some m =>
        let x := (m.unmark n).mirror reg n k.gen c.ct false (rMirror (m.rw0 reg) = 1) (m.tagged reg) none none
        ((x.2.dropMerge n x.1).supersede n x.2.host.nextReq).reply b 0 []

/-! ### Firmware (R435, R436) -/

def Mod.fwVersion (m : Mod) (n : Nat) : Word := tget (Config.fwVersion n) m.nv2.fwVer n
def Mod.fwInfo (m : Mod) : List Fld :=
  [⟨1, 3⟩, ⟨1, m.nv2.fwRun⟩, ⟨1, m.nv2.fwNext⟩] ++ (List.range 3).map (fun n => ⟨4, (m.fwVersion n).toNat⟩)
def Mod.fwTransfer (m : Mod) (b : Mbox) (n : Nat) (v : Word) (valid : Bool) : Mod :=
  if n = 2 || n = m.nv2.fwRun then m.invalid b
  else
    let bad := m.nv2.fwBad.filter (· != n)
    ({ m with nv2 := { m.nv2 with fwVer := tput (Config.fwVersion n) m.nv2.fwVer n v, fwBad := if valid then bad else bad ++ [n] } }).reply b 0 []
/-- Offline activation of a slot that verifies; anything else is refused and raises ESRC 567. Log entry 29 (DESIGN CHOICE). -/
def Mod.fwActivate (m : Mod) (b : Mbox) (n : Nat) (online : Bool) : Mod :=
  if online || m.nv2.fwBad.contains n then (m.bump cFw).invalid b
  else (({ m with nv2 := { m.nv2 with fwNext := n } }).seedWrite (.module_ 1)).reply b 0 []

/-! ### Vendor commands (R61–R68) -/

def Mod.submitCmd (m : Mod) (b : Mbox) (entry steps : Nat) (ws : List Word) (upset : Bool) : Mod :=
  let q := mboxQueue b
  let m := (if upset then m.queueUpset q else m).queueCheck q
  if 10000000 < steps then m.badField b 2
  else if ws.length = 0 || 2044 < ws.length then m.badField b 3
  else match m.submit q entry steps ws with
    | some r => r.2.reply b 0 [⟨4, r.1⟩]
    | none => m.reply b 6 []

def Mod.resultCmd (m : Mod) (b : Mbox) (t : Nat) : Mod :=
  m.reply b 0 ((m.result (mboxQueue b) t).bytes.map (fun x => ⟨1, x.toNat⟩))

/-- Words read one after another as accesses of one path. -/
def Mod.readPlates (m : Mod) (b : Mbox) (first n : Nat) : Mod :=
  let x : Stalled := .plates b first n
  if n = 0 || 1024 < n then m.badField b 2
  else if 2 ^ 32 < first + n then m.badField b 1
  else if !m.stallOver (mboxWho b) x || !(m.pathQ (mboxWho b)).wait.isEmpty then m.stall (mboxWho b) x
  else m.readPlatesNow b first n

/-- A link is down while its port trains or does not train; in L1 and in Recovery it is not. -/
def LinkState.isDown (l : LinkState) : Bool := match l with | .down | .training => true | _ => false
/-- 0xC003 (R64). -/
def Mod.setCtl (m : Mod) (b : Mbox) (p : Nat) : Mod :=
  if p < 16 && !(m.port p).link.isDown then ({ m with path := { m.path with ctlNext := some p } }).reply b 0 [] else m.badField b 1

/-- 0xC004 (R65). A refusal names the epoch where the epoch is at fault or the sideband is live, else the regions. -/
def Mod.takeoverCmd (m : Mod) (b : Mbox) (epoch first count : Nat) : Mod :=
  if m.takeoverOk epoch first count then (m.takeoverStart epoch first count).reply b 0 []
  else m.badField b (if epoch != m.nv.epoch || m.tx.sbLive || m.tx.takeover.isSome then 1 else if first + count ≤ 4096 then 2 else 3)

/-- 0xC100 (R66). -/
def Mod.classStatus (m : Mod) (l : Nat) : List Fld :=
  let add := m.linkAdd l
  let w := m.tab (0xD8000 + 2 * l)
  let x := m.lp l
  let part := fun (c : Cls) (lo out : Nat) => [(⟨2, bits w (lo + 7) lo⟩ : Fld), ⟨2, out⟩, ⟨4, baseBound c .read true + add⟩,
    ⟨4, baseBound c .write true + add⟩, ⟨4, 0⟩]
  [⟨2, l⟩, ⟨2, 0⟩, ⟨4, add⟩] ++ part .tight 0 x.outT ++ part .standard 8 x.outS ++ part .bulk 16 x.outB ++
    [⟨8, (m.occ (cDem l)).cnt⟩, ⟨8, (m.occ (cDpo l)).cnt⟩]

/-- Mapped granules of an LP from `first` on, in DPA order: DPA granule, device granule, whether a DC extent's. -/
def Mod.granulesOf (m : Mod) (l first : Nat) : List (Nat × Nat × Bool) :=
  let all : List (Nat × Nat × Bool) := (m.ldEnts l).flatMap (fun e => (List.range e.count).map (fun i => (e.dpa + i, e.dev + i, decide (64 ≤ e.e))))
  (all.filter (fun x => first ≤ x.1)).mergeSort (fun a b => a.1 ≤ b.1)
def Mod.granuleRec (m : Mod) (x : Nat × Nat × Bool) : List Fld :=
  let r := (m.regionOf x.2.1).getD 0
  let w := m.rw0 r
  let seam := (m.crec r).seam
  let add := fun (op : ReqOp) => featureAdd .tight op true (rTags w) seam (rMirror w = 1)
  [⟨4, x.1⟩, ⟨2, r⟩, ⟨1, rClass w⟩,
   ⟨1, rMirror w + 4 * (rTags w).toNat + 8 * (rShared w).toNat + 16 * seam.toNat + 32 * x.2.2.toNat⟩,
   ⟨1, m.secOf r⟩, ⟨2, add .read⟩, ⟨2, add .write⟩, ⟨3, 0⟩]
/-- 0xC101 (R67). -/
def Mod.regionMap (m : Mod) (l first : Nat) : List Fld :=
  let g := m.granulesOf l first
  [⟨2, min 256 g.length⟩, ⟨1, (decide (256 < g.length)).toNat⟩, ⟨5, 0⟩] ++ (g.take 256).flatMap m.granuleRec

/-- 0xC102 (R68). Log entry 35 (DEDUCED). -/
def Mod.persistStatus (m : Mod) : List Fld :=
  [⟨4, (m.per.tested && !m.per.testFailed).toNat + 2 * (decide (m.budget ≠ 0)).toNat + 4 * m.suspectStart.toNat + 8 * m.upk.rmostly.toNat +
      16 * m.upk.ronly.toNat + 32 * (decide (m.twin.pair = .paired)).toNat + 64 * (decide (m.twin.pair = .broken)).toNat⟩,
   ⟨8, m.budget⟩, ⟨8, m.dt⟩, ⟨2, m.endurUsed⟩, ⟨10, 0⟩]

/-! ### The management path's register commands (R291) -/

def windowRange (first n : Nat) : Bool := first % 4 = 0 && 1 ≤ n && n ≤ 256 && first + 4 * n ≤ 0x200000
/-- The field at fault in a range that is not one: the count, or the first offset. -/
def windowField (first n : Nat) : Nat := if n = 0 || 256 < n then 2 else if first % 4 = 0 && first + 4 * n ≤ 0x200000 then 0 else 1
/-- 0xC010; the reads wait while earlier writes of the path to their blocks are queued (R298). -/
def Mod.readRegsCmd (m : Mod) (first n : Nat) : Mod :=
  if !windowRange first n then m.badField .mctp (windowField first n)
  else if (List.range n).any (fun i => m.readWaits 1 (first + 4 * i)) || !(m.pathQ 1).wait.isEmpty then m.stall 1 (.regs first n)
  else m.readRegsNow first n
def Mod.writeRegs (m : Mod) : Nat → List Word → Mod
  | _, [] => m
  | off, v :: t => (m.pathWrite .mgmt off v true).writeRegs (off + 4) t
/-- 0xC011: every word is queued, or none. -/
def Mod.writeRegsCmd (m : Mod) (first : Nat) (vs : List Word) : Mod :=
  if !windowRange first vs.length then m.badField .mctp (windowField first vs.length)
  else if 64 - (m.pathQ 1).q.length < vs.length then m.reply .mctp 6 []
  else (m.writeRegs first vs).reply .mctp 0 []

/-- The Alert Response Address (R312, R450). Log entry 60 (DEDUCED). -/
def Mod.alertResponse (m : Mod) : Mod :=
  if m.evt.alert then ({ m with evt := { m.evt with alert := false, released := true } }).emit (.araAddress (0x40 + m.path.slotId)) else m

end Sys2Proof.Machine
end

