-- ==== Sys2Proof/Machine/Mailbox.lean ====
section
/-!
DEFINITION. Mailbox and management-port commands (R55, R57–R68, R291, R312): one meaning per command. R59's table says
which mailbox offers which command.
-/

namespace Sys2Proof.Machine

/-- GET_EVENT_RECORDS. -/
def execGetEventRecords (m : Mbox) (log : LogKind) (s : State) : Host.Outcome State Fault Refusal :=
  run s (fun x => x.mbox m true (if isMctp m then .early else .ready) (fun x => x.evGet m log))
/-- CLEAR_EVENT_RECORDS. -/
def execClearEventRecords (m : Mbox) (log : LogKind) (all : Bool) (handles : List Nat) (s : State) : Host.Outcome State Fault Refusal :=
  run s (fun x => x.mbox m true (if isMctp m then .early else .ready) (fun x => x.evClear m log all handles))
/-- GET_EVENT_INTERRUPT_POLICY. -/
def execGetEventInterruptPolicy (m : Mbox) (s : State) : Host.Outcome State Fault Refusal :=
  run s (fun x => x.mbox m (!isMctp m) .ready (fun x => x.reply m 0 [⟨4, (x.lp (mboxLd m)).evPolicy.toNat⟩]))
/-- SET_EVENT_INTERRUPT_POLICY. -/
def execSetEventInterruptPolicy (m : Mbox) (policy : BitVec 32) (s : State) : Host.Outcome State Fault Refusal :=
  run s (fun x => x.mbox m (!isMctp m) .ready (fun x => (x.setLp (mboxLd m) (fun l => { l with evPolicy := policy })).reply m 0 []))
/-- GET_TIMESTAMP. -/
def execGetTimestamp (m : Mbox) (s : State) : Host.Outcome State Fault Refusal :=
  run s (fun x => x.mbox m (!isMctp m) .early (fun x => x.reply m 0 [⟨8, x.cxlTime⟩]))
/-- SET_TIMESTAMP. -/
def execSetTimestamp (m : Mbox) (ts : Nat) (s : State) : Host.Outcome State Fault Refusal :=
  run s (fun x => x.mbox m (isFm m) .early (fun x =>
    ({ x with time := { x.time with stampBase := ts, stampAt := x.time.dtc } }).reply m 0 []))
/-- GET_SUPPORTED_LOGS: the command effects log and the vendor log; their identifiers are the specification's. -/
def execGetSupportedLogs (m : Mbox) (s : State) : Host.Outcome State Fault Refusal :=
  run s (fun x => x.mbox m (isLd m || x.isCtl m) .early (fun x =>
    x.reply m 0 [⟨2, 2⟩, ⟨16, Config.cxlField 0x0400 0⟩, ⟨16, Config.cxlField 0x0400 1⟩]))
/-- GET_LOG: the bytes asked for, at most one payload (R59); their content is an open value. Log entry 90 (DESIGN CHOICE). -/
def execGetLog (m : Mbox) (vendor : Bool) (offset len : Nat) (s : State) : Host.Outcome State Fault Refusal :=
  run s (fun x => x.mbox m (isLd m || x.isCtl m) .early (fun x =>
    if mboxPayload < len then x.invalid m else x.reply m 0 [⟨len, Config.cxlField (0x0401 + 0x10000 * vendor.toNat) offset⟩]))
/-- IDENTIFY_MEMORY_DEVICE. -/
def execIdentifyMemoryDevice (m : Mbox) (s : State) : Host.Outcome State Fault Refusal :=
  run s (fun x => x.mbox m (isLd m || x.isCtl m) .ready (fun x => x.reply m 0 (x.capacity m)))
/-- GET_PARTITION_INFO. -/
def execGetPartitionInfo (m : Mbox) (s : State) : Host.Outcome State Fault Refusal :=
  run s (fun x => x.mbox m (isLd m || x.isCtl m) .ready (fun x => x.reply m 0 (x.partition m)))
/-- GET_HEALTH_INFO: health status (the specification's), life used in percent (R163), dirty shutdown count (R57). -/
def execGetHealthInfo (m : Mbox) (s : State) : Host.Outcome State Fault Refusal :=
  run s (fun x => x.mbox m (isLd m || x.isCtl m) .phase4 (fun x =>
    x.reply m 0 [⟨1, Config.cxlField 0x4200 0⟩, ⟨1, min 100 (x.endurUsed / 100)⟩, ⟨4, x.nv.dsc⟩]))
/-- GET_ALERT_CONFIGURATION. -/
def execGetAlertConfiguration (m : Mbox) (s : State) : Host.Outcome State Fault Refusal :=
  run s (fun x => x.mbox m (isLd m || x.isCtl m) .ready (fun x => x.reply m 0 [⟨12, (x.lp (mboxLd m)).alertCfg.toNat⟩]))
/-- SET_ALERT_CONFIGURATION. -/
def execSetAlertConfiguration (m : Mbox) (v : BitVec 96) (s : State) : Host.Outcome State Fault Refusal :=
  run s (fun x => x.mbox m (isLd m || x.isCtl m) .ready (fun x => (x.setLp (mboxLd m) (fun l => { l with alertCfg := v })).reply m 0 []))
/-- GET_SHUTDOWN_STATE. -/
def execGetShutdownState (m : Mbox) (s : State) : Host.Outcome State Fault Refusal :=
  run s (fun x => x.mbox m (isLd m || x.isCtl m) .ready (fun x => x.reply m 0 [⟨1, (x.lp (mboxLd m)).shutDirty.toNat⟩]))
/-- SET_SHUTDOWN_STATE: kept, and nothing else (R57). -/
def execSetShutdownState (m : Mbox) (dirty : Bool) (s : State) : Host.Outcome State Fault Refusal :=
  run s (fun x => x.mbox m (isLd m || x.isCtl m) .ready (fun x => (x.setLp (mboxLd m) (fun l => { l with shutDirty := dirty })).reply m 0 []))
/-- GET_POISON_LIST: the range's DPA in bytes and its length in lines. -/
def execGetPoisonList (m : Mbox) (dpa len : Nat) (s : State) : Host.Outcome State Fault Refusal :=
  run s (fun x => x.mbox m (isLd m) .phase4 (fun x => x.poisonList m dpa len))
/-- INJECT_POISON. -/
def execInjectPoison (m : Mbox) (dpa : Nat) (s : State) : Host.Outcome State Fault Refusal :=
  run s (fun x => x.mbox m (isLd m && x.injectOn m) .ready (fun x =>
    match x.dpaLine (mboxLd m) dpa with
    | none => x.invalid m
    | some n => (x.mark n true).reply m 0 []))
/-- CLEAR_POISON. -/
def execClearPoison (m : Mbox) (dpa : Nat) (data : Line) (s : State) : Host.Outcome State Fault Refusal :=
  run s (fun x => x.mbox m (isLd m && x.injectOn m) .ready (fun x => x.poisonClear m dpa data))
/-- GET_DC_CONFIG. -/
def execGetDcConfig (m : Mbox) (s : State) : Host.Outcome State Fault Refusal :=
  run s (fun x => x.mbox m (isLd m) .ready (fun x => x.reply m 0 (x.dcRegion (mboxLd m))))
/-- GET_DC_EXTENT_LIST: an LD's own, or any of the FM's port. -/
def execGetDcExtentList (m : Mbox) (lp : Fin 256) (s : State) : Host.Outcome State Fault Refusal :=
  run s (fun x => x.mbox m (isLd m || isFm m) .ready (fun x =>
    if isLd m then x.dcList m (mboxLd m)
    else if x.fmPort m (lp / 16) then x.dcList m lp else x.invalid m))
/-- ADD_DC_RESPONSE. -/
def execAddDcResponse (m : Mbox) (dpaGran : Nat) (accept : Bool) (s : State) : Host.Outcome State Fault Refusal :=
  run s (fun x => x.mbox m (isLd m) .ready (fun x => x.dcAnswer m dpaGran accept))
/-- RELEASE_DC. -/
def execReleaseDc (m : Mbox) (dpaGran : Nat) (s : State) : Host.Outcome State Fault Refusal :=
  run s (fun x => x.mbox m (isLd m) .ready (fun x => x.dcRelease m (mboxLd m) dpaGran false))
/-- GET_LD_INFO: memory size, LDs, and the specification's capability field. -/
def execGetLdInfo (m : Mbox) (s : State) : Host.Outcome State Fault Refusal :=
  run s (fun x => x.mbox m (isFm m) .ready (fun x => x.reply m 0 [⟨8, 16384 * gib⟩, ⟨2, 16⟩, ⟨1, Config.cxlField 0x5400 2⟩]))
/-- GET_LD_ALLOCATIONS. -/
def execGetLdAllocations (m : Mbox) (port : Fin 16) (s : State) : Host.Outcome State Fault Refusal :=
  run s (fun x => x.mbox m (isFm m) .ready (fun x => if x.fmPort m port then x.reply m 0 (x.allocations port) else x.invalid m))
/-- SET_LD_ALLOCATIONS. -/
def execSetLdAllocations (m : Mbox) (port first : Fin 16) (ranges : List (Nat × Nat)) (s : State) : Host.Outcome State Fault Refusal :=
  run s (fun x => x.mbox m (isFm m) .ready (fun x => if x.fmPort m port then x.allocate m port first ranges else x.invalid m))
/-- GET_QOS_CONTROL. -/
def execGetQosControl (m : Mbox) (port : Fin 16) (s : State) : Host.Outcome State Fault Refusal :=
  run s (fun x => x.mbox m (isFm m) .ready (fun x => if x.fmPort m port then x.reply m 0 [⟨8, (x.port port).qos.toNat⟩] else x.invalid m))
/-- SET_QOS_CONTROL. -/
def execSetQosControl (m : Mbox) (port : Fin 16) (v : BitVec 64) (s : State) : Host.Outcome State Fault Refusal :=
  run s (fun x => x.mbox m (isFm m) .ready (fun x =>
    if x.fmPort m port then (x.setPort port (fun p => { p with qos := v })).reply m 0 [] else x.invalid m))
/-- GET_QOS_STATUS: the specification's back-pressure field. -/
def execGetQosStatus (m : Mbox) (port : Fin 16) (s : State) : Host.Outcome State Fault Refusal :=
  run s (fun x => x.mbox m (isFm m) .ready (fun x =>
    if x.fmPort m port then x.reply m 0 [⟨1, Config.cxlField 0x5405 port⟩] else x.invalid m))
/-- GET_QOS_ALLOCATED_LIMIT_BW: each LD's allocated and limit fractions. -/
def execGetQosAllocatedLimitBw (m : Mbox) (port : Fin 16) (s : State) : Host.Outcome State Fault Refusal :=
  run s (fun x => x.mbox m (isFm m) .ready (fun x =>
    if x.fmPort m port then x.reply m 0 ((List.range 16).map (fun d => ⟨2, tget 0 (x.port port).qosBw d⟩)) else x.invalid m))
/-- SET_QOS_ALLOCATED_LIMIT_BW: fabric-side shaping only; allowances stay (R59). -/
def execSetQosAllocatedLimitBw (m : Mbox) (port first : Fin 16) (vals : List (BitVec 8 × BitVec 8)) (s : State) :
    Host.Outcome State Fault Refusal :=
  run s (fun x => x.mbox m (isFm m) .ready (fun x =>
    if x.fmPort m port && first + vals.length ≤ 16 then
      (x.setPort port (fun p => { p with qosBw := vals.zipIdx.foldl (fun t v =>
        tput 0 t (first + v.2) (v.1.1.toNat + 256 * v.1.2.toNat)) p.qosBw })).reply m 0 []
    else x.invalid m))
/-- GET_DC_REGION_CONFIG. -/
def execGetDcRegionConfig (m : Mbox) (lp : Fin 256) (s : State) : Host.Outcome State Fault Refusal :=
  run s (fun x => x.mbox m (isFm m) .ready (fun x => if x.fmPort m (lp / 16) then x.reply m 0 (x.dcRegion lp) else x.invalid m))
/-- INITIATE_DC_ADD. -/
def execInitiateDcAdd (m : Mbox) (lp : Fin 256) (dpaGran devGran count : Nat) (s : State) : Host.Outcome State Fault Refusal :=
  run s (fun x => x.mbox m (isFm m) .ready (fun x =>
    if x.fmPort m (lp / 16) then x.dcOffer m lp { dpa := dpaGran, dev := devGran, count := count } else x.invalid m))
/-- INITIATE_DC_RELEASE. -/
def execInitiateDcRelease (m : Mbox) (lp : Fin 256) (dpaGran : Nat) (s : State) : Host.Outcome State Fault Refusal :=
  run s (fun x => x.mbox m (isFm m) .ready (fun x => if x.fmPort m (lp / 16) then x.dcAsk m lp dpaGran else x.invalid m))
/-- FORCED_DC_RELEASE. -/
def execForcedDcRelease (m : Mbox) (lp : Fin 256) (dpaGran : Nat) (s : State) : Host.Outcome State Fault Refusal :=
  run s (fun x => x.mbox m (isFm m) .ready (fun x => if x.fmPort m (lp / 16) then x.dcRelease m lp dpaGran true else x.invalid m))
/-- GET_FW_INFO. -/
def execGetFwInfo (m : Mbox) (s : State) : Host.Outcome State Fault Refusal :=
  run s (fun x => x.mbox m (isLd m || x.isCtl m) .early (fun x => x.reply m 0 x.fwInfo))
/-- TRANSFER_FW. -/
def execTransferFw (m : Mbox) (slot : Fin 3) (version : Word) (valid : Bool) (s : State) : Host.Outcome State Fault Refusal :=
  run s (fun x => x.mbox m (x.isCtl m) .ready (fun x => x.fwTransfer m slot version valid))
/-- ACTIVATE_FW. -/
def execActivateFw (m : Mbox) (slot : Fin 3) (online : Bool) (s : State) : Host.Outcome State Fault Refusal :=
  run s (fun x => x.mbox m (x.isCtl m) .ready (fun x => x.fwActivate m slot online))
/-- SUBMIT_PROGRAM. -/
def execSubmitProgram (m : Mbox) (entry steps : Word) (words : List Word) (upset : Bool) (s : State) : Host.Outcome State Fault Refusal :=
  run s (fun x => x.mbox m (isMctp m || x.isCtl m) .ready (fun x => x.submitCmd m entry.toNat steps.toNat words upset))
/-- GET_PROGRAM_RESULT. -/
def execGetProgramResult (m : Mbox) (ticket : Word) (s : State) : Host.Outcome State Fault Refusal :=
  run s (fun x => x.mbox m (isMctp m || x.isCtl m) .ready (fun x => x.resultCmd m ticket.toNat))
/-- READ_PLATES. -/
def execReadPlates (m : Mbox) (first : Word) (count : Nat) (s : State) : Host.Outcome State Fault Refusal :=
  run s (fun x => x.mbox m (isMctp m || x.isCtl m) .ready (fun x => x.readPlates m first.toNat count))
/-- SET_CONTROL_PORT. -/
def execSetControlPort (m : Mbox) (port : Nat) (s : State) : Host.Outcome State Fault Refusal :=
  run s (fun x => x.mbox m (isMctp m || x.isCtl m) .ready (fun x => x.setCtl m port))
/-- TWIN_TAKEOVER. -/
def execTwinTakeover (m : Mbox) (epoch : Dword) (first count : Nat) (s : State) : Host.Outcome State Fault Refusal :=
  run s (fun x => x.mbox m (isMctp m || x.isCtl m) .ready (fun x => x.takeoverCmd m epoch.toNat first count))
/-- GET_CLASS_STATUS: an LP number above 255 is out of range (R60). -/
def execGetClassStatus (m : Mbox) (lp : Nat) (s : State) : Host.Outcome State Fault Refusal :=
  run s (fun x => x.mbox m (isLd m || x.isCtl m) .ready (fun x =>
    if isLd m then x.reply m 0 (x.classStatus (mboxLd m))
    else if 255 < lp then x.badField m 1 else x.reply m 0 (x.classStatus lp)))
/-- GET_LD_REGION_MAP. -/
def execGetLdRegionMap (m : Mbox) (lp first : Nat) (s : State) : Host.Outcome State Fault Refusal :=
  run s (fun x => x.mbox m (isLd m || x.isCtl m) .ready (fun x =>
    if isLd m then x.reply m 0 (x.regionMap (mboxLd m) first)
    else if 255 < lp then x.badField m 1 else x.reply m 0 (x.regionMap lp first)))
/-- GET_PERSISTENCE_STATUS. -/
def execGetPersistenceStatus (m : Mbox) (s : State) : Host.Outcome State Fault Refusal :=
  run s (fun x => x.mbox m (isLd m || x.isCtl m) .ready (fun x => x.reply m 0 x.persistStatus))
/-- READ_REGISTERS. -/
def execReadRegisters (first count : Nat) (s : State) : Host.Outcome State Fault Refusal :=
  run s (fun x => x.mbox .mctp true .early (fun x => x.readRegsCmd first count))
/-- WRITE_REGISTERS. -/
def execWriteRegisters (first : Nat) (vals : List Word) (s : State) : Host.Outcome State Fault Refusal :=
  run s (fun x => x.mbox .mctp true .early (fun x => x.writeRegsCmd first vals))
/-- ALERT_RESPONSE_ADDRESS. -/
def execAlertResponseAddress (s : State) : Host.Outcome State Fault Refusal := run s (fun x => x.alertResponse)

end Sys2Proof.Machine
end

