-- ==== Sys2Proof/Machine/Medium.lean ====
section
/-!
DEFINITION. The medium's commands (R122–R168): program units, rows, journal, checkpoints, resets, failures.
-/

namespace Sys2Proof.Machine

/-- A die reports on the program unit of a row that it was programming (R126, R132). -/
def Mod.unitReport (m : Mod) (row x : Nat) (ok : Bool) : Mod :=
  match m.med.rows.find? (fun r => r.id = row) with
  | none => m
  | some r =>
    let n := dieOf r.sg x
    if (m.die n).op.any (fun o => !o.reset && o.key = row) then
      let m := m.opEnd n
      if ok then m.unitOk r x
      else if r.dead then
        let m := (m.setDie n (fun d => { d with pfail := d.pfail + 1 })).retire r.sg r.blk x
        if m.begun false row then m else { m with med := { m.med with rows := m.med.rows.filter (fun y => y.id != row) } }
      else m.unitFail r x
    else m

/-- MED_ROWWAIT after a row's first page: it is programmed as it is (R131). -/
def Mod.rowStart (m : Mod) (row : Nat) : Mod :=
  match m.med.rows.find? (fun r => r.id = row) with
  | some r => if !r.started && !r.pages.isEmpty && r.since + 1000 * bits (m.w 0 0x50104) 13 0 ≤ m.time.dtc && m.per.evac.isNone then m.rowGo r else m
  | none => m
/-- MED_JRNL after the oldest staged record (R135). -/
def Mod.journalTimer (m : Mod) : Mod :=
  match m.med.staged.head? with
  | some e => if e.2 + 1000 * bits (m.w 0 0x50108) 9 0 ≤ m.time.dtc then m.journalPage else m
  | none => m

/-- A die reports on the reset of a die-block that it was doing (R126, R156). -/
def Mod.resetReport (m : Mod) (sg blk x : Nat) (ok : Bool) : Mod :=
  if (m.die (dieOf sg x)).op.any (fun o => o.reset && o.key = bkey sg blk) then (m.opEnd (dieOf sg x)).resetOne sg blk x ok else m

/-- 10 µs after a block's last removal (R148). -/
def Mod.pendingReset (m : Mod) (sg blk : Nat) : Mod :=
  if m.canPend (bkey sg blk) then (m.setBlk (bkey sg blk) (fun b => { b with st := .pendingReset, wr := none })).startResets else m

/-- PROGRAM_VERIFY_DONE. -/
def execProgramVerifyDone (row : Nat) (x : Fin 10) (ok : Bool) (s : State) : Host.Outcome State Fault Refusal :=
  run s (fun m => m.unitReport row x ok)
/-- ROW_WAIT_EXPIRY. -/
def execRowWaitExpiry (row : Nat) (s : State) : Host.Outcome State Fault Refusal := run s (fun m => m.rowStart row)
/-- JOURNAL_FLUSH_TIMER. -/
def execJournalFlushTimer (s : State) : Host.Outcome State Fault Refusal := run s (fun m => m.journalTimer)
/-- CHECKPOINT_START. -/
def execCheckpointStart (s : State) : Host.Outcome State Fault Refusal :=
  run s (fun m => if m.pwr.phase < 4 || m.per.evac.isSome || !m.ckDue then m else m.ckStart)
/-- DIE_BLOCK_RESET_DONE. -/
def execDieBlockResetDone (sg : Fin 20) (blk : Fin 16384) (x : Fin 10) (ok : Bool) (s : State) : Host.Outcome State Fault Refusal :=
  run s (fun m => m.resetReport sg blk x ok)
/-- DIE_STATUS_TIMEOUT. -/
def execDieStatusTimeout (die : Fin 200) (s : State) : Host.Outcome State Fault Refusal :=
  run s (fun m => if m.coreOn then (m.dieFail die 0).goneSettle else m)
/-- MEDIA_CHANNEL_FAIL. -/
def execMediaChannelFail (ch : Fin 20) (training : Bool) (s : State) : Host.Outcome State Fault Refusal :=
  run s (fun m => if m.coreOn then (m.mediaChanFail ch (if training then 0 else 1)).goneSettle else m)
/-- PENDING_RESET_TIMER. -/
def execPendingResetTimer (sg : Fin 20) (blk : Fin 16384) (s : State) : Host.Outcome State Fault Refusal :=
  run s (fun m => m.pendingReset sg blk)

end Sys2Proof.Machine
end

