-- ==== Sys2Proof/Machine/Patrol.lean ====
section
/-!
DEFINITION. The commands of drift compensation and Fireboss (R169–R186).
-/

namespace Sys2Proof.Machine

/-- AGE_BUCKET_REEVAL: the re-evaluation of the buckets 0–11, or of 12–27. -/
def execAgeBucketReeval (late : Bool) (s : State) : Host.Outcome State Fault Refusal :=
  run s (fun m => if m.coreOn then m.reeval late else m)
/-- EQUIV_AGE_TICK. -/
def execEquivAgeTick (s : State) : Host.Outcome State Fault Refusal :=
  run s (fun m => if m.pwr.aonReset then m else m.ageTick)
/-- TEMP_BUCKET_CHANGE. -/
def execTempBucketChange (die : Fin 200) (s : State) : Host.Outcome State Fault Refusal :=
  run s (fun m => if m.coreOn then m.tempChange die else m)
/-- FIREBOSS_RATE_TICK. -/
def execFirebossRateTick (s : State) : Host.Outcome State Fault Refusal := run s (fun m => m.rateTick)
/-- FIREBOSS_VISIT. -/
def execFirebossVisit (sg : Fin 20) (blk : Fin 16384) (x : Fin 10) (wl : Fin 512) (res : VisitFinding) (dMinus dPlus : List Nat)
    (s : State) : Host.Outcome State Fault Refusal :=
  run s (fun m => m.visit sg blk x wl res.res dMinus dPlus res.crcBad)
/-- REFRESH_OVERDUE. -/
def execRefreshOverdue (sg : Fin 20) (blk : Fin 16384) (s : State) : Host.Outcome State Fault Refusal :=
  run s (fun m => m.overdue sg blk)

end Sys2Proof.Machine
end

