-- ==== Sys2Proof/Machine/PlateRows.lean ====
section
/-!
DEFINITION. Commands that the spec gives as plate values (R166, R167, R206, R214, R234, R235, R321, R324, R325, R327, R351): a
row of the table stands for the transaction that writes those plates. It is validated as every transaction is, and what it
does is done at the first frame boundary after it, to which time passes (R23, log entry 22).
-/

namespace Sys2Proof.Machine

/-- The transaction that a row of writes `ws` (instance, index, value) stands for. -/
def rowTx (ws : List (Nat × Nat × Word)) : Tx :=
  { org := { src := 2 }, writes := ws.map (fun w => ⟨if w.2.1 < 0x80000 then pkey w.1 w.2.1 else w.2.1, w.2.1, w.2.2⟩) }

/-- A transaction of writes `ws`: validated, and applied at the next frame boundary, or failed with its record. -/
def Mod.plateTx (m : Mod) (ws : List (Nat × Nat × Word)) : Mod :=
  if !m.coreOn || !m.fore.ready then m
  else match m.validate (rowTx ws) with
    | some f => m.txFailed (rowTx ws) f
    | none =>
      let n := m.fore.txnum + 1
      (({ m with fore := { m.fore with txnum := n } }).nextFrame).applyTx { rowTx ws with num := n }

/-- A row that has been validated takes the next number and meets its boundary. -/
def Mod.rowFrame (m : Mod) : Mod := ({ m with fore := { m.fore with txnum := m.fore.txnum + 1 } }).nextFrame
/-- A row of writes `ws` that has been validated, with what it makes the module do said as `eff`: at the boundary its values are in the
plates, the effect takes place, and its record is written (R22, R23, R258). -/
def Mod.rowDone (m : Mod) (ws : List (Nat × Nat × Word)) (eff : Mod → Mod) : Mod :=
  let b := m.rowFrame
  (eff { b with cfg := { b.cfg with plates := writePlates b.cfg.plates (rowTx ws).writes } }).txApplied { rowTx ws with num := m.fore.txnum + 1 }

/-- Words 0 to 23 of key slot `n` and its OP word. -/
def slotWrites (n : Nat) (ws : List Word) (op : Nat) : List (Nat × Nat × Word) :=
  ((ws.take 24).zipIdx.map (fun e => (0, 0xE0000 + 32 * n + e.2, e.1))) ++ [(0, 0xE0000 + 32 * n + 24, BitVec.ofNat 32 op)]

/-- DISCARD. -/
def execDiscard (region : Fin 4096) (first count : Word) (s : State) : Host.Outcome State Fault Refusal :=
  run s (fun m => m.plateTx [(0, 0x600A4 / 4, first), (0, 0x600A8 / 4, count), (0, 0x600A0 / 4, fld 30 1 ||| fld 0 region)])
/-- SECURE_DISCARD. -/
def execSecureDiscard (region : Fin 4096) (s : State) : Host.Outcome State Fault Refusal :=
  run s (fun m => m.plateTx [(0, 0x600A0 / 4, fld 30 2 ||| fld 0 region)])
/-- CAP_TEST_REQUEST. -/
def execCapTestRequest (s : State) : Host.Outcome State Fault Refusal :=
  run s (fun m => m.plateTx [(0, 0x70010 / 4, m.w 0 0x70010 ||| flag 8 true)])
/-- CLEAN_SHUTDOWN. -/
def execCleanShutdown (s : State) : Host.Outcome State Fault Refusal :=
  run s (fun m => m.plateTx [(0, 0x7003C / 4, fld 0 1)])
/-- TW_ATTACH. -/
def execTwAttach (s : State) : Host.Outcome State Fault Refusal :=
  run s (fun m => m.plateTx [(0, 0x80054 / 4, fld 28 1)])
/-- TW_DETACH. -/
def execTwDetach (s : State) : Host.Outcome State Fault Refusal :=
  run s (fun m => m.plateTx [(0, 0x80054 / 4, fld 28 2)])
/-- TW_REPAIR. -/
def execTwRepair (region : Fin 4096) (acceptLag : Bool) (s : State) : Host.Outcome State Fault Refusal :=
  run s (fun m => m.plateTx [(0, 0x80054 / 4, fld 28 4 ||| flag 27 acceptLag ||| fld 0 region)])
/-- KEY_LOAD. -/
def execKeyLoad (slot : Fin 4096) (words : List Word) (s : State) : Host.Outcome State Fault Refusal :=
  run s (fun m => m.plateTx (slotWrites slot words 1))
/-- KEY_CLEAR. -/
def execKeyClear (slot : Fin 4096) (s : State) : Host.Outcome State Fault Refusal :=
  run s (fun m => m.plateTx (slotWrites slot [] 2))
/-- CRYPTO_ERASE. -/
def execCryptoErase (slot : Fin 4096) (s : State) : Host.Outcome State Fault Refusal :=
  run s (fun m => m.plateTx (slotWrites slot [] 3))
/-- SEAM_START. -/
def execSeamStart (eng : Fin 2) (ctl : Word) (words : List Word) (s : State) : Host.Outcome State Fault Refusal :=
  run s (fun m => m.plateTx (slotWrites (4096 + eng) words 1 ++ [(eng.val, 0x90104 / 4, ctl ||| flag 31 true)]))
/-- PCMD_M0. -/
def execPcmdM0 (s : State) : Host.Outcome State Fault Refusal :=
  run s (fun m => if m.coreOn then m.plateTx [(0, 0xA0104 / 4, 0)] else m.pcmd 0)
/-- PCMD_M3. -/
def execPcmdM3 (s : State) : Host.Outcome State Fault Refusal := run s (fun m => m.plateTx [(0, 0xA0104 / 4, 3)])
/-- PCMD_M4. -/
def execPcmdM4 (s : State) : Host.Outcome State Fault Refusal := run s (fun m => m.plateTx [(0, 0xA0104 / 4, 4)])

end Sys2Proof.Machine
end

