-- ==== Sys2Proof/Machine/Program.lean ====
section
/-!
DEFINITION. Programs (R237–R288): the commit unit, the Bauri instructions, the ends of their waits and their traps. A command of a
foreman has its effect when the foreman stands before that instruction (log entry 23): `Mod.bauri` says so once for all.
-/

namespace Sys2Proof.Machine

/-- Foreman `f`'s wait, if it is of the kind `k`, is evaluated; a debug halt keeps it (R373). -/
def Mod.pollIf (m : Mod) (f : Nat) (k : Wait → Bool) : Mod :=
  if k (m.fm f).wait && !(m.fm f).halted && !(m.fm f).stopped then m.waitPoll f else m
def Wait.isPlate : Wait → Bool | .plate .. => true | _ => false
def Wait.isEvent : Wait → Bool | .event .. => true | _ => false
def Wait.isFrames : Wait → Bool | .frames .. => true | _ => false

/-- A program whose step count has reached its budget is aborted before its next instruction (R254). -/
def Mod.budgetEnd (m : Mod) (f : Nat) : Mod := if (m.fm f).ready && (m.fm f).spent then m.endProg f 4 0 else m

/-- A line operation that is still running is ended with DEADLINE (R278). -/
def Mod.lineStop (m : Mod) (f : Nat) : Mod :=
  match m.lineOp (.foreman f) with
  | some o => if o.status.isNone then m.lineDeadline (.foreman f) else m
  | none => m
/-- A foreman's line operation that is still running passes its bound: time passes to it (R278). -/
def Mod.lineLate (m : Mod) (f : Nat) : Mod :=
  match m.lineOp (.foreman f) with
  | some o => if o.status.isNone then (m.passUntil o.bound).lineStop f else m
  | none => m

/-- COMMIT_UNIT_VALIDATE. -/
def execCommitUnitValidate (s : State) : Host.Outcome State Fault Refusal := run s (fun m => m.commitNext)

/-- ADD. -/
def execAdd (f : Fin 8) (rd ra rb : BitVec 5) (s : State) : Host.Outcome State Fault Refusal :=
  run s (fun m => m.bauri f (.alu .add rd ra rb))

/-- SUB. -/
def execSub (f : Fin 8) (rd ra rb : BitVec 5) (s : State) : Host.Outcome State Fault Refusal :=
  run s (fun m => m.bauri f (.alu .sub rd ra rb))

/-- AND. -/
def execAnd (f : Fin 8) (rd ra rb : BitVec 5) (s : State) : Host.Outcome State Fault Refusal :=
  run s (fun m => m.bauri f (.alu .and rd ra rb))

/-- OR. -/
def execOr (f : Fin 8) (rd ra rb : BitVec 5) (s : State) : Host.Outcome State Fault Refusal :=
  run s (fun m => m.bauri f (.alu .or rd ra rb))

/-- XOR. -/
def execXor (f : Fin 8) (rd ra rb : BitVec 5) (s : State) : Host.Outcome State Fault Refusal :=
  run s (fun m => m.bauri f (.alu .xor rd ra rb))

/-- SLL. -/
def execSll (f : Fin 8) (rd ra rb : BitVec 5) (s : State) : Host.Outcome State Fault Refusal :=
  run s (fun m => m.bauri f (.alu .sll rd ra rb))

/-- SRL. -/
def execSrl (f : Fin 8) (rd ra rb : BitVec 5) (s : State) : Host.Outcome State Fault Refusal :=
  run s (fun m => m.bauri f (.alu .srl rd ra rb))

/-- SRA. -/
def execSra (f : Fin 8) (rd ra rb : BitVec 5) (s : State) : Host.Outcome State Fault Refusal :=
  run s (fun m => m.bauri f (.alu .sra rd ra rb))

/-- SLT. -/
def execSlt (f : Fin 8) (rd ra rb : BitVec 5) (s : State) : Host.Outcome State Fault Refusal :=
  run s (fun m => m.bauri f (.alu .slt rd ra rb))

/-- SLTU. -/
def execSltu (f : Fin 8) (rd ra rb : BitVec 5) (s : State) : Host.Outcome State Fault Refusal :=
  run s (fun m => m.bauri f (.alu .sltu rd ra rb))

/-- MUL. -/
def execMul (f : Fin 8) (rd ra rb : BitVec 5) (s : State) : Host.Outcome State Fault Refusal :=
  run s (fun m => m.bauri f (.alu .mul rd ra rb))

/-- MULHU. -/
def execMulhu (f : Fin 8) (rd ra rb : BitVec 5) (s : State) : Host.Outcome State Fault Refusal :=
  run s (fun m => m.bauri f (.alu .mulhu rd ra rb))

/-- DIVU. -/
def execDivu (f : Fin 8) (rd ra rb : BitVec 5) (s : State) : Host.Outcome State Fault Refusal :=
  run s (fun m => m.bauri f (.alu .divu rd ra rb))

/-- REMU. -/
def execRemu (f : Fin 8) (rd ra rb : BitVec 5) (s : State) : Host.Outcome State Fault Refusal :=
  run s (fun m => m.bauri f (.alu .remu rd ra rb))

/-- MINU. -/
def execMinu (f : Fin 8) (rd ra rb : BitVec 5) (s : State) : Host.Outcome State Fault Refusal :=
  run s (fun m => m.bauri f (.alu .minu rd ra rb))

/-- MAXU. -/
def execMaxu (f : Fin 8) (rd ra rb : BitVec 5) (s : State) : Host.Outcome State Fault Refusal :=
  run s (fun m => m.bauri f (.alu .maxu rd ra rb))

/-- ADDI. -/
def execAddi (f : Fin 8) (rd rs : BitVec 5) (imm : BitVec 14) (s : State) : Host.Outcome State Fault Refusal :=
  run s (fun m => m.bauri f (.alui .addi rd rs imm))

/-- ANDI. -/
def execAndi (f : Fin 8) (rd rs : BitVec 5) (imm : BitVec 14) (s : State) : Host.Outcome State Fault Refusal :=
  run s (fun m => m.bauri f (.alui .andi rd rs imm))

/-- ORI. -/
def execOri (f : Fin 8) (rd rs : BitVec 5) (imm : BitVec 14) (s : State) : Host.Outcome State Fault Refusal :=
  run s (fun m => m.bauri f (.alui .ori rd rs imm))

/-- XORI. -/
def execXori (f : Fin 8) (rd rs : BitVec 5) (imm : BitVec 14) (s : State) : Host.Outcome State Fault Refusal :=
  run s (fun m => m.bauri f (.alui .xori rd rs imm))

/-- SLTI. -/
def execSlti (f : Fin 8) (rd rs : BitVec 5) (imm : BitVec 14) (s : State) : Host.Outcome State Fault Refusal :=
  run s (fun m => m.bauri f (.alui .slti rd rs imm))

/-- SLTIU. -/
def execSltiu (f : Fin 8) (rd rs : BitVec 5) (imm : BitVec 14) (s : State) : Host.Outcome State Fault Refusal :=
  run s (fun m => m.bauri f (.alui .sltiu rd rs imm))

/-- SLLI. -/
def execSlli (f : Fin 8) (rd rs : BitVec 5) (sh : BitVec 6) (s : State) : Host.Outcome State Fault Refusal :=
  run s (fun m => m.bauri f (.shift .slli rd rs sh))

/-- SRLI. -/
def execSrli (f : Fin 8) (rd rs : BitVec 5) (sh : BitVec 6) (s : State) : Host.Outcome State Fault Refusal :=
  run s (fun m => m.bauri f (.shift .srli rd rs sh))

/-- SRAI. -/
def execSrai (f : Fin 8) (rd rs : BitVec 5) (sh : BitVec 6) (s : State) : Host.Outcome State Fault Refusal :=
  run s (fun m => m.bauri f (.shift .srai rd rs sh))

/-- LI. -/
def execLi (f : Fin 8) (rd : BitVec 5) (imm : BitVec 21) (s : State) : Host.Outcome State Fault Refusal :=
  run s (fun m => m.bauri f (.li rd imm))

/-- LIH. -/
def execLih (f : Fin 8) (rd : BitVec 5) (imm : BitVec 21) (s : State) : Host.Outcome State Fault Refusal :=
  run s (fun m => m.bauri f (.lih rd imm))

/-- LD8. -/
def execLd8 (f : Fin 8) (rd rs : BitVec 5) (imm : LoadOffset) (s : State) : Host.Outcome State Fault Refusal :=
  run s (fun m => (m.ldCheck f .w8 rd rs imm.imm imm.ecc).bauri f (.ld .w8 rd rs imm.imm))

/-- LD16. -/
def execLd16 (f : Fin 8) (rd rs : BitVec 5) (imm : LoadOffset) (s : State) : Host.Outcome State Fault Refusal :=
  run s (fun m => (m.ldCheck f .w16 rd rs imm.imm imm.ecc).bauri f (.ld .w16 rd rs imm.imm))

/-- LD32. -/
def execLd32 (f : Fin 8) (rd rs : BitVec 5) (imm : LoadOffset) (s : State) : Host.Outcome State Fault Refusal :=
  run s (fun m => (m.ldCheck f .w32 rd rs imm.imm imm.ecc).bauri f (.ld .w32 rd rs imm.imm))

/-- LD64. -/
def execLd64 (f : Fin 8) (rd rs : BitVec 5) (imm : LoadOffset) (s : State) : Host.Outcome State Fault Refusal :=
  run s (fun m => (m.ldCheck f .w64 rd rs imm.imm imm.ecc).bauri f (.ld .w64 rd rs imm.imm))

/-- ST8. -/
def execSt8 (f : Fin 8) (rd rs : BitVec 5) (imm : BitVec 14) (s : State) : Host.Outcome State Fault Refusal :=
  run s (fun m => m.bauri f (.st .w8 rd rs imm))

/-- ST16. -/
def execSt16 (f : Fin 8) (rd rs : BitVec 5) (imm : BitVec 14) (s : State) : Host.Outcome State Fault Refusal :=
  run s (fun m => m.bauri f (.st .w16 rd rs imm))

/-- ST32. -/
def execSt32 (f : Fin 8) (rd rs : BitVec 5) (imm : BitVec 14) (s : State) : Host.Outcome State Fault Refusal :=
  run s (fun m => m.bauri f (.st .w32 rd rs imm))

/-- ST64. -/
def execSt64 (f : Fin 8) (rd rs : BitVec 5) (imm : BitVec 14) (s : State) : Host.Outcome State Fault Refusal :=
  run s (fun m => m.bauri f (.st .w64 rd rs imm))

/-- BR. -/
def execBr (f : Fin 8) (ra rb : BitVec 5) (cond : Fin 6) (off : BitVec 10) (s : State) : Host.Outcome State Fault Refusal :=
  run s (fun m => m.bauri f (.br ra rb cond off))

/-- J. -/
def execJ (f : Fin 8) (imm : BitVec 21) (s : State) : Host.Outcome State Fault Refusal :=
  run s (fun m => m.bauri f (.j imm))

/-- CALL. -/
def execCall (f : Fin 8) (imm : BitVec 21) (s : State) : Host.Outcome State Fault Refusal :=
  run s (fun m => m.bauri f (.call imm))

/-- RET. -/
def execRet (f : Fin 8) (s : State) : Host.Outcome State Fault Refusal :=
  run s (fun m => m.bauri f (.ret))

/-- LOOP. -/
def execLoop (f : Fin 8) (ra : BitVec 5) (off : BitVec 10) (s : State) : Host.Outcome State Fault Refusal :=
  run s (fun m => m.bauri f (.loop ra off))

/-- LOOPI. -/
def execLoopi (f : Fin 8) (count : BitVec 11) (off : BitVec 10) (s : State) : Host.Outcome State Fault Refusal :=
  run s (fun m => m.bauri f (.loopi count off))

/-- LEND. -/
def execLend (f : Fin 8) (s : State) : Host.Outcome State Fault Refusal :=
  run s (fun m => m.bauri f (.lend))

/-- PLD. -/
def execPld (f : Fin 8) (r : BitVec 5) (x : Bool) (idx : BitVec 20) (s : State) : Host.Outcome State Fault Refusal :=
  run s (fun m => m.bauri f (.pld r x idx))

/-- PST. -/
def execPst (f : Fin 8) (r : BitVec 5) (x : Bool) (idx : BitVec 20) (s : State) : Host.Outcome State Fault Refusal :=
  run s (fun m => m.bauri f (.pst r x idx))

/-- PWAIT. -/
def execPwait (f : Fin 8) (r : BitVec 5) (x : Bool) (idx : BitVec 20) (s : State) : Host.Outcome State Fault Refusal :=
  run s (fun m => m.bauri f (.pwait r x idx))

/-- PWAIT_END. -/
def execPwaitEnd (f : Fin 8) (s : State) : Host.Outcome State Fault Refusal :=
  run s (fun m => m.pollIf f Wait.isPlate)

/-- LRD. -/
def execLrd (f : Fin 8) (rd ra rb : BitVec 5) (s : State) : Host.Outcome State Fault Refusal :=
  run s (fun m => m.bauri f (.line .lrd rd ra rb))

/-- LRDX. -/
def execLrdx (f : Fin 8) (rd ra rb : BitVec 5) (s : State) : Host.Outcome State Fault Refusal :=
  run s (fun m => m.bauri f (.line .lrdx rd ra rb))

/-- LWR. -/
def execLwr (f : Fin 8) (rd ra rb : BitVec 5) (s : State) : Host.Outcome State Fault Refusal :=
  run s (fun m => m.bauri f (.line .lwr rd ra rb))

/-- LZERO. -/
def execLzero (f : Fin 8) (rd ra : BitVec 5) (s : State) : Host.Outcome State Fault Refusal :=
  run s (fun m => m.bauri f (.line .lzero rd ra 0))

/-- LFLUSH. -/
def execLflush (f : Fin 8) (rd ra : BitVec 5) (s : State) : Host.Outcome State Fault Refusal :=
  run s (fun m => m.bauri f (.line .lflush rd ra 0))

/-- LPIN. -/
def execLpin (f : Fin 8) (rd ra : BitVec 5) (s : State) : Host.Outcome State Fault Refusal :=
  run s (fun m => m.bauri f (.line .lpin rd ra 0))

/-- LUNPIN. -/
def execLunpin (f : Fin 8) (rd ra : BitVec 5) (s : State) : Host.Outcome State Fault Refusal :=
  run s (fun m => m.bauri f (.line .lunpin rd ra 0))

/-- LINE_OP_DONE. -/
def execLineOpDone (f : Fin 8) (s : State) : Host.Outcome State Fault Refusal :=
  run s (fun m => m.blineDone f)

/-- LINE_OP_DEADLINE. -/
def execLineOpDeadline (f : Fin 8) (s : State) : Host.Outcome State Fault Refusal :=
  run s (fun m => m.lineLate f)

/-- CUSEL. -/
def execCusel (f : Fin 8) (rd ra : BitVec 5) (s : State) : Host.Outcome State Fault Refusal :=
  run s (fun m => m.bauri f (.cusel rd ra))

/-- CUFEED. -/
def execCufeed (f : Fin 8) (ra rb : BitVec 5) (s : State) : Host.Outcome State Fault Refusal :=
  run s (fun m => m.bauri f (.cufeed ra rb))

/-- CUGET. -/
def execCuget (f : Fin 8) (rd : BitVec 5) (s : State) : Host.Outcome State Fault Refusal :=
  run s (fun m => m.bauri f (.cuget rd))

/-- CUPUT. -/
def execCuput (f : Fin 8) (ra : BitVec 5) (s : State) : Host.Outcome State Fault Refusal :=
  run s (fun m => m.bauri f (.cuput ra))

/-- TXB. -/
def execTxb (f : Fin 8) (s : State) : Host.Outcome State Fault Refusal :=
  run s (fun m => m.bauri f (.txb))

/-- TXC. -/
def execTxc (f : Fin 8) (rd : BitVec 5) (s : State) : Host.Outcome State Fault Refusal :=
  run s (fun m => m.bauri f (.txc rd))

/-- TXA. -/
def execTxa (f : Fin 8) (s : State) : Host.Outcome State Fault Refusal :=
  run s (fun m => m.bauri f (.txa))

/-- EVWAIT. -/
def execEvwait (f : Fin 8) (rd rs : BitVec 5) (imm : BitVec 14) (s : State) : Host.Outcome State Fault Refusal :=
  run s (fun m => m.bauri f (.evwait rd rs imm))

/-- EVWAIT_END. -/
def execEvwaitEnd (f : Fin 8) (s : State) : Host.Outcome State Fault Refusal :=
  run s (fun m => m.pollIf f Wait.isEvent)

/-- EVSIG. -/
def execEvsig (f : Fin 8) (rd : BitVec 5) (code : BitVec 8) (s : State) : Host.Outcome State Fault Refusal :=
  run s (fun m => m.bauri f (.evsig rd code))

/-- EVACK. -/
def execEvack (f : Fin 8) (rd rs : BitVec 5) (imm : BitVec 14) (s : State) : Host.Outcome State Fault Refusal :=
  run s (fun m => m.bauri f (.evack rd rs imm))

/-- TIME. -/
def execTime (f : Fin 8) (rd : BitVec 5) (s : State) : Host.Outcome State Fault Refusal :=
  run s (fun m => m.bauri f (.time rd))

/-- HALT. -/
def execHalt (f : Fin 8) (s : State) : Host.Outcome State Fault Refusal :=
  run s (fun m => m.bauri f (.halt))

/-- YIELD. -/
def execYield (f : Fin 8) (imm : BitVec 14) (s : State) : Host.Outcome State Fault Refusal :=
  run s (fun m => m.bauri f (.yield imm))

/-- YIELD_END. -/
def execYieldEnd (f : Fin 8) (s : State) : Host.Outcome State Fault Refusal :=
  run s (fun m => m.pollIf f Wait.isFrames)

/-- TRAP. -/
def execTrap (f : Fin 8) (imm : BitVec 14) (s : State) : Host.Outcome State Fault Refusal :=
  run s (fun m => m.bauri f (.trap imm))

/-- STEP_BUDGET_EXHAUSTED. -/
def execStepBudgetExhausted (f : Fin 8) (s : State) : Host.Outcome State Fault Refusal :=
  run s (fun m => m.budgetEnd f)

/-- ILLEGAL_WORD: a word that is no instruction traps with ILLEGAL (R262). -/
def execIllegalWord (f : Fin 8) (s : State) : Host.Outcome State Fault Refusal :=
  run s (fun m => m.billegal f)

/-- FETCH_OUTSIDE_AREA: a PC outside the area traps with FETCH (R261). -/
def execFetchOutsideArea (f : Fin 8) (s : State) : Host.Outcome State Fault Refusal :=
  run s (fun m => m.bfetch f)

end Sys2Proof.Machine
end

