-- ==== Sys2Proof/Machine/Rails.lean ====
section
/-!
DEFINITION. The commands of power and thermal management (R340–R366), of the start (R432–R445) and of the sideband address
(R450). PWR_PCMD's values are in PlateRows.
-/

namespace Sys2Proof.Machine

/-- AON loses power: nothing but the Seed Store, the boot flash and the medium remains (R341). -/
def Mod.powerLost (m : Mod) : Mod := m.aonLoss

/-- VIN_POWER_UP. -/
def execVinPowerUp (mv : Nat) (s : State) : Host.Outcome State Fault Refusal := run s (fun m => m.vinUp mv)
/-- AON_RESET_RELEASE. -/
def execAonResetRelease (slotId : AonStart) (s : State) : Host.Outcome State Fault Refusal :=
  run s (fun m => m.aonRelease slotId.slotId slotId.dtcReads)
/-- AON_POWER_LOSS. -/
def execAonPowerLoss (s : State) : Host.Outcome State Fault Refusal := run s (fun m => m.powerLost)
/-- RAIL_IN_WINDOW. -/
def execRailInWindow (k : Fin 12) (s : State) : Host.Outcome State Fault Refusal := run s (fun m => m.railUp k)
/-- RAIL_BRINGUP_TIMEOUT. -/
def execRailBringupTimeout (k : Fin 12) (s : State) : Host.Outcome State Fault Refusal := run s (fun m => m.railTimeout k)
/-- RAIL_FALLEN. -/
def execRailFallen (k : Fin 12) (s : State) : Host.Outcome State Fault Refusal := run s (fun m => m.railFell k)
/-- RAIL_FAULT. -/
def execRailFault (k : Fin 12) (kind : RailKind) (readings : List (BitVec 16)) (s : State) : Host.Outcome State Fault Refusal :=
  run s (fun m => m.railFaulted k kind readings)
/-- RAIL_RETRY_EXPIRY. -/
def execRailRetryExpiry (k : Fin 12) (s : State) : Host.Outcome State Fault Refusal := run s (fun m => m.railRetry k)
/-- PWR_RCMD_RESTART: RESTART on the rail that the path's RAIL_SEL selects. -/
def execPwrRcmdRestart (p : Path) (s : State) : Host.Outcome State Fault Refusal :=
  run s (fun m => m.pathWrite p 0xA001C (flag 0 true) true)
/-- DOZE_TIMER. -/
def execDozeTimer (s : State) : Host.Outcome State Fault Refusal := run s (fun m => m.doze)
/-- WAKE_COMPLETE. -/
def execWakeComplete (s : State) : Host.Outcome State Fault Refusal := run s (fun m => m.wake)
/-- THERMAL_MODEL_UPDATE. -/
def execThermalModelUpdate (raws devs dies : List Int) (inlet : Int) (volts : List (BitVec 16)) (pin : BitVec 16) (s : State) :
    Host.Outcome State Fault Refusal :=
  run s (fun m => m.thUpdate raws devs dies inlet volts pin)
/-- AUTO_RESTART. -/
def execAutoRestart (s : State) : Host.Outcome State Fault Refusal := run s (fun m => m.thRestart)
/-- IMAGE_LOAD_DONE. -/
def execImageLoadDone (valid0 valid1 valid2 : Bool) (s : State) : Host.Outcome State Fault Refusal :=
  run s (fun m => m.imageLoad [valid0, valid1, valid2])
/-- TRAINING_DONE. -/
def execTrainingDone (hopFail : List (Fin 54)) (medFail : List (Fin 20)) (s : State) : Host.Outcome State Fault Refusal :=
  run s (fun m => m.training (hopFail.map (fun x => x.val)) (medFail.map (fun x => x.val)))
/-- I3C_DYNAMIC_ADDRESS. -/
def execI3cDynamicAddress (addr : BitVec 7) (s : State) : Host.Outcome State Fault Refusal :=
  run s (fun m => if m.pwr.aonReset then m else { m with path := { m.path with i3cAddr := some addr } })

end Sys2Proof.Machine
end

