-- ==== Sys2Proof/Machine/Registers.lean ====
section
/-!
DEFINITION. Register accesses on the access paths (R289–R301) and the commands that are a write or a read of one register:
occurrence counts, events, counters, check units, the Tally fetch, the Seed Store, the program store.
-/

namespace Sys2Proof.Machine

/-- Writes of consecutive words on a path. -/
def Mod.pathWrites : List Word → Nat → Path → Mod → Mod
  | [], _, _, m => m
  | v :: t, off, p, m => Mod.pathWrites t (off + 4) p (m.pathWrite p off v true)

/-- A write request (R290): on the BAR path one aligned DW or two with all byte enables, else it is discarded and counted; on the
management and debug paths words in ascending offset order. The register window is 2 MiB. -/
def Mod.regWrite (m : Mod) (p : Path) (off : Nat) (be : BitVec 8) (vals : List Word) : Mod :=
  if 0x200000 < off + 4 * vals.length then m
  else if p = .mgmt && m.pathOk p true off && 64 < (m.pathQ 1).q.length + vals.length then m.emit (.mailbox .mctp 6 [])
  else if p = .bar then
    if (vals.length = 1 && off % 4 = 0 && be = 0x0F) || (vals.length = 2 && off % 8 = 0 && be = 0xFF) then Mod.pathWrites vals off p m
    else if m.pathOk p true off then m.badAccess else m
  else if off % 4 = 0 then Mod.pathWrites vals off p m
  else m

/-- The words of a kind that a read of one DW names: RL words. -/
def isRl (off : Nat) : Bool := match rowAt off with | some r => r.acc == .rl && off % 4 == 0 | none => false
/-- Peak statistics that a read clears (R301): CLS_BOOK, TW_LAG, PWR_RIPEAK, PWR_PMAX, TH_PEAK. -/
def isPeak (off : Nat) : Bool := off = 0x20104 || off = 0x80040 || off = 0xA0010 || off = 0xA0118 || off = 0xB0010

/-- The hold-off of a source ends: its deferred records are produced if it is still pending (R311). -/
def Mod.holdoffEnd (m : Mod) (src : Nat) : Mod :=
  let ended : Bool := match (m.src src).lastAt with | some t => decide (t + m.holdNs ≤ m.time.dtc) | none => true
  if (m.src src).deferred && !m.pwr.aonReset && ended then
    if (m.src src).pending then
      (m.produce src 15).setSrc src (fun x => { x with deferred := false, lastAt := some m.time.dtc })
    else m.setSrc src (fun x => { x with deferred := false })
  else m

/-- REGISTER_WRITE. -/
def execRegisterWrite (p : Path) (off : Nat) (be : BitVec 8) (vals : List Word) (s : State) : Host.Outcome State Fault Refusal :=
  run s (fun m => m.regWrite p off be vals)
/-- A BAR read whose address is not aligned is completed with Unsupported Request and counted (R290). -/
def Mod.barMisread (m : Mod) (off : Nat) : Mod :=
  if m.pathOk .bar false off then m.badAccess.emit (.unsupported .bar) else m

/-- RL_READ. -/
def execRlRead (p : Path) (off : Nat) (s : State) : Host.Outcome State Fault Refusal :=
  run s (fun m => if p = .bar && off % 4 != 0 then m.barMisread off else if isRl off then m.pathRead p off else m)
/-- PEAK_READ_CLEAR. -/
def execPeakReadClear (p : Path) (off : Nat) (s : State) : Host.Outcome State Fault Refusal :=
  run s (fun m => if isPeak off then m.pathRead p off else m)
/-- COUNT_ACK_WRITE. -/
def execCountAckWrite (p : Path) (off : Nat) (v : Word) (s : State) : Host.Outcome State Fault Refusal :=
  run s (fun m => if (ackKey off 0).isSome then m.pathWrite p off v true else m)
/-- EVT_SRCACK_WRITE. -/
def execEvtSrcackWrite (p : Path) (v : Word) (s : State) : Host.Outcome State Fault Refusal :=
  run s (fun m => m.pathWrite p 0x11000C v true)
/-- EVENT_HOLDOFF_EXPIRY. -/
def execEventHoldoffExpiry (src : Fin 576) (s : State) : Host.Outcome State Fault Refusal := run s (fun m => m.holdoffEnd src)
/-- HOP_FLIP. -/
def execHopFlip (p : Path) (v : Word) (s : State) : Host.Outcome State Fault Refusal :=
  run s (fun m => m.pathWrite p 0x40030 v true)
/-- CNT_CLR. -/
def execCntClr (p : Path) (v : Word) (s : State) : Host.Outcome State Fault Refusal :=
  run s (fun m => m.pathWrite p 0xC0028 v true)
/-- CU_CFG_WRITE. -/
def execCuCfgWrite (p : Path) (v : Word) (s : State) : Host.Outcome State Fault Refusal :=
  run s (fun m => m.pathWrite p 0xD0004 v true)
/-- CU_PUT_HI_WRITE. -/
def execCuPutHiWrite (p : Path) (v : Word) (s : State) : Host.Outcome State Fault Refusal :=
  run s (fun m => m.pathWrite p 0xD0014 v true)
/-- SCAN_GO. -/
def execScanGo (p : Path) (raw : Bool) (s : State) : Host.Outcome State Fault Refusal :=
  run s (fun m => m.pathWrite p 0xD0044 (flag 31 true ||| flag 0 raw) true)
/-- SCAN_STOP. -/
def execScanStop (p : Path) (s : State) : Host.Outcome State Fault Refusal :=
  run s (fun m => m.pathWrite p 0xD0044 (flag 30 true) true)
/-- SCAN_LINE. -/
def execScanLine (cu : ScanStep) (s : State) : Host.Outcome State Fault Refusal :=
  run s (fun m => m.scanLine cu.cu cu.bad)
/-- TALLY_FETCH. -/
def execTallyFetch (p : Path) (readable : Bool) (s : State) : Host.Outcome State Fault Refusal :=
  run s (fun m => m.pathWrite p 0xE000C (flag 0 true) readable)
/-- The oldest record that waits for its page has waited for TLY_CTL.FLUSH (R406). -/
def Mod.flushDue (m : Mod) : Bool :=
  m.tly.staged != 0 && m.tly.oldestAt + bits (m.w 0 0xE0128) 9 0 * 1000000 ≤ m.time.dtc
/-- TALLY_FLUSH_TIMER. -/
def execTallyFlushTimer (s : State) : Host.Outcome State Fault Refusal :=
  run s (fun m => if m.coreOn && m.tly.running && m.flushDue then m.tallyPage else m)
/-- SEED_DATA_READ. -/
def execSeedDataRead (p : Path) (s : State) : Host.Outcome State Fault Refusal := run s (fun m => m.pathRead p 0xF0004)
/-- SEED_DATA_WRITE. -/
def execSeedDataWrite (p : Path) (v : Word) (s : State) : Host.Outcome State Fault Refusal :=
  run s (fun m => m.pathWrite p 0xF0004 v true)
/-- A write of SEED_CMD: operation, zone, and whether the write password is meant. -/
def seedWord (op z : Nat) (w : Bool) : Word := fld 0 op ||| fld 4 z ||| flag 8 w
/-- SEED_COMMIT. -/
def execSeedCommit (p : Path) (s : State) : Host.Outcome State Fault Refusal :=
  run s (fun m => m.pathWrite p 0xF0008 (seedWord 1 0 false) true)
/-- SEED_DISCARD. -/
def execSeedDiscard (p : Path) (s : State) : Host.Outcome State Fault Refusal :=
  run s (fun m => m.pathWrite p 0xF0008 (seedWord 2 0 false) true)
/-- SEED_UNLOCK. -/
def execSeedUnlock (p : Path) (zone : Fin 8) (write : Bool) (s : State) : Host.Outcome State Fault Refusal :=
  run s (fun m => m.pathWrite p 0xF0008 (seedWord 3 zone write) true)
/-- SEED_RELOCK. -/
def execSeedRelock (p : Path) (zone : Fin 8) (write : Bool) (s : State) : Host.Outcome State Fault Refusal :=
  run s (fun m => m.pathWrite p 0xF0008 (seedWord 4 zone write) true)
/-- SEED_SETPWD. -/
def execSeedSetpwd (p : Path) (zone : Fin 8) (write : Bool) (s : State) : Host.Outcome State Fault Refusal :=
  run s (fun m => m.pathWrite p 0xF0008 (seedWord 5 zone write) true)
/-- SEED_ZCLEAR. -/
def execSeedZclear (p : Path) (zone : Fin 8) (s : State) : Host.Outcome State Fault Refusal :=
  run s (fun m => m.pathWrite p 0xF0008 (seedWord 6 zone false) true)
/-- SEED_RECALL. -/
def execSeedRecall (p : Path) (s : State) : Host.Outcome State Fault Refusal :=
  run s (fun m => m.pathWrite p 0xF0008 (seedWord 7 0 false) true)
/-- RECALL_END. -/
def execRecallEnd (s : State) : Host.Outcome State Fault Refusal :=
  run s (fun m => if m.recalling then m else { m with seed := { m.seed with recallUntil := none } })
/-- ZONE_LOCKOUT_END. -/
def execZoneLockoutEnd (zone : Fin 8) (s : State) : Host.Outcome State Fault Refusal :=
  run s (fun m => if m.time.dtc < tget 0 m.seed.lockout zone then m else { m with seed := { m.seed with lockout := tput 0 m.seed.lockout zone 0 } })
/-- SEED_WRITE_DONE. -/
def execSeedWriteDone (ok : Bool) (s : State) : Host.Outcome State Fault Refusal := run s (fun m => m.seedWriteEnd ok)
/-- PSDATA_READ. -/
def execPsdataRead (p : Path) (s : State) : Host.Outcome State Fault Refusal := run s (fun m => m.pathRead p 0x10013C)
/-- PSDATA_WRITE. -/
def execPsdataWrite (p : Path) (v : Word) (s : State) : Host.Outcome State Fault Refusal :=
  run s (fun m => m.pathWrite p 0x10013C v true)

end Sys2Proof.Machine
end

