-- ==== Sys2Proof/Machine/Seam.lean ====
section
/-!
DEFINITION. The Seam engines' own command (R327–R332). Their start is a plate value (PlateRows).
-/

namespace Sys2Proof.Machine

/-- SEAM_LINE_REWRITE: engine `eng` goes on by one line. -/
def execSeamLineRewrite (eng : Fin 2) (verifyOk : RewriteFinding) (s : State) : Host.Outcome State Fault Refusal :=
  run s (fun m => m.seamLine eng verifyOk.verifyOk verifyOk.bad)

end Sys2Proof.Machine
end

