-- ==== Sys2Proof/Machine/Twin.lean ====
section
/-!
DEFINITION. The commands of the Twin Link and the pair (R215–R236): frames that arrive, what the link and the sideband do, and
the timers of the pair. TW_CMD's operations are in PlateRows.
-/

namespace Sys2Proof.Machine

/-- A flit that failed its CRC is asked for again by a NAK (R218): `flitBad` sends it from the last good one. -/
def Mod.crcError (m : Mod) : Mod := if m.twin.trained then m.flitBad else m

/-- LINE. -/
def execLine (region : Fin 4096) (lineNo msn gen : Nat) (ct : Line) (poison sidecar _sync resync : Bool) (s : State) :
    Host.Outcome State Fault Refusal :=
  run s (fun m => m.lineRecord region lineNo msn gen ct poison sidecar resync)
/-- PART. -/
def execPart (region : Fin 4096) (lineNo msn _gen : Nat) (mask : Dword) (data : Line) (poison : Bool) (s : State) :
    Host.Outcome State Fault Refusal :=
  run s (fun m => m.partRecord region lineNo msn mask data poison)
/-- ACK. -/
def execAck (msn : Nat) (s : State) : Host.Outcome State Fault Refusal := run s (fun m => m.ackFrame msn)
/-- HB: its epoch is compared (R228); its other fields have no effect on the pair. -/
def execHb (_state : Fin 2) (epoch _msn _dtc : Nat) (s : State) : Host.Outcome State Fault Refusal :=
  run s (fun m => if m.twin.trained then m.epochCheck epoch else m)
/-- HB_SEND. -/
def execHbSend (s : State) : Host.Outcome State Fault Refusal :=
  run s (fun m => if m.twin.trained then m.hbFrame else m)
/-- HELLO. -/
def execHello (ident : Dword) (epoch : Nat) (paired : Bool) (peerOfPeer : Dword) (s : State) :
    Host.Outcome State Fault Refusal :=
  run s (fun m => m.hello ident epoch paired peerOfPeer)
/-- PROPOSE. -/
def execPropose (epoch : Nat) (s : State) : Host.Outcome State Fault Refusal := run s (fun m => m.propose epoch)
/-- COMMIT. -/
def execCommit (epoch : Nat) (s : State) : Host.Outcome State Fault Refusal := run s (fun m => m.commitFrame epoch)
/-- DETACH. -/
def execDetach (epoch : Nat) (s : State) : Host.Outcome State Fault Refusal := run s (fun m => m.detachFrame epoch)
/-- REGCFG. -/
def execRegcfg (region : Fin 4096) (w0 w1 : Word) (gen : Nat) (erase : Bool) (seamGen : Option Nat) (s : State) :
    Host.Outcome State Fault Refusal :=
  run s (fun m => m.regcfgFrame { region := region, w0, w1, gen, erase, seamGen })
/-- TAKE. -/
def execTake (epoch : Nat) (regions : List (Fin 4096)) (s : State) : Host.Outcome State Fault Refusal :=
  run s (fun m => m.takeFrame epoch (regions.map (fun r => r.val)))
/-- RSOPEN. -/
def execRsopen (region : Fin 4096) (page msn : Nat) (s : State) : Host.Outcome State Fault Refusal :=
  run s (fun m => m.rsOpen region page msn)
/-- RPULL. -/
def execRpull (region : Fin 4096) (page : Nat) (s : State) : Host.Outcome State Fault Refusal :=
  run s (fun m => m.pullFrame region page)
/-- KEYCHK. -/
def execKeychk (region : Fin 4096) (gen : Nat) (ct : Line) (s : State) : Host.Outcome State Fault Refusal :=
  run s (fun m => m.keyCheck region gen ct)
/-- BITMAP. -/
def execBitmap (region : Fin 4096) (pages : List Nat) (s : State) : Host.Outcome State Fault Refusal :=
  run s (fun m => m.bitmapFrame region pages)
/-- NAK. -/
def execNak (seq : BitVec 16) (s : State) : Host.Outcome State Fault Refusal := run s (fun m => m.nakFrame seq.toNat)
/-- TWIN_FLIT_CRC_ERROR. The NAK names the flit after the last good one. -/
def execTwinFlitCrcError (_seq : BitVec 16) (s : State) : Host.Outcome State Fault Refusal := run s (fun m => m.crcError)
/-- HEARTBEAT_PULSE. -/
def execHeartbeatPulse (s : State) : Host.Outcome State Fault Refusal := run s (fun m => m.hbPulse)
/-- SIDEBAND_SILENT. -/
def execSidebandSilent (s : State) : Host.Outcome State Fault Refusal := run s (fun m => m.sideSilent)
/-- LINK_SILENT. -/
def execLinkSilent (s : State) : Host.Outcome State Fault Refusal := run s (fun m => m.twinSilent)
/-- LAG_LIMIT. -/
def execLagLimit (s : State) : Host.Outcome State Fault Refusal := run s (fun m => m.lagStop)
/-- TWIN_LINK_DOWN. -/
def execTwinLinkDown (s : State) : Host.Outcome State Fault Refusal := run s (fun m => m.twinDown)
/-- TWIN_LINK_TRAINED. -/
def execTwinLinkTrained (ok : Bool) (s : State) : Host.Outcome State Fault Refusal := run s (fun m => m.twinTrain ok)
/-- PAIRING_STROBE. -/
def execPairingStrobe (seen : Option (Fin 2)) (s : State) : Host.Outcome State Fault Refusal :=
  run s (fun m => m.strobe (seen.map (fun x => x.val)))
/-- TWIN_HB_IN_EDGE. -/
def execTwinHbInEdge (wide : Bool) (s : State) : Host.Outcome State Fault Refusal := run s (fun m => m.sideEdge wide)
/-- LAG_WARNING: the twin-state source follows the lag (R225), which every command's end evaluates. -/
def execLagWarning (s : State) : Host.Outcome State Fault Refusal := run s (fun m => m)
/-- TWIN_FLIT. -/
def execTwinFlit (seq ackSeq : BitVec 16) (credits : Nat) (s : State) : Host.Outcome State Fault Refusal :=
  run s (fun m => m.flitGood seq.toNat ackSeq.toNat credits)

end Sys2Proof.Machine
end

