-- ==== Sys2Proof/Machine/Dispatch.lean ====
section
/-!
DEFINITION. The dispatch: one arm per command.
-/

namespace Sys2Proof.Machine

def exec (i : Instr) (s : State) : Host.Outcome State Fault Refusal :=
  match i with
  | .frameBoundary => Sys2Proof.Machine.execFrameBoundary s
  | .beacon isl drift heard echoed => Sys2Proof.Machine.execBeacon isl drift heard echoed s
  | .timeSuspect isl => Sys2Proof.Machine.execTimeSuspect isl s
  | .islandStall isl => Sys2Proof.Machine.execIslandStall isl s
  | .timePllAdjust ppb => Sys2Proof.Machine.execTimePllAdjust ppb s
  | .dtcSave => Sys2Proof.Machine.execDtcSave s
  | .keySlotDestroy slot => Sys2Proof.Machine.execKeySlotDestroy slot s
  | .backgroundTestRegion mem fails => Sys2Proof.Machine.execBackgroundTestRegion mem fails s
  | .linkTrained port t => Sys2Proof.Machine.execLinkTrained port t s
  | .linkRecoveryOrDown port down => Sys2Proof.Machine.execLinkRecoveryOrDown port down s
  | .linkReturnL0 port => Sys2Proof.Machine.execLinkReturnL0 port s
  | .responseBoundDiscard id => Sys2Proof.Machine.execResponseBoundDiscard id s
  | .perstAssert port => Sys2Proof.Machine.execPerstAssert port s
  | .perstDeassert port => Sys2Proof.Machine.execPerstDeassert port s
  | .functionLevelReset lp => Sys2Proof.Machine.execFunctionLevelReset lp s
  | .aspmL1Entry port => Sys2Proof.Machine.execAspmL1Entry port s
  | .aspmL1Exit port => Sys2Proof.Machine.execAspmL1Exit port s
  | .memorySpaceEnable lp => Sys2Proof.Machine.execMemorySpaceEnable lp s
  | .hdmDecoderCommit lp dec base size ways gran pos skip => Sys2Proof.Machine.execHdmDecoderCommit lp dec base size ways gran pos skip s
  | .memRd lp hpa tag => Sys2Proof.Machine.execMemRd lp hpa tag s
  | .memRdData lp hpa tag => Sys2Proof.Machine.execMemRdData lp hpa tag s
  | .memSpecRd lp hpa => Sys2Proof.Machine.execMemSpecRd lp hpa s
  | .memInv lp hpa tag nt => Sys2Proof.Machine.execMemInv lp hpa tag nt s
  | .memWr lp hpa tag data poison => Sys2Proof.Machine.execMemWr lp hpa tag data poison s
  | .memWrPtl lp hpa tag data be poison => Sys2Proof.Machine.execMemWrPtl lp hpa tag data be poison s
  | .m2sProtocolError lp => Sys2Proof.Machine.execM2sProtocolError lp s
  | .deadlinePoison id => Sys2Proof.Machine.execDeadlinePoison id s
  | .syncAckLate id => Sys2Proof.Machine.execSyncAckLate id s
  | .gpfPhase1 port => Sys2Proof.Machine.execGpfPhase1 port s
  | .gpfPhase2 port => Sys2Proof.Machine.execGpfPhase2 port s
  | .gpfPhase2Cleaned port => Sys2Proof.Machine.execGpfPhase2Cleaned port s
  | .getEventRecords m log => Sys2Proof.Machine.execGetEventRecords m log s
  | .clearEventRecords m log all handles => Sys2Proof.Machine.execClearEventRecords m log all handles s
  | .getEventInterruptPolicy m => Sys2Proof.Machine.execGetEventInterruptPolicy m s
  | .setEventInterruptPolicy m policy => Sys2Proof.Machine.execSetEventInterruptPolicy m policy s
  | .getTimestamp m => Sys2Proof.Machine.execGetTimestamp m s
  | .setTimestamp m ts => Sys2Proof.Machine.execSetTimestamp m ts s
  | .getSupportedLogs m => Sys2Proof.Machine.execGetSupportedLogs m s
  | .getLog m vendor offset len => Sys2Proof.Machine.execGetLog m vendor offset len s
  | .identifyMemoryDevice m => Sys2Proof.Machine.execIdentifyMemoryDevice m s
  | .getPartitionInfo m => Sys2Proof.Machine.execGetPartitionInfo m s
  | .getHealthInfo m => Sys2Proof.Machine.execGetHealthInfo m s
  | .getAlertConfiguration m => Sys2Proof.Machine.execGetAlertConfiguration m s
  | .setAlertConfiguration m v => Sys2Proof.Machine.execSetAlertConfiguration m v s
  | .getShutdownState m => Sys2Proof.Machine.execGetShutdownState m s
  | .setShutdownState m dirty => Sys2Proof.Machine.execSetShutdownState m dirty s
  | .getPoisonList m dpa len => Sys2Proof.Machine.execGetPoisonList m dpa len s
  | .injectPoison m dpa => Sys2Proof.Machine.execInjectPoison m dpa s
  | .clearPoison m dpa data => Sys2Proof.Machine.execClearPoison m dpa data s
  | .getDcConfig m => Sys2Proof.Machine.execGetDcConfig m s
  | .getDcExtentList m lp => Sys2Proof.Machine.execGetDcExtentList m lp s
  | .addDcResponse m dpaGran accept => Sys2Proof.Machine.execAddDcResponse m dpaGran accept s
  | .releaseDc m dpaGran => Sys2Proof.Machine.execReleaseDc m dpaGran s
  | .getLdInfo m => Sys2Proof.Machine.execGetLdInfo m s
  | .getLdAllocations m port => Sys2Proof.Machine.execGetLdAllocations m port s
  | .setLdAllocations m port first ranges => Sys2Proof.Machine.execSetLdAllocations m port first ranges s
  | .getQosControl m port => Sys2Proof.Machine.execGetQosControl m port s
  | .setQosControl m port v => Sys2Proof.Machine.execSetQosControl m port v s
  | .getQosStatus m port => Sys2Proof.Machine.execGetQosStatus m port s
  | .getQosAllocatedLimitBw m port => Sys2Proof.Machine.execGetQosAllocatedLimitBw m port s
  | .setQosAllocatedLimitBw m port first vals => Sys2Proof.Machine.execSetQosAllocatedLimitBw m port first vals s
  | .getDcRegionConfig m lp => Sys2Proof.Machine.execGetDcRegionConfig m lp s
  | .initiateDcAdd m lp dpaGran devGran count => Sys2Proof.Machine.execInitiateDcAdd m lp dpaGran devGran count s
  | .initiateDcRelease m lp dpaGran => Sys2Proof.Machine.execInitiateDcRelease m lp dpaGran s
  | .forcedDcRelease m lp dpaGran => Sys2Proof.Machine.execForcedDcRelease m lp dpaGran s
  | .getFwInfo m => Sys2Proof.Machine.execGetFwInfo m s
  | .transferFw m slot version valid => Sys2Proof.Machine.execTransferFw m slot version valid s
  | .activateFw m slot online => Sys2Proof.Machine.execActivateFw m slot online s
  | .submitProgram m entry steps words upset => Sys2Proof.Machine.execSubmitProgram m entry steps words upset s
  | .getProgramResult m ticket => Sys2Proof.Machine.execGetProgramResult m ticket s
  | .readPlates m first count => Sys2Proof.Machine.execReadPlates m first count s
  | .setControlPort m port => Sys2Proof.Machine.execSetControlPort m port s
  | .twinTakeover m epoch first count => Sys2Proof.Machine.execTwinTakeover m epoch first count s
  | .getClassStatus m lp => Sys2Proof.Machine.execGetClassStatus m lp s
  | .getLdRegionMap m lp first => Sys2Proof.Machine.execGetLdRegionMap m lp first s
  | .getPersistenceStatus m => Sys2Proof.Machine.execGetPersistenceStatus m s
  | .readRegisters first count => Sys2Proof.Machine.execReadRegisters first count s
  | .writeRegisters first vals => Sys2Proof.Machine.execWriteRegisters first vals s
  | .alertResponseAddress => Sys2Proof.Machine.execAlertResponseAddress s
  | .hopperAccessDone id lanes => Sys2Proof.Machine.execHopperAccessDone id lanes s
  | .hopperRewrite ch => Sys2Proof.Machine.execHopperRewrite ch s
  | .hopperScrub frame line lanes => Sys2Proof.Machine.execHopperScrub frame line lanes s
  | .hopperChannelFail ch why => Sys2Proof.Machine.execHopperChannelFail ch why s
  | .hopperRefresh ch bank => Sys2Proof.Machine.execHopperRefresh ch bank s
  | .hopperStarvation ch req waits => Sys2Proof.Machine.execHopperStarvation ch req waits s
  | .postedWriteDrain ch => Sys2Proof.Machine.execPostedWriteDrain ch s
  | .codewordTransferDone id x res w => Sys2Proof.Machine.execCodewordTransferDone id x res w s
  | .stripeMergeShort id => Sys2Proof.Machine.execStripeMergeShort id s
  | .backgroundFillDone frame => Sys2Proof.Machine.execBackgroundFillDone frame s
  | .mergeComplete page line => Sys2Proof.Machine.execMergeComplete page line s
  | .cleanStart => Sys2Proof.Machine.execCleanStart s
  | .cleanComplete frame => Sys2Proof.Machine.execCleanComplete frame s
  | .pinLoadComplete region => Sys2Proof.Machine.execPinLoadComplete region s
  | .mapEntryRebuild page unreadable => Sys2Proof.Machine.execMapEntryRebuild page unreadable s
  | .programVerifyDone row x ok => Sys2Proof.Machine.execProgramVerifyDone row x ok s
  | .rowWaitExpiry row => Sys2Proof.Machine.execRowWaitExpiry row s
  | .journalFlushTimer => Sys2Proof.Machine.execJournalFlushTimer s
  | .checkpointStart => Sys2Proof.Machine.execCheckpointStart s
  | .dieBlockResetDone sg blk x ok => Sys2Proof.Machine.execDieBlockResetDone sg blk x ok s
  | .dieStatusTimeout die => Sys2Proof.Machine.execDieStatusTimeout die s
  | .mediaChannelFail ch training => Sys2Proof.Machine.execMediaChannelFail ch training s
  | .pendingResetTimer sg blk => Sys2Proof.Machine.execPendingResetTimer sg blk s
  | .discard region first count => Sys2Proof.Machine.execDiscard region first count s
  | .secureDiscard region => Sys2Proof.Machine.execSecureDiscard region s
  | .ageBucketReeval late => Sys2Proof.Machine.execAgeBucketReeval late s
  | .equivAgeTick => Sys2Proof.Machine.execEquivAgeTick s
  | .tempBucketChange die => Sys2Proof.Machine.execTempBucketChange die s
  | .firebossRateTick => Sys2Proof.Machine.execFirebossRateTick s
  | .firebossVisit sg blk x wl res dMinus dPlus => Sys2Proof.Machine.execFirebossVisit sg blk x wl res dMinus dPlus s
  | .refreshOverdue sg blk => Sys2Proof.Machine.execRefreshOverdue sg blk s
  | .capTestStart => Sys2Proof.Machine.execCapTestStart s
  | .capTestDone cap esr => Sys2Proof.Machine.execCapTestDone cap esr s
  | .capTestDefer => Sys2Proof.Machine.execCapTestDefer s
  | .capTestRequest => Sys2Proof.Machine.execCapTestRequest s
  | .budgetRecompute vhu => Sys2Proof.Machine.execBudgetRecompute vhu s
  | .undervoltage => Sys2Proof.Machine.execUndervoltage s
  | .pwrfailIn => Sys2Proof.Machine.execPwrfailIn s
  | .vinOvervoltage mv => Sys2Proof.Machine.execVinOvervoltage mv s
  | .debounceEnd vinGood pfHigh => Sys2Proof.Machine.execDebounceEnd vinGood pfHigh s
  | .evacuateCommit cause => Sys2Proof.Machine.execEvacuateCommit cause s
  | .evacManifestDurable => Sys2Proof.Machine.execEvacManifestDurable s
  | .evacLinksOff => Sys2Proof.Machine.execEvacLinksOff s
  | .evacImageDone => Sys2Proof.Machine.execEvacImageDone s
  | .evacMetadataDurable => Sys2Proof.Machine.execEvacMetadataDurable s
  | .evacMarkerDurable => Sys2Proof.Machine.execEvacMarkerDurable s
  | .evacPowerDown => Sys2Proof.Machine.execEvacPowerDown s
  | .markerThreshold => Sys2Proof.Machine.execMarkerThreshold s
  | .vhuFloor => Sys2Proof.Machine.execVhuFloor s
  | .vinReturnWaitExpiry => Sys2Proof.Machine.execVinReturnWaitExpiry s
  | .evacuateTestCommand p => Sys2Proof.Machine.execEvacuateTestCommand p s
  | .dirtyRollWindow => Sys2Proof.Machine.execDirtyRollWindow s
  | .rollBase => Sys2Proof.Machine.execRollBase s
  | .cleanShutdown => Sys2Proof.Machine.execCleanShutdown s
  | .suspectAck p => Sys2Proof.Machine.execSuspectAck p s
  | .recovery f => Sys2Proof.Machine.execRecovery f s
  | .line region lineNo msn gen ct poison sidecar sync resync => Sys2Proof.Machine.execLine region lineNo msn gen ct poison sidecar sync resync s
  | .part region lineNo msn gen mask data poison => Sys2Proof.Machine.execPart region lineNo msn gen mask data poison s
  | .ack msn => Sys2Proof.Machine.execAck msn s
  | .hb state epoch msn dtc => Sys2Proof.Machine.execHb state epoch msn dtc s
  | .hbSend => Sys2Proof.Machine.execHbSend s
  | .hello ident epoch paired peerOfPeer => Sys2Proof.Machine.execHello ident epoch paired peerOfPeer s
  | .propose epoch => Sys2Proof.Machine.execPropose epoch s
  | .commit epoch => Sys2Proof.Machine.execCommit epoch s
  | .detach epoch => Sys2Proof.Machine.execDetach epoch s
  | .regcfg region w0 w1 gen erase seamGen => Sys2Proof.Machine.execRegcfg region w0 w1 gen erase seamGen s
  | .take epoch regions => Sys2Proof.Machine.execTake epoch regions s
  | .rsopen region page msn => Sys2Proof.Machine.execRsopen region page msn s
  | .rpull region page => Sys2Proof.Machine.execRpull region page s
  | .keychk region gen ct => Sys2Proof.Machine.execKeychk region gen ct s
  | .bitmap region pages => Sys2Proof.Machine.execBitmap region pages s
  | .nak seq => Sys2Proof.Machine.execNak seq s
  | .twinFlitCrcError seq => Sys2Proof.Machine.execTwinFlitCrcError seq s
  | .heartbeatPulse => Sys2Proof.Machine.execHeartbeatPulse s
  | .sidebandSilent => Sys2Proof.Machine.execSidebandSilent s
  | .linkSilent => Sys2Proof.Machine.execLinkSilent s
  | .lagLimit => Sys2Proof.Machine.execLagLimit s
  | .twinLinkDown => Sys2Proof.Machine.execTwinLinkDown s
  | .twinLinkTrained ok => Sys2Proof.Machine.execTwinLinkTrained ok s
  | .pairingStrobe seen => Sys2Proof.Machine.execPairingStrobe seen s
  | .twAttach => Sys2Proof.Machine.execTwAttach s
  | .twDetach => Sys2Proof.Machine.execTwDetach s
  | .twRepair region acceptLag => Sys2Proof.Machine.execTwRepair region acceptLag s
  | .commitUnitValidate => Sys2Proof.Machine.execCommitUnitValidate s
  | .add f rd ra rb => Sys2Proof.Machine.execAdd f rd ra rb s
  | .sub f rd ra rb => Sys2Proof.Machine.execSub f rd ra rb s
  | .and f rd ra rb => Sys2Proof.Machine.execAnd f rd ra rb s
  | .or f rd ra rb => Sys2Proof.Machine.execOr f rd ra rb s
  | .xor f rd ra rb => Sys2Proof.Machine.execXor f rd ra rb s
  | .sll f rd ra rb => Sys2Proof.Machine.execSll f rd ra rb s
  | .srl f rd ra rb => Sys2Proof.Machine.execSrl f rd ra rb s
  | .sra f rd ra rb => Sys2Proof.Machine.execSra f rd ra rb s
  | .slt f rd ra rb => Sys2Proof.Machine.execSlt f rd ra rb s
  | .sltu f rd ra rb => Sys2Proof.Machine.execSltu f rd ra rb s
  | .mul f rd ra rb => Sys2Proof.Machine.execMul f rd ra rb s
  | .mulhu f rd ra rb => Sys2Proof.Machine.execMulhu f rd ra rb s
  | .divu f rd ra rb => Sys2Proof.Machine.execDivu f rd ra rb s
  | .remu f rd ra rb => Sys2Proof.Machine.execRemu f rd ra rb s
  | .minu f rd ra rb => Sys2Proof.Machine.execMinu f rd ra rb s
  | .maxu f rd ra rb => Sys2Proof.Machine.execMaxu f rd ra rb s
  | .addi f rd rs imm => Sys2Proof.Machine.execAddi f rd rs imm s
  | .andi f rd rs imm => Sys2Proof.Machine.execAndi f rd rs imm s
  | .ori f rd rs imm => Sys2Proof.Machine.execOri f rd rs imm s
  | .xori f rd rs imm => Sys2Proof.Machine.execXori f rd rs imm s
  | .slti f rd rs imm => Sys2Proof.Machine.execSlti f rd rs imm s
  | .sltiu f rd rs imm => Sys2Proof.Machine.execSltiu f rd rs imm s
  | .slli f rd rs sh => Sys2Proof.Machine.execSlli f rd rs sh s
  | .srli f rd rs sh => Sys2Proof.Machine.execSrli f rd rs sh s
  | .srai f rd rs sh => Sys2Proof.Machine.execSrai f rd rs sh s
  | .li f rd imm => Sys2Proof.Machine.execLi f rd imm s
  | .lih f rd imm => Sys2Proof.Machine.execLih f rd imm s
  | .ld8 f rd rs imm => Sys2Proof.Machine.execLd8 f rd rs imm s
  | .ld16 f rd rs imm => Sys2Proof.Machine.execLd16 f rd rs imm s
  | .ld32 f rd rs imm => Sys2Proof.Machine.execLd32 f rd rs imm s
  | .ld64 f rd rs imm => Sys2Proof.Machine.execLd64 f rd rs imm s
  | .st8 f rd rs imm => Sys2Proof.Machine.execSt8 f rd rs imm s
  | .st16 f rd rs imm => Sys2Proof.Machine.execSt16 f rd rs imm s
  | .st32 f rd rs imm => Sys2Proof.Machine.execSt32 f rd rs imm s
  | .st64 f rd rs imm => Sys2Proof.Machine.execSt64 f rd rs imm s
  | .br f ra rb cond off => Sys2Proof.Machine.execBr f ra rb cond off s
  | .j f imm => Sys2Proof.Machine.execJ f imm s
  | .call f imm => Sys2Proof.Machine.execCall f imm s
  | .ret f => Sys2Proof.Machine.execRet f s
  | .loop f ra off => Sys2Proof.Machine.execLoop f ra off s
  | .loopi f count off => Sys2Proof.Machine.execLoopi f count off s
  | .lend f => Sys2Proof.Machine.execLend f s
  | .pld f r x idx => Sys2Proof.Machine.execPld f r x idx s
  | .pst f r x idx => Sys2Proof.Machine.execPst f r x idx s
  | .pwait f r x idx => Sys2Proof.Machine.execPwait f r x idx s
  | .pwaitEnd f => Sys2Proof.Machine.execPwaitEnd f s
  | .lrd f rd ra rb => Sys2Proof.Machine.execLrd f rd ra rb s
  | .lrdx f rd ra rb => Sys2Proof.Machine.execLrdx f rd ra rb s
  | .lwr f rd ra rb => Sys2Proof.Machine.execLwr f rd ra rb s
  | .lzero f rd ra => Sys2Proof.Machine.execLzero f rd ra s
  | .lflush f rd ra => Sys2Proof.Machine.execLflush f rd ra s
  | .lpin f rd ra => Sys2Proof.Machine.execLpin f rd ra s
  | .lunpin f rd ra => Sys2Proof.Machine.execLunpin f rd ra s
  | .lineOpDone f => Sys2Proof.Machine.execLineOpDone f s
  | .lineOpDeadline f => Sys2Proof.Machine.execLineOpDeadline f s
  | .cusel f rd ra => Sys2Proof.Machine.execCusel f rd ra s
  | .cufeed f ra rb => Sys2Proof.Machine.execCufeed f ra rb s
  | .cuget f rd => Sys2Proof.Machine.execCuget f rd s
  | .cuput f ra => Sys2Proof.Machine.execCuput f ra s
  | .txb f => Sys2Proof.Machine.execTxb f s
  | .txc f rd => Sys2Proof.Machine.execTxc f rd s
  | .txa f => Sys2Proof.Machine.execTxa f s
  | .evwait f rd rs imm => Sys2Proof.Machine.execEvwait f rd rs imm s
  | .evwaitEnd f => Sys2Proof.Machine.execEvwaitEnd f s
  | .evsig f rd code => Sys2Proof.Machine.execEvsig f rd code s
  | .evack f rd rs imm => Sys2Proof.Machine.execEvack f rd rs imm s
  | .time f rd => Sys2Proof.Machine.execTime f rd s
  | .halt f => Sys2Proof.Machine.execHalt f s
  | .yield f imm => Sys2Proof.Machine.execYield f imm s
  | .yieldEnd f => Sys2Proof.Machine.execYieldEnd f s
  | .trap f imm => Sys2Proof.Machine.execTrap f imm s
  | .stepBudgetExhausted f => Sys2Proof.Machine.execStepBudgetExhausted f s
  | .registerWrite p off be vals => Sys2Proof.Machine.execRegisterWrite p off be vals s
  | .rlRead p off => Sys2Proof.Machine.execRlRead p off s
  | .peakReadClear p off => Sys2Proof.Machine.execPeakReadClear p off s
  | .countAckWrite p off v => Sys2Proof.Machine.execCountAckWrite p off v s
  | .evtSrcackWrite p v => Sys2Proof.Machine.execEvtSrcackWrite p v s
  | .eventHoldoffExpiry src => Sys2Proof.Machine.execEventHoldoffExpiry src s
  | .hopFlip p v => Sys2Proof.Machine.execHopFlip p v s
  | .cntClr p v => Sys2Proof.Machine.execCntClr p v s
  | .cuCfgWrite p v => Sys2Proof.Machine.execCuCfgWrite p v s
  | .cuPutHiWrite p v => Sys2Proof.Machine.execCuPutHiWrite p v s
  | .scanGo p raw => Sys2Proof.Machine.execScanGo p raw s
  | .scanStop p => Sys2Proof.Machine.execScanStop p s
  | .scanLine cu => Sys2Proof.Machine.execScanLine cu s
  | .tallyFetch p readable => Sys2Proof.Machine.execTallyFetch p readable s
  | .tallyFlushTimer => Sys2Proof.Machine.execTallyFlushTimer s
  | .seedDataRead p => Sys2Proof.Machine.execSeedDataRead p s
  | .seedDataWrite p v => Sys2Proof.Machine.execSeedDataWrite p v s
  | .seedCommit p => Sys2Proof.Machine.execSeedCommit p s
  | .seedDiscard p => Sys2Proof.Machine.execSeedDiscard p s
  | .seedUnlock p zone write => Sys2Proof.Machine.execSeedUnlock p zone write s
  | .seedRelock p zone write => Sys2Proof.Machine.execSeedRelock p zone write s
  | .seedSetpwd p zone write => Sys2Proof.Machine.execSeedSetpwd p zone write s
  | .seedZclear p zone => Sys2Proof.Machine.execSeedZclear p zone s
  | .seedRecall p => Sys2Proof.Machine.execSeedRecall p s
  | .recallEnd => Sys2Proof.Machine.execRecallEnd s
  | .zoneLockoutEnd zone => Sys2Proof.Machine.execZoneLockoutEnd zone s
  | .seedWriteDone ok => Sys2Proof.Machine.execSeedWriteDone ok s
  | .psdataRead p => Sys2Proof.Machine.execPsdataRead p s
  | .psdataWrite p v => Sys2Proof.Machine.execPsdataWrite p v s
  | .keyLoad slot words => Sys2Proof.Machine.execKeyLoad slot words s
  | .keyClear slot => Sys2Proof.Machine.execKeyClear slot s
  | .cryptoErase slot => Sys2Proof.Machine.execCryptoErase slot s
  | .seamStart eng ctl words => Sys2Proof.Machine.execSeamStart eng ctl words s
  | .seamLineRewrite eng verifyOk => Sys2Proof.Machine.execSeamLineRewrite eng verifyOk s
  | .vinPowerUp mv => Sys2Proof.Machine.execVinPowerUp mv s
  | .aonResetRelease slotId => Sys2Proof.Machine.execAonResetRelease slotId s
  | .railInWindow k => Sys2Proof.Machine.execRailInWindow k s
  | .railBringupTimeout k => Sys2Proof.Machine.execRailBringupTimeout k s
  | .railFallen k => Sys2Proof.Machine.execRailFallen k s
  | .railFault k kind readings => Sys2Proof.Machine.execRailFault k kind readings s
  | .railRetryExpiry k => Sys2Proof.Machine.execRailRetryExpiry k s
  | .pwrRcmdRestart p => Sys2Proof.Machine.execPwrRcmdRestart p s
  | .pcmdM0 => Sys2Proof.Machine.execPcmdM0 s
  | .pcmdM3 => Sys2Proof.Machine.execPcmdM3 s
  | .pcmdM4 => Sys2Proof.Machine.execPcmdM4 s
  | .dozeTimer => Sys2Proof.Machine.execDozeTimer s
  | .wakeComplete => Sys2Proof.Machine.execWakeComplete s
  | .thermalModelUpdate raws devs dies inlet volts pin => Sys2Proof.Machine.execThermalModelUpdate raws devs dies inlet volts pin s
  | .autoRestart => Sys2Proof.Machine.execAutoRestart s
  | .imageLoadDone valid0 valid1 valid2 => Sys2Proof.Machine.execImageLoadDone valid0 valid1 valid2 s
  | .trainingDone hopFail medFail => Sys2Proof.Machine.execTrainingDone hopFail medFail s
  | .extest => Sys2Proof.Machine.execExtest s
  | .idcode => Sys2Proof.Machine.execIdcode s
  | .sample => Sys2Proof.Machine.execSample s
  | .preload v => Sys2Proof.Machine.execPreload v s
  | .clamp => Sys2Proof.Machine.execClamp s
  | .highz => Sys2Proof.Machine.execHighz s
  | .bypass => Sys2Proof.Machine.execBypass s
  | .dbglvl req => Sys2Proof.Machine.execDbglvl req s
  | .dbgacc op word data => Sys2Proof.Machine.execDbgacc op word data s
  | .trstAssert => Sys2Proof.Machine.execTrstAssert s
  | .debugHalt req => Sys2Proof.Machine.execDebugHalt req s
  | .debugStep f => Sys2Proof.Machine.execDebugStep f s
  | .debugScratchAccess write core => Sys2Proof.Machine.execDebugScratchAccess write core s
  | .debugLineRead => Sys2Proof.Machine.execDebugLineRead s
  | .debugRawRead => Sys2Proof.Machine.execDebugRawRead s
  | .debugLineWrite => Sys2Proof.Machine.execDebugLineWrite s
  | .debugFlush => Sys2Proof.Machine.execDebugFlush s
  | .debugPin => Sys2Proof.Machine.execDebugPin s
  | .debugUnpin => Sys2Proof.Machine.execDebugUnpin s
  | .debugLineCmdDone => Sys2Proof.Machine.execDebugLineCmdDone s
  | .dqLenWrite v => Sys2Proof.Machine.execDqLenWrite v s
  | .dqDataAppend v => Sys2Proof.Machine.execDqDataAppend v s
  | .dqSubmit upset => Sys2Proof.Machine.execDqSubmit upset s
  | .hostLinkReplay port flits => Sys2Proof.Machine.execHostLinkReplay port flits s
  | .twinHbInEdge wide => Sys2Proof.Machine.execTwinHbInEdge wide s
  | .lagWarning => Sys2Proof.Machine.execLagWarning s
  | .aonPowerLoss => Sys2Proof.Machine.execAonPowerLoss s
  | .debugMediaHoldExpiry => Sys2Proof.Machine.execDebugMediaHoldExpiry s
  | .illegalWord f => Sys2Proof.Machine.execIllegalWord f s
  | .fetchOutsideArea f => Sys2Proof.Machine.execFetchOutsideArea f s
  | .twinFlit seq ackSeq credits => Sys2Proof.Machine.execTwinFlit seq ackSeq credits s
  | .i3cDynamicAddress addr => Sys2Proof.Machine.execI3cDynamicAddress addr s

end Sys2Proof.Machine
end

