-- ==== Sys2Proof/Safety.lean ====
section
/-!
DEFINITION. What counts as a safe run, and the terms that statements use: a step that goes on, a command's answer, a foreman
that stands before an instruction, the rule of the alert line.
-/

namespace Sys2Proof.Machine

/-- The outcome is a next state. -/
def goesOn (o : Host.Outcome State Fault Refusal) : Prop := ∃ t, o = .next t

/-- A run of `k` steps from `s` meets no fault and no refusal. -/
def safeRun (k : Nat) (s : State) : Prop := ∃ t, Host.Core.run
  { State := State, Fault := Fault, Refusal := Refusal, step := step, reset := State.reset } k s = .next t

/-- The outcome of a command whose own effect turns the module into `m`: the next state, with the queue's rest as it was. `Mod.fin`
is the one function that says, for every command, what the module does at once in consequence. -/
def answers (s : State) (m : Mod) : Host.Outcome State Fault Refusal := .next { s with m := Mod.fin s.m m }

/-- Foreman `f` is free to go on, has steps left, and the word at its program counter is instruction `b` (R254, R260, R262). -/
def Stands (m : Mod) (f : Nat) (b : BOp) : Prop :=
  (m.fm f).ready = true ∧ (m.fm f).spent = false ∧ (m.fetch f).bind bdecode = some b

/-- Foreman `f` executes an instruction that changes its own state by `g` and nothing else: the step is counted, and a halt that
the debug port has asked for takes hold (R284, R373). -/
def fmDoes (m : Mod) (f : Nat) (g : Foreman → Foreman) : Mod := ((m.countStep f).setFm f g).haltHold f

/-- A write to a register takes its place on a path: the path exists with the rights it needs, the block answers, and the path is not
full: the queue has room, nothing waits before it, and the BAR's link is not in L1. -/
def pathTakes (m : Mod) (p : Path) (off : Nat) : Prop :=
  m.pathOk p true off = true ∧ m.reaches off = true ∧ m.pathFull (pathNum p) = false

/-- The module with that write at the end of the path's queue and everything done that can leave the queue; `ok` is what a Tally fetch
or a DQ submission meets. -/
def wrote (m : Mod) (p : Path) (off : Nat) (v : Word) (ok : Bool) : Mod :=
  (m.setPathQ (pathNum p) (fun x => { x with q := x.q ++ [{ idx := off / 4, val := v, ok }] })).pump (pathNum p)

/-- A read completes on a path: the path exists with the rights, no earlier write of the path to the block waits, the block answers, and
the BAR's link is not in L1. -/
def pathGives (m : Mod) (p : Path) (off : Nat) : Prop :=
  m.pathOk p false off = true ∧ m.readWaits (pathNum p) off = false ∧ (m.pathQ (pathNum p)).wait = [] ∧ m.reaches off = true ∧
    m.barAsleep (pathNum p) = false

/-- The module with the word read returned on the path, and what the read does. -/
def gave (m : Mod) (p : Path) (off : Nat) : Mod :=
  (m.readWord (pathNum p) (off / 4)).2.emit (.read p off (m.readWord (pathNum p) (off / 4)).1)

/-- The ALERT_N line as R312 gives it: driven while EVT_CTL.ALERT is applied, no Alert Response has released it, and a source routed to
it is pending; released in M4 and while AON is unpowered or in reset. -/
def alertRule (m : Mod) : Bool :=
  if m.pwr.pstate = 4 || m.pwr.aonReset then false
  else bit (m.w 0 0x110200) 0 && !m.evt.released && m.evt.srcs.any (fun e => e.2.pending && bit (routeOf m e.1) 3)

end Sys2Proof.Machine
end

