-- ==== Sys2Proof/WellFormed.lean ====
section
/-!
DEFINITION. Well-formed commands: the shapes that the outside gives a command whose operands are lists or unbounded
numbers. The module's meaning is total on every command; an ill-formed one is none that its interfaces can carry.
-/

namespace Sys2Proof

/-- A host physical address is below 2^52 and names a whole line (CXL.mem requests carry line addresses, R48). -/
def hpaWf (a : Nat) : Bool := a < 2 ^ 52 && a % 64 = 0

/-- The 32 words of a key slot: K1, K2 and KT, and word 24 the operation (R319); a load lists the first 24. -/
def keyWf (l : List Word) : Bool := l.length = 16 || l.length = 24

/-- Well-formedness of a command. -/
def Instr.wf : Instr → Bool
  | .memRd _ a _ | .memRdData _ a _ | .memSpecRd _ a | .memInv _ a _ _ | .memWr _ a _ _ _ | .memWrPtl _ a _ _ _ _ => hpaWf a
  | .keyLoad _ l => keyWf l
  | .seamStart _ _ l => keyWf l
  | .thermalModelUpdate raws devs dies _ volts _ =>
    raws.length = 12 && devs.length = 27 && dies.length = 200 && volts.length = 24
  | .railFault _ _ l => l.length = 24
  | .readRegisters _ n => 1 ≤ n && n < 65536
  | .writeRegisters _ l => 1 ≤ l.length && l.length < 65536
  | .registerWrite _ off _ l => off < 0x200000 && 1 ≤ l.length
  | .setTimestamp _ ts => ts < 2 ^ 64
  | .submitProgram _ _ _ l _ => l.length < 2 ^ 32
  | .tempBucketChange _ => true
  | _ => true

end Sys2Proof
end

