-- ==== Sys2Proof/Certificates/Slice0/Obligations.lean ====
section
/-!
DEFINITION. The statements for the provers. A completion statement says, for each command it names, the next state that the command
answers wherever its own conditions hold: `answers s m'` is the next state whose module is `m'` with what follows from it at once, and
`m'` is the module before with the command's own effect and nothing else changed, so each such statement is the command's frame too.
-/

open Sys2Proof Sys2Proof.Machine

/-! ### The queue -/

/-- A step takes the front command with the queue's rest; on an empty queue the clock ticks (the model's choice, log entry 20). -/
def Obligations.StepTakesTheFrontCommand : Prop :=
  (∀ (s : State) (c : Instr) (rest : List Instr), s.pending = c :: rest →
    Sys2Proof.core.step s = Sys2Proof.Machine.exec c { s with pending := rest }) ∧
  (∀ s : State, s.pending = [] → Sys2Proof.core.step s = .next (idleTick s))

/-- No command puts a command into the queue or takes one out: after a step the queue is what stood behind its front. -/
def Obligations.StepLeavesTheQueuesRest : Prop :=
  ∀ s t : State, Sys2Proof.Machine.step s = .next t → t.pending = s.pending.tail

/-- A step is never refused, and it stops with a fault exactly on a supply above the absolute maximum rating of 24 V
(R340, R453): every other command in every state has a next state. -/
def Obligations.OnlyOverratedSupplyStopsTheModule : Prop :=
  ∀ s : State, (∀ r, Sys2Proof.Machine.step s ≠ .refused r) ∧
    (∀ e, Sys2Proof.Machine.step s = .fault e ↔
      e = .outsideRatings ∧ ∃ (mv : Nat) (rest : List Instr), s.pending = .vinOvervoltage mv :: rest ∧ 24000 < mv)

/-- R312: after every step, in M4 and without AON too (R429), the alert line is what its rule gives. -/
def Obligations.AlertLineFollowsItsRule : Prop :=
  ∀ s t : State, s.m.evt.alert = alertRule s.m → Sys2Proof.Machine.step s = .next t → t.m.evt.alert = alertRule t.m

/-- The module right after reset: the alert line as its rule gives it, nothing waiting, AON in reset, no key in any slot, no
foreman with a program, the record in the Seed Store "never armed". -/
def Obligations.ResetStateIsQuiet : Prop :=
  State.reset.m.evt.alert = alertRule State.reset.m ∧ State.reset.pending = [] ∧ State.reset.m.pwr.aonReset = true ∧
    State.reset.m.cry.slots = [] ∧ (∀ f, (State.reset.m.fm f).prog = none) ∧ State.reset.m.nv.prec = .never

/-! ### Time and on-chip memories -/

/-- FRAME_BOUNDARY: what is left of the frame passes, with all that falls due in it, and the boundary takes place at the next DTC that is a
multiple of 1,000 (R22). BEACON that is heard and echoed: the island's copy is corrected from the boundary tick on (R18, R19).
TIME_SUSPECT, ISLAND_STALL (R20): recorded; a stall commits Evacuate with cause 4, and while an Evacuate runs AON powers down (R211).
TIME_PLL_ADJUST (R16: at most once per 1 ms; the count stays), DTC_SAVE (R17, R176), KEY_SLOT_DESTROY with no user of the key left (R24),
BACKGROUND_TEST_REGION of a region that passes (R30). -/
def Obligations.TimeAndClockCommandsAnswer : Prop :=
  (∀ s : State, s.m.pwr.aonReset = false →
    exec .frameBoundary s = answers s (s.m.pass (s.m.nextB - 1)).frameBoundary.expire ∧
    s.m.nextB = (s.m.time.dtc / 1000 + 1) * 1000 ∧ s.m.toBoundary.time.dtc = s.m.nextB ∧
    (∀ (i : Fin 41) (drift : Int), s.m.pwr.phase ≠ 0 → (s.m.isl i).missed = 0 → -2 ≤ drift → drift ≤ 2 →
      exec (.beacon i drift true true) s = answers s (s.m.setIsl i (fun x => { x with
        off := drift, fixing := false, slew := true, missed := 0, echoMissed := 0, suspect := false }))) ∧
    (∀ i : Fin 41, (s.m.isl i).suspect = false → exec (.timeSuspect i) s = answers s
      (((s.m.setIsl i (fun x => { x with suspect := true })).bump cTime).timeRec i 1 (s.m.isl i).missed)) ∧
    (∀ i : Fin 41, (s.m.isl i).stalled = false →
      (let stalled := ((s.m.setIsl i (fun x => { x with stalled := true })).bump cTime).timeRec i 2 (s.m.isl i).echoMissed
       (s.m.per.evac.isSome = true → exec (.islandStall i) s = answers s (stalled.powerDown .m4)) ∧
       (s.m.per.evac = none → (stalled.evacCommit 4).per.evac = none → exec (.islandStall i) s = answers s (stalled.evacCommit 4)) ∧
       (s.m.per.evac = none → (stalled.evacCommit 4).per.evac.isSome = true →
         exec (.islandStall i) s = answers s ((stalled.evacCommit 4).evacIsl i))))) ∧
  (∀ s : State,
    (∀ ppb : Int, s.m.pwr.aonReset = false → (∀ t, s.m.time.lastAdj = some t → t + 1000000 ≤ s.m.time.dtc) →
      exec (.timePllAdjust ppb) s = answers s { s.m with time := { s.m.time with ppb := ppb, lastAdj := some s.m.time.dtc } }) ∧
    (∀ (ppb : Int) (t : Nat), s.m.time.lastAdj = some t → s.m.time.dtc < t + 1000000 →
      exec (.timePllAdjust ppb) s = answers s s.m) ∧
    (s.m.pwr.aonReset = false → s.m.pwr.phase ≠ 0 → exec .dtcSave s = answers s
      (let m := s.m.saveDtc
       if m.pwr.phase = 4 || m.pwr.phase = 5 then { m with fb := { m.fb with witness := m.fb.witness ++ [m.ms] } } else m)) ∧
    (∀ (n : Fin 4098) (b : Nat) (k : Slot), s.m.cry.linger.find? (fun x => x.1 = n.val) = some (n.val, b, k) → s.m.host.reqs = [] →
      s.m.hop.merge = [] → exec (.keySlotDestroy n) s =
        answers s { s.m with cry := { s.m.cry with linger := s.m.cry.linger.filter (fun y => y.1 != n.val) } }) ∧
    (∀ mem : Fin 16, s.m.coreOn = true → bits (s.m.w mem 0x120004) 6 0 ≠ 0 → (s.m.scr mem).next + 1 ≠ scrRegions mem →
      (s.m.scr mem).failed = false →
      exec (.backgroundTestRegion mem false) s = answers s
        (s.m.setScr mem (fun x => { x with region := (s.m.scr mem).next, next := (s.m.scr mem).next + 1 }))))

/-! ### Host ports -/

/-- LINK_TRAINED, LINK_RECOVERY_OR_DOWN, LINK_RETURN_L0, ASPM_L1_ENTRY, ASPM_L1_EXIT (R36, R39, R41, R292, R352).
PERST_ASSERT, PERST_DEASSERT, FUNCTION_LEVEL_RESET, MEMORY_SPACE_ENABLE, HDM_DECODER_COMMIT (R40, R46, R308, R444; of an LD
function's reset the model holds Memory Space Enable alone, and a decoder of size 0 may be committed: log entries 26 and 27).
RESPONSE_BOUND_DISCARD: time passes until the held response's bound has passed, and there the response is discarded: it is counted, and
every LD of the port whose host has enabled viral enters it (R39); where nothing else falls due before, that is all that happens.
HOST_LINK_REPLAY, M2S_PROTOCOL_ERROR, GPF_PHASE1, GPF_PHASE2, GPF_PHASE2_CLEANED (R39, R48, R56). -/
def Obligations.HostPortCommandsAnswer : Prop :=
  (∀ (s : State) (p : Fin 16),
    (∀ t : Trained, s.m.linksOn = true → (s.m.port p).perst = false → (s.m.port p).link = .training →
      exec (.linkTrained p (some t)) s =
        answers s ((s.m.setPort p (fun x => { x with width := t.width, rate := t.rate, reversed := t.reversed })).linkUpL0 p)) ∧
    (s.m.linksOn = true → (s.m.port p).perst = false → (s.m.port p).link = .training →
      exec (.linkTrained p none) s = answers s (s.m.setPort p (fun x => { x with link := .down }))) ∧
    ((s.m.port p).link = .l0 → exec (.linkRecoveryOrDown p false) s =
      answers s (s.m.setPort p (fun x => { x with link := .recovery, retrain := x.retrain + 1 }))) ∧
    ((s.m.port p).link = .recovery → s.m.linksOn = true → s.m.pwr.pstate ≠ 2 →
      (∀ t : Trained, exec (.linkTrained p (some t)) s =
        answers s ((s.m.setPort p (fun x => { x with width := t.width, rate := t.rate, reversed := t.reversed })).linkUpL0 p)) ∧
      exec (.linkTrained p none) s = answers s (s.m.linkDown p)) ∧
    ((s.m.port p).link ≠ .down → exec (.linkRecoveryOrDown p true) s =
      answers s (((s.m.dropPort p).barDrop p).setPort p (fun x => { x with
        link := .down, reqCr := 0, rwdCr := 0, pacedReq := 0, pacedRwd := 0, gpfWait := false,
        retrain := if x.link = .l0 then x.retrain + 1 else x.retrain }))) ∧
    ((s.m.port p).link = .recovery → s.m.pwr.pstate ≠ 2 → s.m.linksOn = true →
      exec (.linkReturnL0 p) s = answers s (s.m.linkUpL0 p)) ∧
    ((s.m.port p).link = .l0 → (∀ r ∈ s.m.host.reqs, r.lp / 16 ≠ p) → (∀ h ∈ s.m.host.held, h.req.lp / 16 ≠ p) →
      exec (.aspmL1Entry p) s = answers s (s.m.setPort p (fun x => { x with link := .l1 }))) ∧
    ((s.m.port p).link = .l1 → s.m.pwr.pstate ≠ 2 → exec (.aspmL1Exit p) s = answers s (s.m.linkUpL0 p)) ∧
    ((s.m.port p).link = .l1 → s.m.pwr.pstate = 2 → exec (.aspmL1Exit p) s =
      answers s (Mod.setPort { s.m with pwr := { s.m.pwr with waking := true } } p (fun x => { x with link := .recovery })))) ∧
  (∀ s : State,
    (∀ p : Fin 16, exec (.perstAssert p) s = answers s
      (let m := ((List.range 16).map (16 * p.val + ·) ++ [256 + p.val]).foldl (fun (m : Mod) l =>
         m.setLp l (fun x => { x with hdm := [], evPolicy := 0, viral := false, viralEn := false, enabled := false }))
         (((s.m.linkDown p).dropHeld p).setPort p (fun x => { x with perst := true }))
       if p.val = m.path.ctlPort then m.setMaster 0 (fun a => { a with sel := [], shadow := 0, tag := none }) else m)) ∧
    (∀ p : Fin 16, (s.m.port p).perst = true → s.m.linksOn = true → exec (.perstDeassert p) s = answers s
      (s.m.setPort p (fun x => { x with perst := false, link := .training }))) ∧
    (∀ lp : Fin 256, exec (.functionLevelReset lp) s = answers s (s.m.setLp lp (fun x => { x with enabled := false }))) ∧
    (∀ (lp : Fin 256) (viral : Bool), (s.m.port (lp / 16)).link = .l0 → (s.m.lp lp).enabled = false →
      ((s.m.src lp).pending = false → exec (.memorySpaceEnable ⟨lp, viral⟩) s =
        answers s (s.m.setLp lp (fun x => { x with enabled := true, viralEn := viral }))) ∧
      ((s.m.src lp).pending = true → (s.m.src lp).done.testBit 0 = false → exec (.memorySpaceEnable ⟨lp, viral⟩) s =
        answers s ((s.m.setLp lp (fun x => { x with enabled := true, viralEn := viral })).produce lp 1))) ∧
    (∀ (lp : Fin 256) (dec : Fin 4) (base size : Nat) (ways : Fin 4) (gran : Fin 7) (pos : Fin 8) (skip : Nat),
      pos.val < 2 ^ ways.val → base % 0x10000000 = 0 → size % (0x10000000 * 2 ^ ways.val) = 0 → (s.m.port (lp / 16)).link = .l0 →
      exec (.hdmDecoderCommit lp dec base size ways gran pos skip) s = answers s (s.m.setLp lp (fun x => { x with
        hdm := tput none x.hdm dec (some { base, size, ways := 2 ^ ways.val, gran := 256 * 2 ^ gran.val, pos, skip }) })))) ∧
  (∀ s : State,
    (∀ (p : Fin 16) (n : Nat), (s.m.port p).link = .l0 → exec (.hostLinkReplay p n) s =
      answers s (s.m.setPort p (fun x => { x with replay := x.replay + n }))) ∧
    (∀ lp : Fin 256, (s.m.port (lp / 16)).link = .l0 → exec (.m2sProtocolError lp) s =
      answers s ((s.m.setAux lp (fun a => { a with proto := a.proto + 1 })).emit (.aer lp))) ∧
    (∀ (id : Nat) (h : Held), s.m.host.held.find? (fun h => h.req.id = id) = some h →
      exec (.responseBoundDiscard id) s = answers s (s.m.passUntil (h.req.deadline + 1)) ∧
      (h.req.deadline < s.m.time.dtc → s.m.heldDiscard id =
        (let p := h.req.lp / 16
         let m : Mod := { s.m with host := { s.m.host with held := s.m.host.held.filter (fun x => x.req.id != id) } }
         let m := if h.req.free then m else m.setLp h.req.lp (fun l => l.countReq h.req.cls h.req.demoted (· - 1))
         ((List.range 16).foldl (fun (m : Mod) d => m.setLp (16 * p + d) (fun l => { l with viral := l.viral || l.viralEn })) m).bump
           (cLdisc p))) ∧
      (s.m.pwr.aonReset = false → s.m.host.held = [h] → s.m.host.reqs = [] → s.m.lineAskers = [] → s.m.cry.linger = [] →
        s.m.twin.recs = [] → s.m.med.reads = [] → s.m.time.dtc ≤ h.req.deadline → h.req.deadline + 1 < s.m.nextB →
        exec (.responseBoundDiscard id) s = answers s ((s.m.clockTo (h.req.deadline + 1)).heldDiscard id))) ∧
    (∀ p : Fin 16, (s.m.port p).link = .l0 → exec (.gpfPhase1 p) s = answers s (s.m.emit (.gpfDone p 1))) ∧
    (∀ p : Fin 16, (s.m.port p).link = .l0 → s.m.per.budget ≠ 0 → exec (.gpfPhase2 p) s = answers s (s.m.emit (.gpfDone p 2))) ∧
    (∀ p : Fin 16, (s.m.port p).link = .l0 → s.m.per.budget = 0 → exec (.gpfPhase2 p) s =
      answers s (s.m.setPort p (fun x => { x with gpfWait := true }))) ∧
    (∀ p : Fin 16, (s.m.port p).gpfWait = true → (∀ e ∈ s.m.hop.frames, e.2.d = false ∨ e.2.imgHeld = true) → s.m.hop.pwq = [] →
      (∀ e ∈ s.m.hop.merge, e.acked = false) → exec (.gpfPhase2Cleaned p) s =
        answers s ((s.m.setPort p (fun x => { x with gpfWait := false })).emit (.gpfDone p 2))))

/-! ### CXL.mem -/

/-- MEMSPECRD completes with no effect in every state (R48). A request whose address maps to nothing, or to a region whose home has moved to
the twin (the model's reading, log entry 116), completes at once (R47, R48): it takes its credit, is counted, is stamped with the bound of
240 ns, and is answered: MEMRD and MEMRDDATA with poison, MEMINV, MEMWR and MEMWRPTL with a completion, a write's data being discarded. -/
def Obligations.UnmappedRequestsAreAnswered : Prop :=
  ∀ (s : State) (lp : Fin 256) (hpa : Nat) (tag : BitVec 16) (d : Line) (be : Dword) (psn nt : Bool) (chk : Checks),
    exec (.memSpecRd lp hpa) s = answers s s.m ∧
    (s.m.canStamp lp = true →
      (let c := s.m.takeCredit lp false
       let away : Prop := c.decodeHpa lp hpa = none ∨ ∃ n, c.decodeHpa lp hpa = some n ∧ c.notHome (c.regOfLine n) = true
       (let x := (c.bump (cUnmap lp)).stampUnmapped lp .read tag.toNat
        (away → exec (.memRd lp hpa ⟨tag, chk⟩) s = answers s (x.2.respond x.1 (some .poison)) ∧
          exec (.memRdData lp hpa ⟨tag, chk⟩) s = answers s (x.2.respond x.1 (some .poison))) ∧
        x.1.op = .read ∧ x.1.lp = lp ∧ x.1.htag = tag.toNat ∧ x.1.free = true ∧ x.1.bound = 240 + (c.bump (cUnmap lp)).linkAdd lp) ∧
       (let x := (c.bump (cUnmap lp)).stampUnmapped lp .inv tag.toNat
        away → exec (.memInv lp hpa tag nt) s = answers s (x.2.respond x.1 none))) ∧
      (let c := s.m.takeCredit lp true
       let away : Prop := c.decodeHpa lp hpa = none ∨ ∃ n, c.decodeHpa lp hpa = some n ∧ c.notHome (c.regOfLine n) = true
       away →
        (let x := (c.bump (cUnmap lp)).stampUnmapped lp .write tag.toNat
         exec (.memWr lp hpa tag d psn) s = answers s (x.2.respond x.1 none)) ∧
        (let x := (c.bump (cUnmap lp)).stampUnmapped lp .ptl tag.toNat
         exec (.memWrPtl lp hpa tag d be psn) s = answers s (x.2.respond x.1 none)))) ∧
    (s.m.canStamp lp = false →
      exec (.memRd lp hpa ⟨tag, chk⟩) s = answers s s.m ∧ exec (.memRdData lp hpa ⟨tag, chk⟩) s = answers s s.m ∧
      exec (.memInv lp hpa tag nt) s = answers s s.m ∧ exec (.memWr lp hpa tag d psn) s = answers s s.m ∧
      exec (.memWrPtl lp hpa tag d be psn) s = answers s s.m)

/-- A mapped request of a region at home takes its credit, is stamped, classified and admitted, and is served (R24, R27, R48, R50, R72, R96):
MEMRD and MEMRDDATA see what stands before them, and where nothing does, a resident line is read at its frame; a double-bit error of a
memory word that the read looks at poisons it; MEMINV is completed; MEMWR is placed with its data, or completed and discarded where the
region bars it; MEMWRPTL is laid into a merge entry under its byte mask, or waits behind an earlier full write of its line. -/
def Obligations.MappedRequestsAreServed : Prop :=
  ∀ (s : State) (lp : Fin 256) (hpa n : Nat) (tag : BitVec 16) (d : Line) (be : Dword) (psn nt : Bool), s.m.canStamp lp = true →
    (let c := s.m.takeCredit lp false
     c.decodeHpa lp hpa = some n → c.notHome (c.regOfLine n) = false →
      (let x := c.stampReq lp .read tag.toNat n (c.regOfLine n) 0 0 false
       exec (.memRd lp hpa ⟨tag, {}⟩) s = answers s (x.2.serveRead x.1.1 x.1.2) ∧
       exec (.memRdData lp hpa ⟨tag, {}⟩) s = answers s (x.2.serveRead x.1.1 x.1.2) ∧
       x.1.1.op = .read ∧ x.1.1.line = n ∧ x.1.1.lp = lp ∧ x.1.1.htag = tag.toNat ∧
       (∀ chk : Checks, chk.dir = .double →
         (let m := (x.2.readChecks x.1.1 chk).foldl (fun m e => m.eccMeets e.1 (x.1.1.line / 64) e.2) x.2
          exec (.memRd lp hpa ⟨tag, chk⟩) s = answers s (m.respond x.1.1 (some .poison)) ∧
          exec (.memRdData lp hpa ⟨tag, chk⟩) s = answers s (m.respond x.1.1 (some .poison)))) ∧
       (∀ f : Nat, x.2.laid n = (0, 0) → x.1.1.security < 2 → x.2.wayOf (n / 64) = some f → (x.2.frame f).f = false →
         (let r : Req := { x.1.1 with mask := 0, data := 0, cell := none }
          let m := (x.2.setReq r.id (fun _ => r)).happen 0x06 1
          m.poisonAhead n r.id = false → m.findLine (n / 64) (n % 64) = some f →
          (x.2.serveRead x.1.1 x.1.2) = (m.setReq r.id (fun y => { y with step := 5 })).access (.req r.id) f n false))) ∧
      (let x := c.stampReq lp .inv tag.toNat n (c.regOfLine n) 0 0 false
       exec (.memInv lp hpa tag nt) s = answers s (x.2.respond x.1.1 none))) ∧
    (let c := s.m.takeCredit lp true
     c.decodeHpa lp hpa = some n → c.notHome (c.regOfLine n) = false →
      (let x := c.stampReq lp .write tag.toNat n (c.regOfLine n) d (~~~ 0) psn
       exec (.memWr lp hpa tag d psn) s = answers s (x.2.serveWrite x.1.1) ∧ x.1.1.data = d ∧ x.1.1.wpoison = psn ∧ x.1.1.line = n ∧
       (let m := x.2.happen (if (match x.2.wayOf (n / 64) with | some f => !(x.2.frame f).f | none => false) then 0x06 else 0x07) 1
        (m.discardWhy x.1.1 = none → x.2.serveWrite x.1.1 = m.placeWrite x.1.1) ∧
        (∀ w : Nat, m.discardWhy x.1.1 = some w → x.2.serveWrite x.1.1 = (m.countDiscard lp x.1.1.region w).respond x.1.1 none))) ∧
      (let x := c.stampReq lp .ptl tag.toNat n (c.regOfLine n) d be psn
       exec (.memWrPtl lp hpa tag d be psn) s = answers s (x.2.servePtl x.1.1 x.1.2) ∧ x.1.1.data = d ∧ x.1.1.mask = be ∧ x.1.1.line = n ∧
       (let m := x.2.happen (if (match x.2.wayOf (n / 64) with | some f => !(x.2.frame f).f | none => false) then 0x06 else 0x07) 1
        (m.discardWhy x.1.1 = none → m.fullAhead n x.1.1.id = false → psn = false → m.poisoned n = false →
          x.2.servePtl x.1.1 x.1.2 = m.openMerge x.1.1 x.1.2) ∧
        (m.discardWhy x.1.1 = none → m.fullAhead n x.1.1.id = true → x.2.servePtl x.1.1 x.1.2 = m.ptlWait x.1.1) ∧
        (∀ w : Nat, m.discardWhy x.1.1 = some w → x.2.servePtl x.1.1 x.1.2 = (m.countDiscard lp x.1.1.region w).respond x.1.1 none))))

/-- DEADLINE_POISON and SYNC_ACK_LATE of an outstanding request: time passes to the request's deadline, and to 20 ns before it, with all that
falls due on the way (R84, R224). At 20 ns before its deadline a read is counted and recorded, and is due to be answered with poison; a write
is counted, discarded and leaves its LD viral where the host has enabled it; a Sync write whose ACK is missing breaks the pair. A read's
poisoned response leaves at the deadline. Where nothing but a read falls due before the boundary, the command does that and nothing else. -/
def Obligations.LateRequestCommandsAnswer : Prop :=
  ∀ (s : State) (id : Nat) (r : Req), s.m.reqById id = some r →
    exec (.deadlinePoison id) s = answers s (s.m.passUntil r.deadline) ∧
    (r.waitMsn.isSome = true → exec (.syncAckLate id) s = answers s (s.m.passUntil (r.deadline - 20))) ∧
    (r.waitMsn = none → exec (.syncAckLate id) s = answers s s.m) ∧
    (let k : Nat := match r.cls with | .tight => 0 | .pinned => 1 | .standard => 2 | .bulk => 3
     let m := ((s.m.bump (cDpo r.lp)).happen 0x05 1).tally 6 r.lp (r.lp / 16) (leBytes 1 k ++ leBytes 1 r.op.isWrite.toNat ++
       leBytes 8 (r.line * 64) ++ leBytes 1 (s.m.lateStep r))
     (r.op.isWrite = false → s.m.poisonReq r = m.setReq r.id (fun x => { x with late := true, answer := some .poison })) ∧
     (r.op.isWrite = true → s.m.poisonReq r = ((m.dropReq r).setLp r.lp (fun l => { l with viral := l.viral || l.viralEn })).setAux r.lp
       (fun a => { a with wrLost := a.wrLost ++ [(m.occ (cDpo r.lp)).cnt % 2 ^ 32] }))) ∧
    (s.m.twin.pair = .paired → s.m.breakPair 2 = (s.m.breakCore 2).lineCovered (fun _ => true)) ∧
    (s.m.pwr.aonReset = false → s.m.host.reqs = [r] → r.id = id → r.op = .read → r.waitMsn = none → s.m.host.held = [] →
      s.m.lineAskers = [] → s.m.cry.linger = [] → s.m.twin.recs = [] → s.m.med.reads = [] → s.m.time.dtc + 20 < r.deadline →
      r.deadline < s.m.nextB → exec (.deadlinePoison id) s = answers s
        (let m := ((s.m.clockTo (r.deadline - 20)).poisonReq r).clockTo r.deadline
         m.respond { r with late := true, answer := some .poison } (some .poison)))

/-! ### Mailboxes -/

/-- R59, R60: on every mailbox whose link is up, commands that are not offered there return Unsupported, vendor control on a host
LD's mailbox among them, and nothing else changes; before programs are accepted the others return Busy. -/
def Obligations.MailboxRefusalCodesAreReturned : Prop :=
  ∀ (s : State) (l : Fin 256) (b : Mbox), s.m.mboxUp (.ld l) = true → s.m.mboxUp b = true →
    (∀ (ts first count : Nat) (e st t : Word) (ws : List Word) (u v : Bool) (p : Nat) (ep : Dword) (port n0 : Fin 16) (n : Fin 3)
        (r : List (Nat × Nat)) (qv : BitVec 64),
      exec (.setTimestamp (.ld l) ts) s = answers s (s.m.emit (.mailbox (.ld l) 3 [])) ∧
      exec (.submitProgram (.ld l) e st ws u) s = answers s (s.m.emit (.mailbox (.ld l) 3 [])) ∧
      exec (.getProgramResult (.ld l) t) s = answers s (s.m.emit (.mailbox (.ld l) 3 [])) ∧
      exec (.readPlates (.ld l) e count) s = answers s (s.m.emit (.mailbox (.ld l) 3 [])) ∧
      exec (.setControlPort (.ld l) p) s = answers s (s.m.emit (.mailbox (.ld l) 3 [])) ∧
      exec (.twinTakeover (.ld l) ep first count) s = answers s (s.m.emit (.mailbox (.ld l) 3 [])) ∧
      exec (.setLdAllocations (.ld l) port n0 r) s = answers s (s.m.emit (.mailbox (.ld l) 3 [])) ∧
      exec (.setQosControl (.ld l) port qv) s = answers s (s.m.emit (.mailbox (.ld l) 3 [])) ∧
      exec (.transferFw (.ld l) n e v) s = answers s (s.m.emit (.mailbox (.ld l) 3 [])) ∧
      exec (.activateFw (.ld l) n v) s = answers s (s.m.emit (.mailbox (.ld l) 3 []))) ∧
    (∀ (dpa len : Nat) (d : Line) (first acc : Nat) (y : Bool), isLd b = false →
      exec (.getPoisonList b dpa len) s = answers s (s.m.emit (.mailbox b 3 [])) ∧
      exec (.injectPoison b dpa) s = answers s (s.m.emit (.mailbox b 3 [])) ∧
      exec (.clearPoison b dpa d) s = answers s (s.m.emit (.mailbox b 3 [])) ∧
      exec (.addDcResponse b first y) s = answers s (s.m.emit (.mailbox b 3 [])) ∧
      exec (.releaseDc b acc) s = answers s (s.m.emit (.mailbox b 3 []))) ∧
    (s.m.fore.ready = false →
      exec (.identifyMemoryDevice (.ld l)) s = answers s (s.m.emit (.mailbox (.ld l) 6 [])) ∧
      exec (.getShutdownState (.ld l)) s = answers s (s.m.emit (.mailbox (.ld l) 6 [])) ∧
      exec (.getPersistenceStatus (.ld l)) s = answers s (s.m.emit (.mailbox (.ld l) 6 [])))

/-- GET_EVENT_INTERRUPT_POLICY, SET_EVENT_INTERRUPT_POLICY, GET_TIMESTAMP, SET_TIMESTAMP, GET_SUPPORTED_LOGS, GET_LOG: what each
returns and the one value that a Set changes (R58, R59; the logs' identifiers and contents are open values, and a length above one
payload is Invalid Input by the model's choice, log entry 90).
GET_EVENT_RECORDS and CLEAR_EVENT_RECORDS (R58, R312): a log's records are returned with its overflow indication, and clearing all of them
empties it; an emptied log has no overflow indication.
IDENTIFY_MEMORY_DEVICE, GET_PARTITION_INFO, GET_HEALTH_INFO, GET_ALERT_CONFIGURATION, SET_ALERT_CONFIGURATION, GET_SHUTDOWN_STATE,
SET_SHUTDOWN_STATE (R53, R57, R163): capacities are the LD's granules of 1 GiB, the dirty shutdown count is the module's, and a
Set changes the one value it names. -/
def Obligations.InformationMailboxCommandsAnswer : Prop :=
  (∀ (s : State) (l : Fin 256) (p : Fin 16),
    (s.m.mboxUp (.ld l) = true → s.m.fore.ready = true →
      exec (.getEventInterruptPolicy (.ld l)) s = answers s (s.m.emit (.mailbox (.ld l) 0 [⟨4, (s.m.lp l).evPolicy.toNat⟩])) ∧
      ∀ v : BitVec 32, exec (.setEventInterruptPolicy (.ld l) v) s =
        answers s ((s.m.setLp l (fun x => { x with evPolicy := v })).emit (.mailbox (.ld l) 0 []))) ∧
    (s.m.mboxUp (.ld l) = true →
      exec (.getTimestamp (.ld l)) s = answers s (s.m.emit (.mailbox (.ld l) 0 [⟨8, s.m.cxlTime⟩])) ∧
      exec (.getSupportedLogs (.ld l)) s =
        answers s (s.m.emit (.mailbox (.ld l) 0 [⟨2, 2⟩, ⟨16, Config.cxlField 0x0400 0⟩, ⟨16, Config.cxlField 0x0400 1⟩])) ∧
      ∀ (v : Bool) (off len : Nat),
        (len ≤ 8192 → exec (.getLog (.ld l) v off len) s =
          answers s (s.m.emit (.mailbox (.ld l) 0 [⟨len, Config.cxlField (0x0401 + 0x10000 * v.toNat) off⟩]))) ∧
        (8192 < len → exec (.getLog (.ld l) v off len) s = answers s (s.m.emit (.mailbox (.ld l) 2 [])))) ∧
    (s.m.mboxUp (.fmld p) = true → ∀ ts : Nat, exec (.setTimestamp (.fmld p) ts) s =
      answers s (Mod.emit { s.m with time := { s.m.time with stampBase := ts, stampAt := s.m.time.dtc } } (.mailbox (.fmld p) 0 [])))) ∧
  (∀ (s : State) (l : Fin 256) (k : LogKind), s.m.mboxUp (.ld l) = true → s.m.fore.ready = true →
    (exec (.getEventRecords (.ld l) k) s = answers s (s.m.emit (.mailbox (.ld l) 0
      (let e := s.m.evLog (mboxLog (.ld l) k)
       [⟨1, e.ovf.toNat + 2 * (decide (63 < e.recs.length)).toNat⟩, ⟨2, e.overCount⟩, ⟨8, e.overFirst⟩, ⟨8, e.overLast⟩,
        ⟨2, min 63 e.recs.length⟩] ++ (e.recs.take 63).flatMap EvRec.flds)))) ∧
    (∀ hs : List Nat, exec (.clearEventRecords (.ld l) k true hs) s = answers s
      (let e : EvLog := { next := (s.m.evLog (mboxLog (.ld l) k)).next }
       Mod.emit { s.m with host := { s.m.host with logs := tput {} s.m.host.logs (mboxLog (.ld l) k) e } } (.mailbox (.ld l) 0 [])))) ∧
  (∀ (s : State) (l : Fin 256), s.m.mboxUp (.ld l) = true → s.m.fore.ready = true →
    exec (.identifyMemoryDevice (.ld l)) s = answers s (s.m.emit (.mailbox (.ld l) 0
      [⟨8, ((s.m.lp l).static + (s.m.lp l).dcLen) * 2 ^ 30⟩, ⟨8, 0⟩, ⟨8, (s.m.lp l).static * 2 ^ 30⟩])) ∧
    exec (.getPartitionInfo (.ld l)) s = answers s (s.m.emit (.mailbox (.ld l) 0 [⟨8, 0⟩, ⟨8, (s.m.lp l).static * 2 ^ 30⟩])) ∧
    (4 ≤ s.m.pwr.phase → exec (.getHealthInfo (.ld l)) s = answers s (s.m.emit (.mailbox (.ld l) 0
      [⟨1, Config.cxlField 0x4200 0⟩, ⟨1, min 100 (s.m.endurUsed / 100)⟩, ⟨4, s.m.nv.dsc⟩]))) ∧
    exec (.getAlertConfiguration (.ld l)) s = answers s (s.m.emit (.mailbox (.ld l) 0 [⟨12, (s.m.lp l).alertCfg.toNat⟩])) ∧
    (∀ v : BitVec 96, exec (.setAlertConfiguration (.ld l) v) s =
      answers s ((s.m.setLp l (fun x => { x with alertCfg := v })).emit (.mailbox (.ld l) 0 []))) ∧
    exec (.getShutdownState (.ld l)) s = answers s (s.m.emit (.mailbox (.ld l) 0 [⟨1, (s.m.lp l).shutDirty.toNat⟩])) ∧
    (∀ v : Bool, exec (.setShutdownState (.ld l) v) s =
      answers s ((s.m.setLp l (fun x => { x with shutDirty := v })).emit (.mailbox (.ld l) 0 []))))

/-- GET_POISON_LIST, INJECT_POISON, CLEAR_POISON (R54, R55): the list with its overflow flag at 4,096 lines, in payloads of 909 lines (the
model's layout, log entry 90); injection marks the line with an external source (the model's choice, log entry 28); a clear writes the
given data over the whole line and takes its mark away, one that the region bars is counted and changes no line, and one that finds no
place or no key returns Busy (the model's choice, log entry 93). -/
def Obligations.PoisonMailboxCommandsAnswer : Prop :=
  ∀ (s : State) (l : Fin 256), s.m.mboxUp (.ld l) = true → s.m.fore.ready = true →
    (4 ≤ s.m.pwr.phase → ∀ dpa len : Nat,
      (let x := s.m.poisonIn l (dpa / 64) len
       let all : List (List Fld) := (x.take 4096).map (fun e => [⟨8, 64 * e.1⟩, ⟨1, if e.2 then 1 else 2⟩])
       exec (.getPoisonList (.ld l) dpa len) s = answers s (s.m.replyParts (.ld l) 909
         (fun more n => [⟨1, (decide (4096 < x.length)).toNat + 2 * more.toNat⟩, ⟨2, n⟩]) all) ∧
       (x.length ≤ 909 → exec (.getPoisonList (.ld l) dpa len) s =
         answers s (s.m.emit (.mailbox (.ld l) 0 ([⟨1, 0⟩, ⟨2, x.length⟩] ++ all.flatten)))))) ∧
    (bit (s.m.w l 0x10048) 0 = true → ∀ (dpa n : Nat), s.m.dpaLine l dpa = some n →
      exec (.injectPoison (.ld l) dpa) s = answers s ((s.m.mark n true).emit (.mailbox (.ld l) 0 [])) ∧
      ∀ d : Line,
        (let reg := s.m.regionOfPage (n / 64)
         (∀ why : Nat, s.m.writeBar reg (s.m.secOf reg) = some why →
           exec (.clearPoison (.ld l) dpa d) s = answers s ((s.m.countDiscard l reg why).emit (.mailbox (.ld l) 0 []))) ∧
         (s.m.writeBar reg (s.m.secOf reg) = none →
           (s.m.keyFor reg n = none → exec (.clearPoison (.ld l) dpa d) s = answers s (s.m.emit (.mailbox (.ld l) 6 []))) ∧
           ∀ k : KeyUse, s.m.keyFor reg n = some k →
             (s.m.place (n / 64) (n % 64) (s.m.seal reg n k d) false (s.m.tagged reg) = none →
               exec (.clearPoison (.ld l) dpa d) s = answers s (s.m.emit (.mailbox (.ld l) 6 []))) ∧
             (∀ m' : Mod, s.m.place (n / 64) (n % 64) (s.m.seal reg n k d) false (s.m.tagged reg) = some m' →
               exec (.clearPoison (.ld l) dpa d) s = answers s
                 (let x := (m'.unmark n).mirror reg n k.gen (s.m.seal reg n k d).ct false (rMirror (m'.rw0 reg) = 1) (m'.tagged reg) none none
                  ((x.2.dropMerge n x.1).supersede n x.2.host.nextReq).emit (.mailbox (.ld l) 0 [])))))) ∧
    (bit (s.m.w l 0x10048) 0 = false → ∀ (dpa : Nat) (d : Line),
      exec (.injectPoison (.ld l) dpa) s = answers s (s.m.emit (.mailbox (.ld l) 3 [])) ∧
      exec (.clearPoison (.ld l) dpa d) s = answers s (s.m.emit (.mailbox (.ld l) 3 [])))

/-- GET_DC_CONFIG, GET_DC_EXTENT_LIST, ADD_DC_RESPONSE, RELEASE_DC (R53): the extents in payloads of 511 (the model's layout, log entry 90); a
response settles the offer it names, an accepted extent and a release take effect at the next boundary; an extent that can no longer be
held is not accepted (the model's choice, log entry 88).
GET_DC_REGION_CONFIG, INITIATE_DC_ADD, INITIATE_DC_RELEASE, FORCED_DC_RELEASE on the FM-owned LD of the LD's own port (R53). -/
def Obligations.DynamicCapacityCommandsAnswer : Prop :=
  (∀ (s : State) (l : Fin 256), s.m.mboxUp (.ld l) = true → s.m.fore.ready = true →
    exec (.getDcConfig (.ld l)) s = answers s (s.m.emit (.mailbox (.ld l) 0
      [⟨8, (s.m.lp l).static * 2 ^ 30⟩, ⟨8, (s.m.lp l).dcLen * 2 ^ 30⟩, ⟨8, 2 ^ 30⟩, ⟨2, (s.m.extents l).length⟩,
       ⟨2, 512 - (s.m.extents l).length⟩])) ∧
    (∀ lp : Fin 256,
      (let all : List (List Fld) := (s.m.extents l).map (fun e => [⟨8, e.dpa * 2 ^ 30⟩, ⟨8, e.count * 2 ^ 30⟩])
       exec (.getDcExtentList (.ld l) lp) s = answers s (s.m.replyParts (.ld l) 511 (fun more n => [⟨1, more.toNat⟩, ⟨2, n⟩]) all) ∧
       ((s.m.extents l).length ≤ 511 → exec (.getDcExtentList (.ld l) lp) s =
         answers s (s.m.emit (.mailbox (.ld l) 0 ([⟨1, 0⟩, ⟨2, (s.m.extents l).length⟩] ++ all.flatten)))))) ∧
    (∀ (dpa : Nat) (x : Extent), (s.m.lp l).offers.find? (fun x => x.dpa = dpa) = some x →
      (s.m.extentLies l x = true → exec (.addDcResponse (.ld l) dpa true) s = answers s ((s.m.setLp l (fun y =>
        { y with offers := y.offers.filter (fun z => z.dpa != dpa), dcAdd := y.dcAdd ++ [x] })).emit (.mailbox (.ld l) 0 []))) ∧
      (s.m.extentLies l x = false → exec (.addDcResponse (.ld l) dpa true) s = answers s ((s.m.setLp l (fun y =>
        { y with offers := y.offers.filter (fun z => z.dpa != dpa) })).emit (.mailbox (.ld l) 2 []))) ∧
      exec (.addDcResponse (.ld l) dpa false) s = answers s ((s.m.setLp l (fun y =>
        { y with offers := y.offers.filter (fun z => z.dpa != dpa) })).emit (.mailbox (.ld l) 0 []))) ∧
    (∀ dpa : Nat, s.m.holdsExtent l dpa = true → exec (.releaseDc (.ld l) dpa) s =
      answers s ((s.m.setLp l (fun y => { y with dcDel := y.dcDel ++ [dpa] })).emit (.mailbox (.ld l) 0 [])))) ∧
  (∀ (s : State) (p : Fin 16) (lp : Fin 256), s.m.mboxUp (.fmld p) = true → s.m.fore.ready = true → p.val = lp.val / 16 →
    exec (.getDcRegionConfig (.fmld p) lp) s = answers s (s.m.emit (.mailbox (.fmld p) 0 (s.m.dcRegion lp))) ∧
    (∀ dpa dev n : Nat, s.m.extentOk lp ⟨dpa, dev, n⟩ = true → exec (.initiateDcAdd (.fmld p) lp dpa dev n) s =
      answers s (((s.m.setLp lp (fun y => { y with offers := y.offers ++ [⟨dpa, dev, n⟩] })).ldRec lp 0 3 dpa).emit
        (.mailbox (.fmld p) 0 []))) ∧
    (∀ dpa : Nat, s.m.holdsExtent lp dpa = true →
      exec (.initiateDcRelease (.fmld p) lp dpa) s = answers s ((s.m.ldRec lp 0 3 dpa).emit (.mailbox (.fmld p) 0 [])) ∧
      exec (.forcedDcRelease (.fmld p) lp dpa) s = answers s
        (((s.m.setLp lp (fun y => { y with dcDel := y.dcDel ++ [dpa] })).ldRec lp 0 3 dpa).emit (.mailbox (.fmld p) 0 []))))

/-- GET_LD_INFO, GET_LD_ALLOCATIONS, SET_LD_ALLOCATIONS, GET_QOS_CONTROL, SET_QOS_CONTROL, GET_QOS_STATUS, GET_QOS_ALLOCATED_LIMIT_BW,
SET_QOS_ALLOCATED_LIMIT_BW on a port's own FM-owned LD (R45, R59): QoS values shape the fabric side alone, so nothing but the
stored value changes. -/
def Obligations.PortManagementCommandsAnswer : Prop :=
  ∀ (s : State) (p : Fin 16), s.m.mboxUp (.fmld p) = true → s.m.fore.ready = true →
    exec (.getLdInfo (.fmld p)) s =
      answers s (s.m.emit (.mailbox (.fmld p) 0 [⟨8, 16384 * 2 ^ 30⟩, ⟨2, 16⟩, ⟨1, Config.cxlField 0x5400 2⟩])) ∧
    exec (.getLdAllocations (.fmld p) p) s = answers s (s.m.emit (.mailbox (.fmld p) 0 ([⟨8, 2 ^ 30⟩, ⟨1, 16⟩] ++
      (List.range 16).flatMap (fun d => [⟨8, (s.m.lp (16 * p + d)).static⟩, ⟨8, (s.m.lp (16 * p + d)).dcLen⟩])))) ∧
    (∀ (first : Fin 16) (a d : Nat), s.m.allocOk (16 * p + first) a d = true → exec (.setLdAllocations (.fmld p) p first [(a, d)]) s =
      answers s ((s.m.setAlloc (16 * p + first) a d).emit (.mailbox (.fmld p) 0 []))) ∧
    exec (.getQosControl (.fmld p) p) s = answers s (s.m.emit (.mailbox (.fmld p) 0 [⟨8, (s.m.port p).qos.toNat⟩])) ∧
    (∀ v : BitVec 64, exec (.setQosControl (.fmld p) p v) s =
      answers s ((s.m.setPort p (fun x => { x with qos := v })).emit (.mailbox (.fmld p) 0 []))) ∧
    exec (.getQosStatus (.fmld p) p) s = answers s (s.m.emit (.mailbox (.fmld p) 0 [⟨1, Config.cxlField 0x5405 p⟩])) ∧
    exec (.getQosAllocatedLimitBw (.fmld p) p) s = answers s (s.m.emit (.mailbox (.fmld p) 0
      ((List.range 16).map (fun d => ⟨2, tget 0 (s.m.port p).qosBw d⟩)))) ∧
    (∀ (first : Fin 16) (a b : BitVec 8), exec (.setQosAllocatedLimitBw (.fmld p) p first [(a, b)]) s =
      answers s ((s.m.setPort p (fun x => { x with qosBw := tput 0 x.qosBw first (a.toNat + 256 * b.toNat) })).emit
        (.mailbox (.fmld p) 0 [])))

/-- R436: Transfer FW writes only to whichever of slots 0 and 1 is not running. An attempt on slot 2 or on the running slot returns
Invalid Input. Activate FW is accepted for offline activation only. It verifies the slot and then writes NEXT. Online activation, and
activation of a slot that fails verification, are refused and raise ESRC 567 (with Invalid Input, the model's choice, log
entry 29). GET_FW_INFO, TRANSFER_FW, ACTIVATE_FW on the control port. -/
def Obligations.FirmwareCommandsFollowTheSlots : Prop :=
  ∀ (s : State) (p : Fin 16), s.m.mboxUp (.fmld p) = true → s.m.path.ctlPort = p → s.m.fore.ready = true →
    exec (.getFwInfo (.fmld p)) s = answers s (s.m.emit (.mailbox (.fmld p) 0 ([⟨1, 3⟩, ⟨1, s.m.nv2.fwRun⟩, ⟨1, s.m.nv2.fwNext⟩] ++
      (List.range 3).map (fun n => ⟨4, (s.m.fwVersion n).toNat⟩)))) ∧
    (∀ (n : Fin 3) (v : Word), n.val = 2 ∨ n.val = s.m.nv2.fwRun → ∀ ok : Bool,
      exec (.transferFw (.fmld p) n v ok) s = answers s (s.m.emit (.mailbox (.fmld p) 2 []))) ∧
    (∀ (n : Fin 3) (v : Word) (ok : Bool), n.val ≠ 2 → n.val ≠ s.m.nv2.fwRun → exec (.transferFw (.fmld p) n v ok) s =
      answers s (Mod.emit { s.m with nv2 := { s.m.nv2 with
        fwVer := tput (Config.fwVersion n) s.m.nv2.fwVer n v,
        fwBad := s.m.nv2.fwBad.filter (· != n.val) ++ (if ok then [] else [n.val]) } } (.mailbox (.fmld p) 0 []))) ∧
    (∀ n : Fin 3, n.val ∉ s.m.nv2.fwBad → exec (.activateFw (.fmld p) n false) s =
      answers s ((Mod.seedWrite { s.m with nv2 := { s.m.nv2 with fwNext := n } } (.module_ 1)).emit (.mailbox (.fmld p) 0 []))) ∧
    (∀ n : Fin 3, exec (.activateFw (.fmld p) n true) s = answers s ((s.m.bump cFw).emit (.mailbox (.fmld p) 2 []))) ∧
    (∀ n : Fin 3, n.val ∈ s.m.nv2.fwBad →
      exec (.activateFw (.fmld p) n false) s = answers s ((s.m.bump cFw).emit (.mailbox (.fmld p) 2 [])) ∧ 567 ∈ keySrcs cFw)

/-- SUBMIT_PROGRAM, GET_PROGRAM_RESULT, READ_PLATES, SET_CONTROL_PORT, TWIN_TAKEOVER over MCTP (R61 to R65, R243, R291): a queue with
room takes the program and answers its ticket, plates are read once no earlier write of the path to their block waits, a port whose link
is not down becomes the next control port, and another is Invalid Input with its field (the fields' numbers: log entry 91). -/
def Obligations.VendorControlCommandsAnswer : Prop :=
  ∀ s : State, s.m.pwr.aonReset = false → s.m.fore.ready = true →
    (∀ (e st : Word) (ws : List Word), (s.m.queue 0).ok = true → ws ≠ [] → ws.length ≤ 2044 → st.toNat ≤ 10000000 → s.m.per.evac = none →
      (s.m.queue 0).resetting = false → (s.m.queue 0).count < 64 →
      exec (.submitProgram .mctp e st ws false) s = answers s
        (let pos := (s.m.queue 0).wp % 64
         let wp := ((s.m.queue 0).wp + 1) % 128
         let q : QEnt := { ticket := (s.m.queue 0).ticket, len := ws.length, entry := e.toNat, steps := st.toNat, dtc := s.m.time.dtc, st := 0 }
         ((s.m.putSlot (slotBase 0 pos) ws).setQueue 0 (fun x => { x with
           wp, wp2 := wp, ents := tput none x.ents pos (some q), ticket := (x.ticket + 1) % 2 ^ 32 })).emit
             (.mailbox .mctp 0 [⟨4, (s.m.queue 0).ticket⟩]))) ∧
    (∀ t : Word, exec (.getProgramResult .mctp t) s =
      answers s (s.m.emit (.mailbox .mctp 0 ((s.m.result 0 t.toNat).bytes.map (fun x => ⟨1, x.toNat⟩))))) ∧
    (∀ i : Word, s.m.readWaits 1 (4 * i.toNat) = false → (s.m.pathQ 1).wait = [] → exec (.readPlates .mctp i 1) s = answers s
      ((s.m.readWord 1 i.toNat).2.emit (.mailbox .mctp 0 [⟨4, (s.m.readWord 1 i.toNat).1.toNat⟩]))) ∧
    (∀ p : Nat, p < 16 → (s.m.port p).link ≠ .down → (s.m.port p).link ≠ .training → exec (.setControlPort .mctp p) s =
      answers s (Mod.emit { s.m with path := { s.m.path with ctlNext := some p } } (.mailbox .mctp 0 []))) ∧
    (∀ p : Nat, 16 ≤ p ∨ (s.m.port p).link = .down ∨ (s.m.port p).link = .training →
      exec (.setControlPort .mctp p) s = answers s (s.m.emit (.mailbox .mctp 2 [⟨1, 1⟩]))) ∧
    (∀ (ep : Dword) (first n : Nat), s.m.takeoverOk ep.toNat first n = true → exec (.twinTakeover .mctp ep first n) s =
      answers s ((Mod.seedWrite { s.m with tx := { s.m.tx with takeover := some (first, n, ep.toNat + 1) } }
        (.epoch (ep.toNat + 1) s.m.nv.paired)).emit (.mailbox .mctp 0 [])))

/-- GET_CLASS_STATUS, GET_LD_REGION_MAP, GET_PERSISTENCE_STATUS on a host LD's mailbox (R66 to R68), for the LD itself whatever LD the
command names.
READ_REGISTERS, WRITE_REGISTERS, ALERT_RESPONSE_ADDRESS on the management port (R291, R298, R312, R450): the words of a range inside the
window; an address outside it is Invalid Input with the number of the field at fault (log entry 91); the Alert Response Address answers
0x40 + SLOT_ID and releases ALERT_N. -/
def Obligations.VendorQueryAndManagementCommandsAnswer : Prop :=
  (∀ (s : State) (l : Fin 256), s.m.mboxUp (.ld l) = true → s.m.fore.ready = true →
    (∀ x : Nat, exec (.getClassStatus (.ld l) x) s = answers s (s.m.emit (.mailbox (.ld l) 0 (s.m.classStatus l)))) ∧
    (∀ x first : Nat, exec (.getLdRegionMap (.ld l) x first) s = answers s (s.m.emit (.mailbox (.ld l) 0
      (let g := s.m.granulesOf l first
       [⟨2, min 256 g.length⟩, ⟨1, (decide (256 < g.length)).toNat⟩, ⟨5, 0⟩] ++ (g.take 256).flatMap s.m.granuleRec)))) ∧
    exec (.getPersistenceStatus (.ld l)) s = answers s (s.m.emit (.mailbox (.ld l) 0
      [⟨4, (s.m.per.tested && !s.m.per.testFailed).toNat + 2 * (decide (s.m.budget ≠ 0)).toNat + 4 * s.m.suspectStart.toNat +
          8 * s.m.upk.rmostly.toNat + 16 * s.m.upk.ronly.toNat + 32 * (decide (s.m.twin.pair = .paired)).toNat +
          64 * (decide (s.m.twin.pair = .broken)).toNat⟩,
       ⟨8, s.m.budget⟩, ⟨8, s.m.dt⟩, ⟨2, s.m.endurUsed⟩, ⟨10, 0⟩]))) ∧
  (∀ s : State, s.m.pwr.aonReset = false →
    (∀ first n : Nat, windowRange first n = false →
      exec (.readRegisters first n) s = answers s (s.m.emit (.mailbox .mctp 2 [⟨1, windowField first n⟩]))) ∧
    (∀ first n : Nat, windowRange first n = true → (∀ i < n, s.m.readWaits 1 (first + 4 * i) = false) → (s.m.pathQ 1).wait = [] →
      exec (.readRegisters first n) s = answers s ((s.m.readRegs first n).2.emit (.mailbox .mctp 0 (s.m.readRegs first n).1))) ∧
    (∀ (first : Nat) (vs : List Word), windowRange first vs.length = false →
      exec (.writeRegisters first vs) s = answers s (s.m.emit (.mailbox .mctp 2 [⟨1, windowField first vs.length⟩]))) ∧
    (∀ (first : Nat) (vs : List Word), windowRange first vs.length = true → vs.length + (s.m.pathQ 1).q.length ≤ 64 →
      exec (.writeRegisters first vs) s = answers s ((s.m.writeRegs first vs).emit (.mailbox .mctp 0 []))) ∧
    (s.m.evt.alert = true → exec .alertResponseAddress s =
      answers s (Mod.emit { s.m with evt := { s.m.evt with alert := false, released := true } } (.araAddress (0x40 + s.m.path.slotId)))) ∧
    (s.m.evt.alert = false → exec .alertResponseAddress s = answers s s.m))

/-! ### The hopper -/

/-- HOPPER_ACCESS_DONE without a lane in error, HOPPER_REWRITE, HOPPER_REFRESH, HOPPER_STARVATION, HOPPER_CHANNEL_FAIL (R111, R115, R116,
R119, R120): the access answers its request with the cell it captured; the rewrite queue's head leaves it; counts go up by one.
POSTED_WRITE_DRAIN, MERGE_COMPLETE, CLEAN_START, CLEAN_COMPLETE, MAP_ENTRY_REBUILD (R98, R103, R105, R106, R114). -/
def Obligations.HopperCommandsAnswer : Prop :=
  (∀ (s : State) (c : Fin 54),
    (∀ (a : Access) (q : Nat) (r : Req), s.m.hop.access.find? (fun x => x.id = a.id) = some a → a.who = .req q → a.cell.flip = 0 →
      s.m.hopServes a.who = true → s.m.arbServes a = true → s.m.reqById q = some r → exec (.hopperAccessDone a.id 0) s = answers s
        (let m := s.m.takeSlot a
         Mod.answerAccess { m with hop := { m.hop with access := m.hop.access.filter (fun x => x.id != a.id) } } r a (some a.cell))) ∧
    (∀ (f j : Nat) (t : List (Nat × Nat)), s.m.hopRuns = true → (s.m.hch c).rewriteQ = (f, j) :: t → (s.m.frame f).valid.getLsbD j = false →
      exec (.hopperRewrite c) s = answers s (s.m.setHch c (fun h => { h with rewriteQ := t }))) ∧
    (∀ (f j : Nat) (t : List (Nat × Nat)), s.m.hopRuns = true → (s.m.hch c).rewriteQ = (f, j) :: t → (s.m.frame f).valid.getLsbD j = true →
      s.m.queued f j = none → exec (.hopperRewrite c) s = answers s
        ((s.m.setHch c (fun h => { h with rewriteQ := t })).rewriteLine f j { tget {} (s.m.frame f).lines j with flip := 0 })) ∧
    (∀ b : Fin 16, s.m.hopRuns = true → (s.m.hch c).failed = false →
      exec (.hopperRefresh c b) s = answers s ((s.m.setHch c (fun h => { h with refs := h.refs + 1 })).happen 0x14 1)) ∧
    (∀ q : Fin 8, s.m.hopRuns = true → (s.m.hch c).starve.testBit q = false → s.m.starveTh c q ≠ 0 →
      exec (.hopperStarvation c q true) s = answers s
        (((s.m.setHch c (fun h => { h with starve := h.starve + 2 ^ q.val })).bump (cHopStv c)).happen 0x15 1)) ∧
    (∀ q : Fin 8, (s.m.hch c).starve.testBit q = true → exec (.hopperStarvation c q false) s = answers s
      (s.m.setHch c (fun h => { h with starve := h.starve - 2 ^ q.val }))) ∧
    (∀ why : Fin 3, s.m.coreOn = true → (s.m.hch c).failed = false → exec (.hopperChannelFail c why) s = answers s
      (let m := if why.val = 2 then s.m.bump (cDevice (c / 2)) else s.m
       ((m.setHch c (fun h => { h with failed := true, fenced := true })).faultRec (293 + c / 9) islHop 5 c why).evacCommit 6))) ∧
  (∀ s : State,
    (∀ (c : Fin 54) (q : Option Nat) (e : Pwe), s.m.hopRuns = true → (s.m.hch c).failed = false → s.m.arbPick c = some (q, .post) →
      s.m.hop.pwq.find? (fun e => e.ch = c.val) = some e → s.m.pweLive e = true →
      exec (.postedWriteDrain c) s = answers s
        (let m := s.m.granted c q false
         (Mod.disarm { m with hop := { m.hop with pwq := m.hop.pwq.erase e } } e.frame).setFrame e.frame (fun x => { x with
          lines := tput {} x.lines e.line (m.written e.frame e.cell), lastMs := m.time.dtc / 1000000 % 2 ^ 32 }))) ∧
    (∀ (page : Nat) (j : Fin 64) (e : Mbe), s.m.hop.merge.find? (fun e => e.lineNo = page * 64 + j && e.waiting.isEmpty) = some e →
      exec (.mergeComplete page j) s = answers s (s.m.completeMerge e)) ∧
    (∀ f : Nat, 4 ≤ s.m.pwr.phase → s.m.per.evac = none → s.m.nextClean = some f →
      exec .cleanStart s = answers s (s.m.cleanFrame f)) ∧
    (4 ≤ s.m.pwr.phase → s.m.per.evac = none → s.m.nextClean = none → exec .cleanStart s = answers s s.m) ∧
    (∀ f : Nat, (s.m.frame f).cleaning = false → exec (.cleanComplete f) s = answers s s.m) ∧
    (∀ f : Nat, (s.m.frame f).cleaning = true → ((s.m.cleanDone f).frame f).cleaning = false →
      exec (.cleanComplete f) s = answers s ((s.m.cleanDone f).flushed (s.m.frame f).page (s.m.frame f).copied)) ∧
    (∀ page : Nat, s.m.hopRuns = true → page < 2 ^ 32 → page ∉ s.m.hop.badMap → exec (.mapEntryRebuild page true) s = answers s
      (let m := s.m.positionBad (s.m.mapBase + page * 5 / 4096) 4
       { m with hop := { m.hop with badMap := m.hop.badMap ++ [page] } })) ∧
    (∀ page : Nat, exec (.mapEntryRebuild page false) s = answers s
      { s.m with hop := { s.m.hop with badMap := s.m.hop.badMap.filter (· != page) } }))

/-- HOPPER_SCRUB of a frame's line (R112, R114, R111): a line without an error only moves the scrub on, a line with one lane in error is
counted and written corrected, a line with two is uncorrectable. -/
def Obligations.ScrubCorrectsOneLane : Prop :=
  ∀ (s : State) (p : Nat) (j : Fin 64) (lanes : BitVec 16), s.m.hopRuns = true → bits (s.m.w 0 0x40110) 23 0 ≠ 0 → p < s.m.mapBase → p < s.m.posEnd →
    (s.m.hch (s.m.chanOf p)).failed = false → s.m.hop.scrubAt ≤ p → (s.m.frame p).valid.getLsbD j = true → s.m.queued p j = none →
    (let m' : Mod := { s.m with hop := { s.m.hop with scrubAt := p } }
     let cell : Cell := tget {} (s.m.frame p).lines j
     (laneCount (cell.flip ||| lanes) = 0 → exec (.hopperScrub p j lanes) s = answers s m') ∧
     (laneCount (cell.flip ||| lanes) = 1 → exec (.hopperScrub p j lanes) s = answers s
       ((m'.scrubLane (s.m.chanOf p) (cell.flip ||| lanes)).rewriteLine p j { cell with flip := 0 })) ∧
     (2 ≤ laneCount (cell.flip ||| lanes) → exec (.hopperScrub p j lanes) s = answers s
       (m'.lineBad p ((s.m.frame p).page * 64 + j)).2))

/-- CODEWORD_TRANSFER_DONE, STRIPE_MERGE_SHORT, BACKGROUND_FILL_DONE, PIN_LOAD_COMPLETE (R81, R97, R109, R128, R130, R139, R143): a wanted
codeword is taken with the waits that result, a booked one 30 ns after its T, another one 30 ns after the slot that its channel gives it in its
turn; a booked read with fewer than eight codewords at T + 50 ns goes on on the Standard path; a filled frame has all its lines, its
undecodable codewords counted, rebuilt or poisoned; a region takes its class at the next boundary once all its pages are loaded. -/
def Obligations.FillAndTransferCommandsAnswer : Prop :=
  ∀ s : State,
    (∀ (r : MRead) (x : Fin 10) (res : Decode1) (w : Waits), s.m.med.reads.find? (fun q => q.id = r.id) = some r → s.m.mediaRuns = true →
      (let tg := s.m.tagged (s.m.regionOfPage r.page)
       let c := mcOf (enSg r.loc) x
       let t := s.m.openSlot c
       let take : Mod → Mod := fun m => match m.med.reads.find? (fun q => q.id = r.id) with
         | some r => if m.wants tg r x then Mod.deliver ((m.setWaits w).transfer r x res) else m
         | none => m
       s.m.wants tg r x = true →
       (∀ b : Nat × Nat, r.book = some b →
         exec (.codewordTransferDone r.id x res w) s = answers s (take (s.m.passUntil (b.2 + 30))) ∧
         (b.2 + 30 ≤ s.m.time.dtc →
           exec (.codewordTransferDone r.id x res w) s = answers s (Mod.deliver ((s.m.setWaits w).transfer r x res)))) ∧
       (r.book = none → s.m.medServes c r = true →
         exec (.codewordTransferDone r.id x res w) s = answers s (take ((s.m.takeMedSlot c t r).passUntil (t + 30))) ∧
         (t + 30 ≤ s.m.time.dtc → exec (.codewordTransferDone r.id x res w) s =
           answers s (Mod.deliver (((s.m.takeMedSlot c t r).setWaits w).transfer r x res)))))) ∧
    (∀ (r : MRead) (b : Nat × Nat), s.m.med.reads.find? (fun q => q.id = r.id) = some r → r.book = some b →
      exec (.stripeMergeShort r.id) s = answers s
        (let m := s.m.passUntil (b.2 + 50)
         match m.med.reads.find? (fun q => q.id = r.id) with
         | some r => if !r.done && r.decoded < 8 then Mod.deliver (m.mergeShort r) else m
         | none => m) ∧
      (b.2 + 50 ≤ s.m.time.dtc → r.done = false → r.decoded < 8 →
        exec (.stripeMergeShort r.id) s = answers s (Mod.deliver (s.m.mergeShort r)))) ∧
    (∀ (f : Nat) (bad : List (Fin 16 × Fin 10)), (s.m.frame f).v = true → (s.m.frame f).f = true → s.m.per.evac = none →
      s.m.entryBad (s.m.frame f).page (s.m.regionOfPage (s.m.frame f).page) = false →
      exec (.backgroundFillDone ⟨f, bad⟩) s = answers s
        (let x := s.m.frame f
         let tg := s.m.tagged (s.m.regionOfPage x.page)
         let new := (List.range 64).filter (fun j => !x.valid.getLsbD j)
         let loc := s.m.mediaLoc x.page
         let read := if loc = 0 then [] else ((new.filter (fun j => (s.m.findLine x.page j).isNone)).map (· / 4)).eraseDups
         let r := s.m.fillBad loc x.page (bad.filter (fun e => read.contains e.1.val))
         let c := mcOf (enSg loc) (enCh loc)
         let m := if read.isEmpty then r.2 else (r.2.setMch c (fun h => { h with xfer := h.xfer + read.length })).happen 0x0F read.length
         let m := new.foldl (fun m j =>
           if r.1.contains (j / 4) && (m.findLine x.page j).isNone then (m.fillLine f j {} false tg).mark (x.page * 64 + j) false
           else Mod.fillOne f x.page tg m j) m
         new.foldl (fun m j => m.lineArrived (x.page * 64 + j)) (m.fillEnd f))) ∧
    (∀ (r : Fin 4096) (k : Nat) (m' : Mod), s.m.hop.pinLoad = some (r.val, k, false) → s.m.per.evac = none →
      Mod.pinPages ((List.range (regPages (s.m.rw1 r) - k)).map (fun i => regPage0 (s.m.rw1 r) + k + i)) s.m = some m' →
      exec (.pinLoadComplete r) s =
        answers s { m' with hop := { m'.hop with pinLoad := some (r.val, regPages (s.m.rw1 r), true) } })

/-! ### The medium, upkeep, drift -/

/-- PROGRAM_VERIFY_DONE, ROW_WAIT_EXPIRY, JOURNAL_FLUSH_TIMER, CHECKPOINT_START, DIE_BLOCK_RESET_DONE, PENDING_RESET_TIMER, DIE_STATUS_TIMEOUT,
MEDIA_CHANNEL_FAIL (R126, R131, R132, R135, R136, R144, R148, R156): a die reports on the operation it is doing and is free; a row, the journal
and a checkpoint start once MED_ROWWAIT, MED_JRNL and CKPT have run out; a die or channel that fails takes the rows it was programming with it.
AGE_BUCKET_REEVAL, EQUIV_AGE_TICK, TEMP_BUCKET_CHANGE, FIREBOSS_RATE_TICK, FIREBOSS_VISIT, REFRESH_OVERDUE (R171, R172, R174, R178, R182, R184):
the bucket of every segment of the class is that of its age now; every group's W grows, once a second of the DTC, by its hottest die's rate; a
patrol that does not run has rate 0 and one that runs the codewords left over the time left; each codeword is visited once a pass; an overdue
entry is marked and counted. -/
def Obligations.MediumAndPatrolCommandsAnswer : Prop :=
  (∀ s : State,
    (∀ (r : Row) (x : Fin 10), s.m.med.rows.find? (fun q => q.id = r.id) = some r → (s.m.die (dieOf r.sg x)).op.any (fun o => !o.reset && o.key = r.id) = true →
      exec (.programVerifyDone r.id x true) s = answers s ((s.m.opEnd (dieOf r.sg x)).unitOk r x) ∧
      (r.dead = false → exec (.programVerifyDone r.id x false) s = answers s ((s.m.opEnd (dieOf r.sg x)).unitFail r x))) ∧
    (∀ r : Row, s.m.med.rows.find? (fun q => q.id = r.id) = some r → r.started = false → r.pages ≠ [] → s.m.per.evac = none →
      r.since + 1000 * bits (s.m.w 0 0x50104) 13 0 ≤ s.m.time.dtc → exec (.rowWaitExpiry r.id) s = answers s (s.m.rowGo r)) ∧
    (s.m.med.staged = [] → exec .journalFlushTimer s = answers s s.m) ∧
    (∀ (e : JRec × Nat) (l : List (JRec × Nat)), s.m.med.staged = e :: l →
      exec .journalFlushTimer s =
        answers s (if e.2 + 1000 * bits (s.m.w 0 0x50108) 9 0 ≤ s.m.time.dtc then s.m.journalPage else s.m)) ∧
    (4 ≤ s.m.pwr.phase → s.m.per.evac = none →
      exec .checkpointStart s = answers s (if s.m.ckDue then s.m.ckStart else s.m)) ∧
    (∀ (sg : Fin 20) (blk : Fin 16384) (x : Fin 10) (ok : Bool),
      (s.m.die (dieOf sg x)).op.any (fun o => o.reset && o.key = bkey sg blk) = true →
      exec (.dieBlockResetDone sg blk x ok) s = answers s ((s.m.opEnd (dieOf sg x)).resetOne sg blk x ok)) ∧
    (∀ (sg : Fin 20) (blk : Fin 16384), s.m.canPend (bkey sg blk) = true → exec (.pendingResetTimer sg blk) s = answers s
      (s.m.setBlk (bkey sg blk) (fun b => { b with st := .pendingReset, wr := none })).startResets) ∧
    (∀ die : Fin 200, s.m.coreOn = true → (s.m.die die).failed = false → exec (.dieStatusTimeout die) s = answers s
      ((s.m.setDie die (fun d => { d with failed := true, op := none })).faultRec (326 + die) (islMed (die / 10)) 10 die 0).goneSettle) ∧
    (∀ (c : Fin 20) (tr : Bool), s.m.coreOn = true → (s.m.mch c).failed = false → exec (.mediaChannelFail c tr) s = answers s
      (Mod.goneSettle ((List.range 10).foldl (fun m d => m.dieFail (10 * c + d) 2)
        ((s.m.setMch c (fun h => { h with failed := true, fenced := true })).faultRec (273 + c) (islMed c) 11 c (if tr then 0 else 1)))))) ∧
  (∀ s : State,
    (∀ late : Bool, s.m.coreOn = true → exec (.ageBucketReeval late) s = answers s (s.m.reeval late)) ∧
    (s.m.pwr.aonReset = false → s.m.fb.aged < s.m.time.dtc / 1000000000 → exec .equivAgeTick s = answers s
      (let m := (List.range 20).foldl (fun m g => m.addW g (ageRate (m.ageTemp g - 550))) s.m
       Mod.horizonQueue { m with fb := { m.fb with hot := [], aged := s.m.time.dtc / 1000000000 } })) ∧
    (s.m.time.dtc / 1000000000 ≤ s.m.fb.aged → exec .equivAgeTick s = answers s s.m) ∧
    (∀ die : Fin 200, s.m.coreOn = true → 100 * ((s.m.die die).tbucket : Int) + 160 ≤ (s.m.therm (64 + die)).temp →
      exec (.tempBucketChange die) s =
        answers s (s.m.setDie die (fun d => { d with tbucket := tempBucket (s.m.therm (64 + die)).temp }))) ∧
    (∀ die : Fin 200, s.m.coreOn = true → 100 * ((s.m.die die).tbucket : Int) + 40 ≤ (s.m.therm (64 + die)).temp →
      (s.m.therm (64 + die)).temp < 100 * ((s.m.die die).tbucket : Int) + 160 → exec (.tempBucketChange die) s = answers s s.m) ∧
    (s.m.patrolRuns = false → exec .firebossRateTick s = answers s { s.m with fb := { s.m.fb with rate := 0 } }) ∧
    (s.m.patrolRuns = true → s.m.fb.passTotal ≠ 0 → exec .firebossRateTick s = answers s
      { s.m with fb := { s.m.fb with
          rate := cdiv s.m.fb.passLeft (max 1 ((s.m.fb.passAt + s.m.cycleNs - s.m.time.dtc) / 1000000000)) } }) ∧
    (s.m.patrolRuns = true → s.m.fb.passTotal = 0 → exec .firebossRateTick s = answers s
      { s.m with fb := { s.m.fb with
          passTotal := s.m.passSize, passLeft := s.m.passSize, passAt := s.m.time.dtc, visited := [],
          rate := cdiv s.m.passSize (max 1 (s.m.cycleNs / 1000000000)) } }) ∧
    (∀ (sg : Fin 20) (blk : Fin 16384) (x : Fin 10) (wl : Fin 512) (c : Fin 22) (dm dp : List Nat), s.m.patrolRuns = true →
      (s.m.blk (bkey sg blk)).patrolled = true → wl.val < (s.m.blk (bkey sg blk)).wordlines →
      s.m.dieFailed (dieOf sg x) = false → (s.m.therm (64 + dieOf sg x)).level ≠ 2 → s.m.dieBusy (dieOf sg x) = false →
      tget 0 s.m.fb.visited (visitKey (bkey sg blk) x wl) < 64 → (s.m.fb.behind = [] ∨ s.m.fb.behind.contains (sg.val, blk.val) = true) →
      exec (.firebossVisit sg blk x wl ⟨.ok c, false⟩ dm dp) s = answers s
        (let k := bkey sg blk
         let n := dieOf sg x
         let b := s.m.blk k
         let m := (s.m.setMch (mcOf sg x) (fun h => { h with xfer := h.xfer + 3 })).happen 0x0F 3
         let m := { m with fb := { m.fb with visited := tmod 0 m.fb.visited (visitKey k x wl) (· + 1) } }
         let m := if m.blkWords k b ≤ m.visitedOf k then
             let m := m.setBlk k (fun b => { b with lastVisit := m.time.dtc })
             { m with fb := { m.fb with behind := m.fb.behind.filter (· != (sg.val, blk.val)) } }
           else m
         let m := m.passCount
         let a := m.bucketHeld k (wl / 64)
         let t := (m.die n).tbucket
         let m := (List.range 7).foldl (fun m i => m.refineEntry (drfInst n a t (i + 1)) (lget dm i) (lget dp i)) m
         let w := m.w 0 0x60108
         let m := m.setDie n (fun d => { d with bits := d.bits + c.val })
         if bits w 4 0 ≤ c.val || decide (bits w 31 16 ≤ total (dm.take 7) + total (dp.take 7)) then m.markFragile sg blk x (wl / 64) else m)) ∧
    (∀ (sg : Fin 20) (blk : Fin 16384), s.m.fb.refq.any (fun q => q.sg = sg.val && q.blk = blk.val && !q.overdue) = true →
      s.m.horizon ≤ s.m.oldest (bkey sg blk) → exec (.refreshOverdue sg blk) s = answers s
        (Mod.bump { s.m with fb := { s.m.fb with
          refq := lmod (fun q => q.sg = sg.val && q.blk = blk.val && !q.overdue) (fun q => { q with overdue := true }) s.m.fb.refq } } cOvd)))

/-! ### Commands that are plates -/

/-- DISCARD, SECURE_DISCARD, CAP_TEST_REQUEST, CLEAN_SHUTDOWN, PCMD_M0, PCMD_M3, PCMD_M4 (R166, R167, R189, R206, R351): once the transaction is
validated, time passes to the next frame boundary, and there its plates apply and the command they give begins; PCMD_M0 reaches a module of
which only AON runs as well. That time passes with the row itself is the model's choice (log entry 22). `Mod.rowFrame` is the module at that
boundary.
TW_ATTACH, TW_DETACH, TW_REPAIR (R23, R234, R235): an attach that finds the module unpaired with an expected identity sends HELLO and waits
for the other module's; without one it is refused with cause 3; a detach takes place at the boundary after; a repair asks for every page of
the region that recovery lost. -/
def Obligations.PlateAndPairCommandsTakeEffect : Prop :=
  (∀ s : State,
    (∀ (r : Fin 4096) (first count : Word), s.m.coreOn = true → s.m.fore.ready = true →
      s.m.validate (rowTx [(0, 0x18029, first), (0, 0x1802A, count), (0, 0x18028, fld 30 1 ||| fld 0 r)]) = none →
      exec (.discard r first count) s = answers s
        (s.m.rowDone [(0, 0x18029, first), (0, 0x1802A, count), (0, 0x18028, fld 30 1 ||| fld 0 r)]
          (fun m => m.dStart 1 r (m.w 0 0x600A4).toNat (m.w 0 0x600A8).toNat))) ∧
    (∀ r : Fin 4096, s.m.coreOn = true → s.m.fore.ready = true → s.m.validate (rowTx [(0, 0x18028, fld 30 2 ||| fld 0 r)]) = none →
      exec (.secureDiscard r) s = answers s
        (s.m.rowDone [(0, 0x18028, fld 30 2 ||| fld 0 r)] (fun m => m.dStart 2 r (m.w 0 0x600A4).toNat (m.w 0 0x600A8).toNat))) ∧
    (s.m.coreOn = true → s.m.fore.ready = true → s.m.validate (rowTx [(0, 0x1C004, s.m.w 0 0x70010 ||| flag 8 true)]) = none →
      exec .capTestRequest s = answers s (s.m.rowDone [(0, 0x1C004, s.m.w 0 0x70010 ||| flag 8 true)] (fun m => m.capStart))) ∧
    (s.m.coreOn = true → s.m.fore.ready = true → s.m.validate (rowTx [(0, 0x1C00F, 1)]) = none →
      exec .cleanShutdown s = answers s (s.m.rowDone [(0, 0x1C00F, 1)] (fun m => m.orderlyStart 1))) ∧
    (s.m.coreOn = true → s.m.fore.ready = true → s.m.validate (rowTx [(0, 0x28041, 0)]) = none → s.m.rowFrame.pwr.pstate = 3 →
      exec .pcmdM0 s = answers s (s.m.rowDone [(0, 0x28041, 0)] (fun m => m.leaveM3))) ∧
    (s.m.coreOn = false → s.m.pwr.pstate = 4 → s.m.aonOnly = true → exec .pcmdM0 s = answers s s.m.startBegin) ∧
    (s.m.coreOn = true → s.m.fore.ready = true → s.m.validate (rowTx [(0, 0x28041, 3)]) = none → s.m.rowFrame.pwr.pstate < 3 →
      exec .pcmdM3 s = answers s (s.m.rowDone [(0, 0x28041, 3)] (fun m => m.orderlyStart 3))) ∧
    (s.m.coreOn = true → s.m.fore.ready = true → s.m.validate (rowTx [(0, 0x28041, 4)]) = none → s.m.rowFrame.pwr.pstate < 3 →
      exec .pcmdM4 s = answers s (s.m.rowDone [(0, 0x28041, 4)] (fun m => m.orderlyStart 4))) ∧
    (s.m.coreOn = true → s.m.fore.ready = true → s.m.validate (rowTx [(0, 0x28041, 4)]) = none → s.m.rowFrame.pwr.pstate = 3 →
      exec .pcmdM4 s = answers s (s.m.rowDone [(0, 0x28041, 4)] (fun m =>
        if m.pwr.m3Exit then (m.powerDown .stay).seedWrite (.prec m.endRec) else m.powerDown .stay)))) ∧
  (∀ s : State, s.m.coreOn = true → s.m.fore.ready = true →
    (s.m.validate (rowTx [(0, 0x20015, fld 28 1)]) = none → s.m.rowFrame.twin.pair = .unpaired → s.m.rowFrame.expectId ≠ 0 →
      exec .twAttach s = answers s (s.m.rowDone [(0, 0x20015, fld 28 1)] (fun m =>
        let m : Mod := { m with
          twin := { m.twin with pair := .attaching, cmd := 1, refuse := 0, helloed := false, side := m.sideBy m.expectId }
          tx := { m.tx with proposed := none, commitWait := none, strobeSeen := none } }
        m.sendHello))) ∧
    (s.m.validate (rowTx [(0, 0x20015, fld 28 1)]) = none → s.m.rowFrame.twin.pair = .unpaired → s.m.rowFrame.expectId = 0 →
      exec .twAttach s = answers s (s.m.rowDone [(0, 0x20015, fld 28 1)] (fun m => m.pairRefuse 3))) ∧
    (s.m.validate (rowTx [(0, 0x20015, fld 28 2)]) = none → s.m.rowFrame.twin.pair = .paired →
      exec .twDetach s = answers s (s.m.rowDone [(0, 0x20015, fld 28 2)] (fun m =>
        { m with twin := { m.twin with pair := .detaching, cmd := 2 }, tx := { m.tx with detachNext := true } }))) ∧
    (∀ (r : Fin 4096) (lag : Bool), s.m.validate (rowTx [(0, 0x20015, fld 28 4 ||| flag 27 lag ||| fld 0 r)]) = none →
      exec (.twRepair r lag) s = answers s (s.m.rowDone [(0, 0x20015, fld 28 4 ||| flag 27 lag ||| fld 0 r)] (fun m => m.twRepair r lag))))

/-- KEY_LOAD, KEY_CLEAR, CRYPTO_ERASE, SEAM_START (R321, R324, R325, R327): the slot's operation takes place at the next frame boundary with the
24 words given, words that are not given being zero; no key word is held as a plate. -/
def Obligations.KeyCommandsTakeEffect : Prop :=
  ∀ s : State, s.m.coreOn = true → s.m.fore.ready = true →
    (∀ (r : Fin 4096) (ws : List Word), s.m.validate (rowTx (slotWrites r ws 1)) = none →
      exec (.keyLoad r ws) s = answers s (s.m.rowDone (slotWrites r ws 1)
        (fun m => m.keyLoad r (slotOfWords ((List.range 24).map (fun k => ws.getD k 0)))))) ∧
    (∀ r : Fin 4096, s.m.validate (rowTx (slotWrites r [] 2)) = none →
      exec (.keyClear r) s = answers s (s.m.rowDone (slotWrites r [] 2) (fun m => m.keyClear r))) ∧
    (∀ r : Fin 4096, s.m.validate (rowTx (slotWrites r [] 3)) = none →
      exec (.cryptoErase r) s = answers s (s.m.rowDone (slotWrites r [] 3) (fun m => m.cryptoErase r))) ∧
    (∀ (e : Fin 2) (ctl : Word) (ws : List Word),
      s.m.validate (rowTx (slotWrites (4096 + e) ws 1 ++ [(e.val, 0x24041, ctl ||| flag 31 true)])) = none →
      exec (.seamStart e ctl ws) s = answers s
        (s.m.rowDone (slotWrites (4096 + e) ws 1 ++ [(e.val, 0x24041, ctl ||| flag 31 true)])
          (fun m => m.seamCtl e (ctl ||| flag 31 true) (some (slotOfWords ((List.range 24).map (fun k => ws.getD k 0))))))) ∧
    (∀ (n : Nat) (ws : List Word) (op : Nat) (eff : Mod → Mod), n < 4098 → (∀ m : Mod, (eff m).cfg = m.cfg) →
      ((s.m.rowDone (slotWrites n ws op) eff).cfg = s.m.rowFrame.cfg))

/-- SEAM_LINE_REWRITE of a running engine (R328–R332): unmapped pages are passed over, a poisoned line keeps its mark, any other line of the next
256 pages is rewritten while the dirty budget has room, and waits while it has none. A plate command whose transaction fails validation, such as
PCMD_M0 in M0, does nothing but leave its failure where FORE_LASTFAIL and the record show it (R248, R258, R351). -/
def Obligations.SeamAndFailedRowsAnswer : Prop :=
  ∀ s : State,
    (∀ (e : Fin 2) (ok : Bool) (bad : List (Fin 10)), s.m.evacRunning = false → 4 ≤ s.m.pwr.phase → (s.m.seam e).st = .running →
      (let x := s.m.seam e
       let lineNo := s.m.lineAt x.region x.ptr
       (s.m.seamMapped (lineNo / 64) = false → exec (.seamLineRewrite e ⟨ok, bad⟩) s = answers s (s.m.seamAdvance e x.ptr)) ∧
       (s.m.seamMapped (lineNo / 64) = true → x.ptr / 64 < regPages (s.m.rw1 x.region) → x.ptr / 64 < x.durable + 256 →
         s.m.poisoned lineNo = true → exec (.seamLineRewrite e ⟨ok, bad⟩) s = answers s (s.m.seamAdvance e (x.ptr + 1))) ∧
       (s.m.seamMapped (lineNo / 64) = true → x.ptr / 64 < regPages (s.m.rw1 x.region) → x.ptr / 64 < x.durable + 256 →
         s.m.poisoned lineNo = false → exec (.seamLineRewrite e ⟨ok, bad⟩) s =
           answers s (if s.m.dt + 4096 ≤ s.m.budget then s.m.seamRewrite e lineNo ok bad else s.m)))) ∧
    (∀ f : Fail, s.m.coreOn = true → s.m.fore.ready = true → s.m.validate (rowTx [(0, 0x28041, 0)]) = some f →
      exec .pcmdM0 s = answers s
        (let m : Mod := { s.m with fore := { s.m.fore with lastSrc := 2, lastSub := f.sub, lastCode := f.code.code, lastIdx := f.idx,
                                                           txfail := s.m.fore.txfail + 1 } }
         m.tally 3 0 islFore (leBytes 8 (failWord f) ++ leBytes 4 0 ++ leBytes 1 0)))

/-! ### Persistence -/

/-- CAP_TEST_START, CAP_TEST_DONE, CAP_TEST_DEFER, BUDGET_RECOMPUTE (R188–R191): a test starts at start-up at once, 60 s after a failure, and
later, INTERVAL after the last, only while the dirty data fits the budget at 30.0 V; it passes at 22 mF and 200 mΩ, otherwise the budget
is zero; after 10 s above that budget it is deferred by 60 s; the budget of BUDGET_RECOMPUTE applies at the next boundary.
UNDERVOLTAGE, PWRFAIL_IN, VIN_OVERVOLTAGE, DEBOUNCE_END (R192–R195, R340): the debounce runs from the first sign with its cause while nothing
of the kind runs already, PWRFAIL_N counting only under PFIN and while the module does not drive it; at its end, 40 µs on, a supply that is
good again is counted and anything else is an Evacuate with the debounce's cause. -/
def Obligations.HoldupAndPowerFailCommandsAnswer : Prop :=
  (∀ s : State,
    (s.m.per.debounce = none → s.m.per.evac = none → s.m.per.testing = false → s.m.pwr.phase ≠ 0 →
      s.m.per.testWait ≤ s.m.time.dtc →
      ((s.m.per.tested = false ∨ s.m.per.testFailed = true) →
        exec .capTestStart s = answers s { s.m with per := { s.m.per with testing := true } }) ∧
      (s.m.per.tested = true → s.m.per.testFailed = false →
        (s.m.per.testPending.isSome = true ∨ s.m.per.testAt + bits (s.m.w 0 0x70010) 4 0 * 3600000000000 ≤ s.m.time.dtc) →
        (s.m.dt ≤ s.m.budgetAt 30000 →
          exec .capTestStart s = answers s { s.m with per := { s.m.per with testing := true, testPending := none } }) ∧
        (s.m.budgetAt 30000 < s.m.dt → exec .capTestStart s = answers s { s.m with per := { s.m.per with
          testPending := some (s.m.per.testPending.getD (s.m.time.dtc + 10000000000)), budgetNext := some (s.m.budgetAt 30000, 1) } }))) ∧
    (∀ cap esr : Nat, s.m.per.testing = true →
      (2200 ≤ cap → esr ≤ 2000 → exec (.capTestDone cap esr) s = answers s { s.m with per := { s.m.per with
        testing := false, recharge := true, tested := true, testFailed := false, testAt := s.m.time.dtc, cap := cap, esr := esr } }) ∧
      (cap < 2200 ∨ 2000 < esr → exec (.capTestDone cap esr) s = answers s
        (Mod.bump { s.m with per := { s.m.per with
          testing := false, recharge := true, testFailed := true, testWait := s.m.time.dtc + 60000000000, budget := 0, budgetNext := none,
          term := 3 } } cHoldup))) ∧
    (∀ t : Nat, s.m.per.testPending = some t → t ≤ s.m.time.dtc → s.m.budgetAt 30000 < s.m.dt →
      exec .capTestDefer s = answers s
        (Mod.bump { s.m with per := { s.m.per with testPending := none, testWait := s.m.time.dtc + 60000000000 } } cHoldup)) ∧
    (∀ vhu : Nat,
      (let m : Mod := { s.m with per := { s.m.per with vhu := vhu, recharge := s.m.per.recharge && decide (vhu < 31800) } }
       let next : Nat × Nat → Mod := fun b => { m with per := { m.per with budgetNext := some b } }
       (s.m.pwr.phase < 4 → exec (.budgetRecompute vhu) s = answers s (next (0, 2))) ∧
       (4 ≤ s.m.pwr.phase → s.m.per.tested = true → s.m.per.testFailed = true → exec (.budgetRecompute vhu) s = answers s (next (0, 3))) ∧
       (4 ≤ s.m.pwr.phase → s.m.per.tested = true → s.m.per.testFailed = false → s.m.per.testPending = none →
         exec (.budgetRecompute vhu) s = answers s (next (m.budgetAt vhu, m.budgetTerm vhu))) ∧
       (4 ≤ s.m.pwr.phase → s.m.per.tested = true → s.m.per.testFailed = false → s.m.per.testPending.isSome = true →
         exec (.budgetRecompute vhu) s = answers s (next (m.budgetAt (min vhu 30000), m.budgetTerm (min vhu 30000))))))) ∧
  (∀ s : State,
    (let started : Nat → Mod := fun c => Mod.rollPage { s.m with per := { s.m.per with debounce := some s.m.time.dtc, debounceCause := c } }
     s.m.per.debounce = none → s.m.per.evac = none → s.m.pwr.phase ≠ 0 → s.m.pwr.aonReset = false →
      exec .undervoltage s = answers s (started 1) ∧
      (bit (s.m.w 0 0x7002C) 16 = true → s.m.drivesPwrfail = false → exec .pwrfailIn s = answers s (started 2)) ∧
      (bit (s.m.w 0 0x7002C) 16 = false → exec .pwrfailIn s = answers s s.m) ∧
      (∀ mv : Nat, 21000 < mv → mv ≤ 24000 → exec (.vinOvervoltage mv) s = answers s (started 1)) ∧
      (∀ mv : Nat, mv ≤ 21000 → exec (.vinOvervoltage mv) s = answers s s.m)) ∧
    (∀ (t : Nat), s.m.per.debounce = some t →
      (let d : Mod := s.m.passUntil (t + 40000)
       let m : Mod := { d with per := { d.per with debounce := none } }
       d.per.debounce.isSome = true →
       exec (.debounceEnd true true) s = answers s (m.bump cPf) ∧
       (∀ g p : Bool, (g && p) = false → exec (.debounceEnd g p) s = answers s (m.evacCommit d.per.debounceCause)))))

/-- The steps of Evacuate (R196–R206, R211, R468): EVACUATE_COMMIT with a cause begins it once a budget has been written, and powers down before;
the manifest, the links (off once the twin has acknowledged every record sent, or 25 µs after the commit, R227), the image, the metadata,
the marker and the power-down follow in this order, and without a manifest the DTC is saved as the module powers down (R17); the marker
threshold abandons the image, the floor powers down, and after the end a supply that is back begins a start. How many image lines an
abandoned image wrote is an open value (log entry 115). -/
def Obligations.EvacuateCommandsAnswer : Prop :=
  ∀ s : State,
    (∀ c : Fin 9, c.val ≠ 0 → s.m.per.evac = none → s.m.pwr.phase ≠ 0 → s.m.pwr.aonReset = false →
      (s.m.per.everBudget = true → exec (.evacuateCommit c) s = answers s (s.m.evacStart c)) ∧
      (s.m.per.everBudget = false → exec (.evacuateCommit c) s = answers s (s.m.powerDown (s.m.pwr.down.getD .m4)))) ∧
    (∀ ev : EvacSt, s.m.per.evac = some ev →
      (ev.step = 2 → ev.noManifest = false → exec .evacManifestDurable s = answers s s.m.evacManifest) ∧
      (ev.step = 4 → (s.m.linkUp = false ∨ s.m.twin.recs.any (·.sent) = false ∨ ev.at_ + 25000 ≤ s.m.time.dtc) →
        exec .evacLinksOff s = answers s (s.m.linksOff.evSetOf (fun e => { e with step := 5 }))) ∧
      (ev.step = 5 → ev.noManifest = false → ev.abandoned = false → exec .evacImageDone s = answers s
        ((s.m.setImage (fun i => { i with
          complete := true, written := manLines i.man, lost := s.m.evacLost ev i, flags := Nat.lor i.flags ev.hopLost.toNat })).evSetOf
          (fun e => { e with step := 6 }))) ∧
      (ev.step = 6 → ev.abandoned = false →
        exec .evacMetadataDurable s = answers s (s.m.tailDurable.evSetOf (fun e => { e with step := 7 }))) ∧
      (ev.step = 7 → ev.noManifest = false → exec .evacMarkerDurable s = answers s
        (let m := s.m.setImage (fun i => { i with
           marker := true, markDtc := s.m.time.dtc,
           written := if ev.abandoned then min (manLines i.man) (Config.imageLines i.e) else i.written,
           flags := Nat.lor i.flags (2 * ev.abandoned.toNat + ev.hopLost.toNat) })
         let m : Mod := { m with rep := { m.rep with evtime := (m.time.dtc - ev.at_) / 1000 } }
         ((m.seedWrite (.prec (.evacuated m.nv2.evSeq))).saveDtc).evSetOf (fun e => { e with step := 8 }))) ∧
      ((ev.step = 8 ∨ (ev.noManifest = true ∧ ev.step = 7)) → exec .evacPowerDown s = answers s
        (let d := if ev.noManifest then s.m.saveDtc else s.m
         let m := d.powerDown (s.m.evacDown ev)
         { m with pwr := { m.pwr with tripDown := ev.cause = 3 } })) ∧
      (4 ≤ ev.step → ev.step < 7 → ev.noManifest = false →
        exec .markerThreshold s = answers s (s.m.evSetOf (fun e => { e with abandoned := true }))) ∧
      exec .vhuFloor s = answers s (s.m.powerDown .m4) ∧
      (8 ≤ ev.step → s.m.evacDown ev = .m4 → ev.cause ≠ 3 → s.m.pwr.aonReset = false → s.m.pwr.tripDown = false →
        exec .vinReturnWaitExpiry s = answers s (s.m.powerCut .m4).startBegin)) ∧
    (s.m.per.evac = none → s.m.pwr.down = some .m4 → s.m.pwr.aonReset = false → s.m.pwr.tripDown = false →
      exec .vinReturnWaitExpiry s = answers s s.m.startBegin)

/-- EVACUATE_TEST_COMMAND, DIRTY_ROLL_WINDOW, ROLL_BASE, SUSPECT_ACK, RECOVERY (R200, R205, R207–R214): the test and the acknowledgement are writes
of PER_EVCMD and PER_SUS_ACK on a path; a roll page takes the staged page numbers, a base lists the dirty pages and keeps nothing
before it; recovery runs once in PHASE 3 and ends at its own boundary. -/
def Obligations.RollAndRecoveryCommandsAnswer : Prop :=
  ∀ s : State,
    (∀ p : Path, pathTakes s.m p 0x70038 → exec (.evacuateTestCommand p) s = answers s (wrote s.m p 0x70038 0x5E7A true)) ∧
    (∀ p : Path, pathTakes s.m p 0x70064 → exec (.suspectAck p) s = answers s (wrote s.m p 0x70064 (s.m.cntW cSus) true)) ∧
    (s.m.rollRuns = true →
      exec .dirtyRollWindow s = answers s { s.m with
        nv2 := { s.m.nv2 with roll := s.m.nv2.roll ++
          [{ base := false, endDtc := s.m.time.dtc, pages := s.m.rep.rollStaged, e := s.m.nv2.evSeq, start := s.m.rollSince }] }
        rep := { s.m.rep with rollStaged := [] } } ∧
      exec .rollBase s = answers s { s.m with
        nv2 := { s.m.nv2 with roll :=
          [{ base := true, endDtc := s.m.time.dtc, pages := s.m.dirtyPages, e := s.m.nv2.evSeq, start := s.m.time.dtc }] }
        rep := { s.m.rep with rollStaged := [] } }) ∧
    (∀ f : RecoveryFinding, s.m.pwr.phase = 3 → s.m.fore.ready = false → (s.m.recover f).fore.ready = true →
      exec (.recovery f) s = answers s ((s.m.recover f).hooksBoundary s.m.cfg.plates))

/-! ### Twin pairing -/

/-- LINE and PART (R222, R223, R226): at a paired module whose Twin Link has trained, a record that does not continue the stream breaks the pair
with cause 4; a live record of a region held here is stored as received and acknowledged, a resync line only while its page is open and the
line has not come live since; one for a line this module does not hold is acknowledged without effect. `Mod.genSeen` moves the copy's Seam
pointer with a line under the new generation (R226). -/
def Obligations.MirrorRecordCommandsAnswer : Prop :=
  ∀ (s : State) (r : Fin 4096) (lineNo msn gen : Nat) (ct : Line) (poison sync : Bool), s.m.twin.pair = .paired → s.m.twin.trained = true →
    (∀ (side rs : Bool), s.m.msnNext msn = false →
      exec (.line r lineNo msn gen ct poison side sync rs) s = answers s (s.m.breakPair 4)) ∧
    (∀ m' : Mod, s.m.msnNext msn = true → (s.m.twr r).held = true → s.m.regionOf (granOfLine lineNo) = some r.val →
      (s.m.genSeen r lineNo gen).storeLine r lineNo ct poison = some m' →
      exec (.line r lineNo msn gen ct poison false sync false) s = answers s ((m'.openMark r lineNo).applied msn)) ∧
    (s.m.msnNext msn = true → (s.m.twr r).held = true → s.m.regionOf (granOfLine lineNo) = some r.val →
      (s.m.genSeen r lineNo gen).storeLine r lineNo ct poison = none →
      exec (.line r lineNo msn gen ct poison false sync false) s = answers s (s.m.genSeen r lineNo gen)) ∧
    (s.m.msnNext msn = true → (s.m.twr r).held = true → s.m.regionOf (granOfLine lineNo) = some r.val →
      (let g : Mod := s.m.genSeen r lineNo gen
       (g.twin.rsopen.find? (fun e => e.1 = lineNo / 64) = none →
         exec (.line r lineNo msn gen ct poison false sync true) s = answers s (g.applied msn)) ∧
       (∀ e : Nat × Dword × Nat, g.twin.rsopen.find? (fun e => e.1 = lineNo / 64) = some e →
         (e.2.1.getLsbD (lineNo % 64) = true →
           exec (.line r lineNo msn gen ct poison false sync true) s = answers s ((g.rsCount (lineNo / 64)).applied msn)) ∧
         (∀ m' : Mod, e.2.1.getLsbD (lineNo % 64) = false → g.storeLine r lineNo ct poison = some m' →
           exec (.line r lineNo msn gen ct poison false sync true) s = answers s ((m'.rsCount (lineNo / 64)).applied msn))))) ∧
    (∀ rs : Bool, s.m.msnNext msn = true → (s.m.twr r).held = true → s.m.regionOf (granOfLine lineNo) = some r.val →
      exec (.line r lineNo msn gen ct poison true sync rs) s = answers s (((s.m.genSeen r lineNo gen).putTags lineNo ct).applied msn)) ∧
    (s.m.msnNext msn = true → (s.m.twr r).held = false →
      exec (.line r lineNo msn gen ct poison false sync false) s = answers s (s.m.applied msn)) ∧
    (∀ (mask : Dword), s.m.msnNext msn = false →
      exec (.part r lineNo msn gen mask ct poison) s = answers s (s.m.breakPair 4)) ∧
    (∀ (mask : Dword) (e : Mbe), s.m.msnNext msn = true → (s.m.twr r).held = true → s.m.regionOf (granOfLine lineNo) = some r.val →
      s.m.poisoned lineNo = false → s.m.hop.merge.find? (fun e => e.lineNo = lineNo) = some e →
      exec (.part r lineNo msn gen mask ct false) s = answers s
        (((s.m.modMerge lineNo (fun e => { e with mask := e.mask ||| mask, data := overlay mask e.data ct, acked := true, msn })).openMark r
          lineNo).applied msn)) ∧
    (∀ (mask : Dword), s.m.msnNext msn = true → (s.m.twr r).held = false →
      exec (.part r lineNo msn gen mask ct poison) s = answers s (s.m.applied msn))

/-- ACK, HB, HB_SEND, NAK, TWIN_FLIT, TWIN_FLIT_CRC_ERROR (R218, R219, R222, R228): an acknowledgement covers every record up to its MSN, an
epoch other than the module's own breaks the pair, a NAK's flits are sent again from the replay buffer and counted, a bad flit is asked for
by a NAK, a good one brings its acknowledgement, which frees the replay buffer, and its credits.
HEARTBEAT_PULSE, TWIN_HB_IN_EDGE, SIDEBAND_SILENT, LINK_SILENT, LAG_LIMIT, LAG_WARNING, TWIN_LINK_DOWN, TWIN_LINK_TRAINED, PAIRING_STROBE
(R218, R220, R221, R224, R225, R228): the sideband lives by its edges and is silent 300 µs after the last, the link 100 µs after the last good
flit, and the pair breaks with the cause the rule gives. -/
def Obligations.TwinStreamAndLivenessCommandsAnswer : Prop :=
  (∀ s : State,
    (∀ n : Nat, s.m.twin.pair = .paired → s.m.twin.ackmsn < n → n ≤ s.m.twin.txmsn →
      exec (.ack n) s = answers s
        (let m : Mod := { s.m with twin := { s.m.twin with ackmsn := n, lagPeak := max s.m.twin.lagPeak s.m.lagNow,
                                                           recs := s.m.twin.recs.filter (fun r => n < r.msn) } }
         (m.releaseSync (· ≤ n)).lineCovered (· ≤ n))) ∧
    (∀ n : Nat, n ≤ s.m.twin.ackmsn ∨ s.m.twin.txmsn < n → exec (.ack n) s = answers s s.m) ∧
    (s.m.twin.trained = true →
      (∀ (st : Fin 2) (e msn dtc : Nat), (s.m.twin.pair ≠ .paired ∨ e = s.m.epochNow) → exec (.hb st e msn dtc) s = answers s s.m) ∧
      (∀ (st : Fin 2) (e msn dtc : Nat), s.m.twin.pair = .paired → e ≠ s.m.epochNow →
        exec (.hb st e msn dtc) s = answers s (s.m.breakPair 6)) ∧
      exec .hbSend s = answers s (s.m.sendFrame [4, s.m.evacRunning.toNat, s.m.epochNow, s.m.twin.txmsn, s.m.time.dtc]) ∧
      (∀ seq : BitVec 16,
        (let again := s.m.tx.buf.drop (s.m.tx.buf.length - (s.m.tx.flitTx + 65536 - seq.toNat) % 65536)
         exec (.nak seq) s = answers s (again.foldl (fun m f => m.flitOut f)
           { s.m with twin := { s.m.twin with replay := s.m.twin.replay + again.length } }))) ∧
      (∀ seq : BitVec 16, exec (.twinFlitCrcError seq) s = answers s (s.m.sendFrame [6, (s.m.tx.lastGood + 1) % 65536])) ∧
      (∀ (seq ack : BitVec 16) (credits : Nat),
        (let left := (s.m.tx.flitTx + 65535 - ack.toNat) % 65536
         left ≤ s.m.tx.flitTx - s.m.tx.flitAck →
         exec (.twinFlit seq ack credits) s = answers s (Mod.twinPump (Mod.flitRoom { s.m with
           tx := { s.m.tx with
             lastGood := seq.toNat, flitAck := s.m.tx.flitTx - left, goodAt := s.m.time.dtc, buf := s.m.tx.buf.drop (s.m.tx.buf.length - left) }
           twin := { s.m.twin with credits := s.m.twin.credits + credits } })))))) ∧
  (∀ s : State,
    (bit (s.m.w 0 0x80004) 0 = true → s.m.pwr.pstate < 4 → s.m.pwr.aonReset = false → s.m.pwr.phase ≠ 0 →
      exec .heartbeatPulse s = answers s (s.m.emit (.hbPulse (if s.m.evacRunning then 3 else 1)))) ∧
    (∀ wide : Bool, s.m.pwr.aonReset = false →
      exec (.twinHbInEdge wide) s = answers s { s.m with tx := { s.m.tx with sbLive := true, sbWide := wide, sbAt := s.m.time.dtc } }) ∧
    (s.m.tx.sbLive = true → s.m.tx.sbAt + 300000 ≤ s.m.time.dtc → exec .sidebandSilent s = answers s
      { s.m with tx := { s.m.tx with sbLive := false, sbWide := false }, twin := { s.m.twin with sbmiss := s.m.twin.sbmiss + 1 } }) ∧
    (s.m.twin.trained = true → s.m.tx.goodAt + 100000 ≤ s.m.time.dtc → exec .linkSilent s = answers s
      (let m := s.m.breakPair 1
       { m with twin := { m.twin with helloed := false } })) ∧
    (20000 ≤ s.m.lagNow → exec .lagLimit s = answers s (s.m.breakPair 3)) ∧
    (s.m.lagNow < 20000 → exec .lagLimit s = answers s s.m) ∧
    exec .lagWarning s = answers s s.m ∧
    (s.m.twin.trained = true → exec .twinLinkDown s = answers s
      (let m := s.m.breakPair 5
       { m with twin := { m.twin with trained := false, helloed := false } })) ∧
    (bit (s.m.w 0 0x80004) 0 = true → s.m.linksOn = true → s.m.twin.trained = false →
      (s.m.twin.pair ≠ .attaching → s.m.nv.paired = none → exec (.twinLinkTrained true) s = answers s { s.m with
        twin := { s.m.twin with trained := true, helloed := false, credits := 0 }
        tx := { s.m.tx with flitTx := 0, flitAck := 0, granted := 0, buf := [], outq := [], goodAt := s.m.time.dtc } }) ∧
      (s.m.twin.pair = .attaching → exec (.twinLinkTrained true) s = answers s (Mod.sendHello { s.m with
        twin := { s.m.twin with trained := true, helloed := false, credits := 0 }
        tx := { s.m.tx with flitTx := 0, flitAck := 0, granted := 0, buf := [], outq := [], goodAt := s.m.time.dtc } })) ∧
      (s.m.twin.pair = .attaching → exec (.twinLinkTrained false) s = answers s (s.m.pairRefuse 4))) ∧
    (∀ v : Fin 2, s.m.twin.pair = .attaching → bit (s.m.w 0 0x80004) 1 = true →
      (let m := Mod.emit { s.m with tx := { s.m.tx with strobeSeen := some v.val } } (.strobe s.m.twin.side)
       (v.val = s.m.twin.side → exec (.pairingStrobe (some v)) s = answers s (m.pairRefuse 1)) ∧
       (v.val ≠ s.m.twin.side → exec (.pairingStrobe (some v)) s = answers s m))))

/-- HELLO, PROPOSE, COMMIT, DETACH (R231, R235): the messages of the handshake in the states that wait for them, with the epochs they agree on. -/
def Obligations.HandshakeCommandsAnswer : Prop :=
  ∀ (s : State) (e : Nat), s.m.twin.trained = true →
    (∀ (id pop : Dword) (p : Bool), s.m.twin.pair = .attaching → s.m.expectId ≠ id →
      exec (.hello id e p pop) s = answers s (Mod.pairRefuse { s.m with twin := { s.m.twin with peer := id } } 3)) ∧
    (∀ (id pop : Dword) (p : Bool), s.m.twin.pair = .attaching → s.m.expectId = id → s.m.twin.helloed = true → s.m.sideBy id = 1 →
      bit (s.m.w 0 0x80004) 1 = false →
      exec (.hello id e p pop) s = answers s { s.m with twin := { s.m.twin with peer := id, side := 1 } }) ∧
    (∀ (id pop : Dword) (p : Bool), s.m.twin.pair = .paired → e ≠ s.m.epochNow →
      exec (.hello id e p pop) s = answers s (Mod.breakPair { s.m with twin := { s.m.twin with peer := id } } 6)) ∧
    (s.m.twin.pair = .attaching → s.m.linkUp = true → s.m.twin.side = 1 → exec (.propose e) s = answers s
      (Mod.sendCtl { s.m with tx := { s.m.tx with proposed := some (max e (s.m.epochNow + 1)) } } ctlPropose [max e (s.m.epochNow + 1)])) ∧
    (∀ q : Nat, s.m.twin.pair = .attaching → s.m.linkUp = true → s.m.twin.side = 0 → s.m.tx.proposed = some q → s.m.tx.commitWait = none →
      exec (.propose e) s = answers s
        (Mod.seedWrite { s.m with tx := { s.m.tx with commitWait := some (max q e) } } (.epoch (max q e) (some s.m.twin.peer)))) ∧
    (s.m.twin.pair = .attaching → s.m.linkUp = true → s.m.twin.side = 1 → s.m.tx.commitWait = none →
      exec (.commit e) s = answers s
        (Mod.seedWrite { s.m with tx := { s.m.tx with commitWait := some e } } (.epoch e (some s.m.twin.peer)))) ∧
    (s.m.twin.pair = .attaching → s.m.linkUp = true → s.m.twin.side = 0 → s.m.nv.epoch = e → s.m.nv.paired.isSome = true →
      exec (.commit e) s = answers s s.m.nowPaired) ∧
    (s.m.linkUp = true → s.m.nv.paired.isSome = true → e = s.m.epochNow ∨ e = s.m.epochNow + 1 →
      exec (.detach e) s = answers s s.m.detachNow)

/-- REGCFG, TAKE, RSOPEN, RPULL, KEYCHK, BITMAP (R217, R226, R230–R234): the configuration waits for its boundary; a TAKE's regions become Stale at
the next boundary; a page opens in the table of 256; a pulled page is sent; the key check is compared and answered; the bitmap's
pages are to be copied. -/
def Obligations.RegionMessageCommandsAnswer : Prop :=
  ∀ (s : State) (r : Fin 4096), s.m.twin.pair = .paired → s.m.twin.trained = true → s.m.linkUp = true →
    (∀ (w0 w1 : Word) (gen : Nat) (er : Bool) (sg : Option Nat), s.m.homeHere r = false →
      exec (.regcfg r w0 w1 gen er sg) s = answers s { s.m with tx := { s.m.tx with
        regcfg := s.m.tx.regcfg ++ [{ region := r.val, w0, w1, gen, erase := er, seamGen := sg }] } }) ∧
    (∀ (w0 w1 : Word) (gen : Nat) (er : Bool) (sg : Option Nat), s.m.homeHere r = true →
      exec (.regcfg r w0 w1 gen er sg) s = answers s
        (s.m.setTwr r (fun x => { x with st := .refused, pages := [], rest := none }))) ∧
    (∀ (e : Nat), e ≤ s.m.epochNow → s.m.homeHere r = true →
      exec (.take e [r]) s = answers s { s.m with tx := { s.m.tx with takeNext := s.m.tx.takeNext ++ [r.val] } }) ∧
    (∀ (e : Nat), s.m.epochNow < e → s.m.homeHere r = false →
      exec (.take e [r]) s = answers s ((s.m.breakPair 6).seedWrite (.epoch e s.m.nv.paired))) ∧
    (∀ page msn : Nat, (s.m.twr r).held = true → s.m.twin.rsopen.length < 256 → s.m.tx.adopt = false →
      exec (.rsopen r page msn) s = answers s
        (Mod.setTwr { s.m with twin := { s.m.twin with rsopen := s.m.twin.rsopen.filter (fun e => e.1 != page) ++ [(page, (0 : Dword), 0)] } }
          r (fun x => { x with st := .resync }))) ∧
    (∀ page : Nat, (s.m.twr r).held = true → (s.m.twr r).st = .mirrored → exec (.rpull r page) s = answers s (s.m.sendPage r page)) ∧
    (∀ page : Nat, (s.m.twr r).held = false → exec (.rpull r page) s = answers s s.m) ∧
    (∀ (gen : Nat) (ct : Line),
      (let m := s.m.setTwr r (fun x => { x with keyok := s.m.keyTest r gen = some ct })
       ((m.twr r).held = false → exec (.keychk r gen ct) s = answers s m) ∧
       ((m.twr r).held = true →
         exec (.keychk r gen ct) s = answers s (m.sendCtl ctlKeychk [r, gen, ((s.m.keyTest r gen).getD 0).toNat])))) ∧
    (∀ pages : List Nat, s.m.homeHere r = true →
      exec (.bitmap r pages) s = answers s (pages.foldl (fun m p => m.addPage r p) s.m))

/-! ### Programs -/

/-- The immediate instructions of a foreman that stands before them (R265): ADDI, ANDI, ORI, XORI, SLTI, SLTIU, SLLI, SRLI, SRAI, LI, LIH. Each
writes rd with the value its rule gives and goes on at the next word; nothing else of the foreman changes but its step count. -/
def Obligations.ImmediateArithmeticCommandsAnswer : Prop :=
  ∀ (s : State) (f : Fin 8) (rd ra : BitVec 5) (imm : BitVec 14) (sh : BitVec 6) (u : BitVec 21),
    (Stands s.m f (.alui .addi rd ra imm) → exec (.addi f rd ra imm) s =
      answers s (fmDoes s.m f (fun x => x.put rd (x.val ra + imm.signExtend 64)))) ∧
    (Stands s.m f (.alui .andi rd ra imm) → exec (.andi f rd ra imm) s =
      answers s (fmDoes s.m f (fun x => x.put rd (x.val ra &&& imm.setWidth 64)))) ∧
    (Stands s.m f (.alui .ori rd ra imm) → exec (.ori f rd ra imm) s =
      answers s (fmDoes s.m f (fun x => x.put rd (x.val ra ||| imm.setWidth 64)))) ∧
    (Stands s.m f (.alui .xori rd ra imm) → exec (.xori f rd ra imm) s =
      answers s (fmDoes s.m f (fun x => x.put rd (x.val ra ^^^ imm.setWidth 64)))) ∧
    (Stands s.m f (.alui .slti rd ra imm) → exec (.slti f rd ra imm) s =
      answers s (fmDoes s.m f (fun x => x.put rd (if (x.val ra).toInt < imm.toInt then 1 else 0)))) ∧
    (Stands s.m f (.alui .sltiu rd ra imm) → exec (.sltiu f rd ra imm) s =
      answers s (fmDoes s.m f (fun x => x.put rd (if (x.val ra).toNat < (imm.signExtend 64 : Dword).toNat then 1 else 0)))) ∧
    (Stands s.m f (.shift .slli rd ra sh) → exec (.slli f rd ra sh) s =
      answers s (fmDoes s.m f (fun x => x.put rd (x.val ra <<< sh.toNat)))) ∧
    (Stands s.m f (.shift .srli rd ra sh) → exec (.srli f rd ra sh) s =
      answers s (fmDoes s.m f (fun x => x.put rd (x.val ra >>> sh.toNat)))) ∧
    (Stands s.m f (.shift .srai rd ra sh) → exec (.srai f rd ra sh) s =
      answers s (fmDoes s.m f (fun x => x.put rd ((x.val ra).sshiftRight sh.toNat)))) ∧
    (Stands s.m f (.li rd u) → exec (.li f rd u) s =
      answers s (fmDoes s.m f (fun x => x.put rd (u.signExtend 64)))) ∧
    (Stands s.m f (.lih rd u) → exec (.lih f rd u) s =
      answers s (fmDoes s.m f (fun x => x.put rd ((x.val rd <<< 21) ||| u.setWidth 64))))

/-- LD8, LD16, LD32, LD64, ST8, ST16, ST32, ST64 (R27, R268–R270): an access at rs + the sign-extended immediate that is aligned and inside the
scratch loads the bytes little-endian, or stores rd's low bytes; a single-bit error is corrected and counted; a misaligned access traps
with 0x82, one outside with 0x83, a load of a doubleword with a double-bit error, found now or before, with 0x89. -/
def Obligations.ScratchCommandsAnswer : Prop :=
  ∀ (s : State) (f : Fin 8) (rd rs : BitVec 5) (imm : BitVec 14),
    (let x := s.m.fm f
     let a := (x.val rs + imm.signExtend 64).toNat
     let m := s.m.countStep f
     (∀ e : Ecc, Stands s.m f (.ld .w8 rd rs imm) → a % 1 = 0 → a < 0x40000 → x.dbeIn a 1 = false → e ≠ .double →
       exec (.ld8 f rd rs ⟨imm, e⟩) s =
         answers s (fmDoes (s.m.eccMeets f (a / 8) e) f (fun x => x.put rd (BitVec.ofNat 64 (ofLe (x.bytes a 1)))))) ∧
     (∀ e : Ecc, Stands s.m f (.ld .w16 rd rs imm) → a % 2 = 0 → a < 0x40000 → x.dbeIn a 2 = false → e ≠ .double →
       exec (.ld16 f rd rs ⟨imm, e⟩) s =
         answers s (fmDoes (s.m.eccMeets f (a / 8) e) f (fun x => x.put rd (BitVec.ofNat 64 (ofLe (x.bytes a 2)))))) ∧
     (∀ e : Ecc, Stands s.m f (.ld .w32 rd rs imm) → a % 4 = 0 → a < 0x40000 → x.dbeIn a 4 = false → e ≠ .double →
       exec (.ld32 f rd rs ⟨imm, e⟩) s =
         answers s (fmDoes (s.m.eccMeets f (a / 8) e) f (fun x => x.put rd (BitVec.ofNat 64 (ofLe (x.bytes a 4)))))) ∧
     (∀ e : Ecc, Stands s.m f (.ld .w64 rd rs imm) → a % 8 = 0 → a < 0x40000 → x.dbeIn a 8 = false → e ≠ .double →
       exec (.ld64 f rd rs ⟨imm, e⟩) s =
         answers s (fmDoes (s.m.eccMeets f (a / 8) e) f (fun x => x.put rd (BitVec.ofNat 64 (ofLe (x.bytes a 8)))))) ∧
     (Stands s.m f (.st .w8 rd rs imm) → a % 1 = 0 → a < 0x40000 → exec (.st8 f rd rs imm) s =
       answers s (fmDoes s.m f (fun x =>
         let y := x.putBytes a (leBytes 1 (x.val rd).toNat)
         { y with pc := x.pc + 1, dbe := y.dbe }))) ∧
     (Stands s.m f (.st .w16 rd rs imm) → a % 2 = 0 → a < 0x40000 → exec (.st16 f rd rs imm) s =
       answers s (fmDoes s.m f (fun x =>
         let y := x.putBytes a (leBytes 2 (x.val rd).toNat)
         { y with pc := x.pc + 1, dbe := y.dbe }))) ∧
     (Stands s.m f (.st .w32 rd rs imm) → a % 4 = 0 → a < 0x40000 → exec (.st32 f rd rs imm) s =
       answers s (fmDoes s.m f (fun x =>
         let y := x.putBytes a (leBytes 4 (x.val rd).toNat)
         { y with pc := x.pc + 1, dbe := y.dbe }))) ∧
     (Stands s.m f (.st .w64 rd rs imm) → a % 8 = 0 → a < 0x40000 → exec (.st64 f rd rs imm) s =
       answers s (fmDoes s.m f (fun x =>
         let y := x.putBytes a (leBytes 8 (x.val rd).toNat)
         { y with pc := x.pc + 1, dbe := y.dbe.filter (fun k => k != a / 8) }))) ∧
     (∀ e : Ecc, Stands s.m f (.ld .w64 rd rs imm) → a % 8 = 0 → a < 0x40000 → e = .double →
       exec (.ld64 f rd rs ⟨imm, e⟩) s = answers s
         ((((Mod.setFm (s.m.eccMeets f (a / 8) e) f (fun x => { x with
           dbe := if x.dbe.contains (a / 8) then x.dbe else x.dbe ++ [a / 8] })).countStep f).endProg f 3 0x89).haltHold f)) ∧
     (∀ e : Ecc, Stands s.m f (.ld .w64 rd rs imm) → a % 8 ≠ 0 → exec (.ld64 f rd rs ⟨imm, e⟩) s = answers s ((m.endProg f 3 0x82).haltHold f)) ∧
     (Stands s.m f (.st .w32 rd rs imm) → a % 4 = 0 → 0x40000 ≤ a → exec (.st32 f rd rs imm) s =
       answers s ((m.endProg f 3 0x83).haltHold f)) ∧
     (Stands s.m f (.ld .w8 rd rs imm) → a < 0x40000 → x.dbeIn a 1 = true → exec (.ld8 f rd rs ⟨imm, .clean⟩) s =
       answers s ((m.endProg f 3 0x89).haltHold f)))

/-- BR, J, CALL, RET, LOOP, LOOPI, LEND (R267): branches and jumps go forward from the next word and leave the loops they pass; CALL saves the
return address in g31 and on a stack of eight; LOOP repeats to its LEND; the traps 0x85, 0x86, 0x87 stand where the rule puts them. -/
def Obligations.ControlFlowCommandsAnswer : Prop :=
  ∀ (s : State) (f : Fin 8) (ra rb : BitVec 5) (c : Fin 6) (off : BitVec 10) (u : BitVec 21) (n : BitVec 11),
    (let m := s.m.countStep f
     let x := s.m.fm f
     (Stands s.m f (.br ra rb c off) → brCond c (x.val ra) (x.val rb) = true →
       exec (.br f ra rb c off) s = answers s (fmDoes s.m f (fun x => x.jump (x.pc + 1 + off.toNat)))) ∧
     (Stands s.m f (.br ra rb c off) → brCond c (x.val ra) (x.val rb) = false →
       exec (.br f ra rb c off) s = answers s (fmDoes s.m f (fun x => { x with pc := x.pc + 1 }))) ∧
     (Stands s.m f (.j u) → exec (.j f u) s = answers s (fmDoes s.m f (fun x => x.jump (x.pc + 1 + u.toNat)))) ∧
     (∀ p : Prog, Stands s.m f (.call u) → x.prog = some p → x.calls.length < 8 →
       exec (.call f u) s = answers s (fmDoes s.m f (fun x => { x.setG 31 (BitVec.ofNat 64 (x.pc + 1)) with
         calls := (x.pc + 1, x.loops.length) :: x.calls, pc := p.base + u.toNat }))) ∧
     (Stands s.m f (.call u) → 8 ≤ x.calls.length → exec (.call f u) s = answers s ((m.endProg f 3 0x85).haltHold f)) ∧
     (∀ (e : Nat × Nat) (l : List (Nat × Nat)), Stands s.m f .ret → x.calls = e :: l → x.reg 31 = BitVec.ofNat 64 e.1 →
       exec (.ret f) s = answers s (fmDoes s.m f (fun x => x.leave e l))) ∧
     (∀ (e : Nat × Nat) (l : List (Nat × Nat)), Stands s.m f .ret → x.calls = e :: l → x.reg 31 ≠ BitVec.ofNat 64 e.1 →
       exec (.ret f) s = answers s ((m.endProg f 3 0x86).haltHold f)) ∧
     (Stands s.m f .ret → x.calls = [] → exec (.ret f) s = answers s ((m.endProg f 3 0x86).haltHold f)) ∧
     (Stands s.m f (.loop ra off) → x.loops.length < 8 →
       exec (.loop f ra off) s = answers s (fmDoes s.m f (fun x => x.pushLoop ((x.val ra).toNat % 2 ^ 32) off.toNat))) ∧
     (Stands s.m f (.loopi n off) → x.loops.length < 8 →
       exec (.loopi f n off) s = answers s (fmDoes s.m f (fun x => x.pushLoop n.toNat off.toNat))) ∧
     (Stands s.m f (.loopi n off) → 8 ≤ x.loops.length → exec (.loopi f n off) s = answers s ((m.endProg f 3 0x87).haltHold f)) ∧
     (∀ (t : LoopE) (l : List LoopE), Stands s.m f .lend → x.loops = t :: l → t.stop = x.pc → t.depth = x.calls.length →
       exec (.lend f) s = answers s (fmDoes s.m f (fun x => x.loopEnd t l))) ∧
     (Stands s.m f .lend → x.loops = [] → exec (.lend f) s = answers s ((m.endProg f 3 0x87).haltHold f)))

/-- PLD, PST, PWAIT, PWAIT_END, YIELD, YIELD_END, EVWAIT, EVWAIT_END (R271–R274, R281, R282): a plate's word is read zero-extended; a store to a
read-only plate has no effect, one to an immediate plate is made at once, one to a staged plate joins the open transaction or is a
transaction of its own; a wait whose condition holds ends with 0, one whose time has run out with 1, and any other waits. -/
def Obligations.PlateAndWaitCommandsAnswer : Prop :=
  ∀ (s : State) (f : Fin 8) (r rd rs : BitVec 5) (e : Bool) (idx : BitVec 20) (imm : BitVec 14),
    (let m := s.m.countStep f
     let x := s.m.fm f
     let i := x.plateIdx e idx
     (Stands s.m f (.pld r e idx) → plateKind i ≠ .unassigned → exec (.pld f r e idx) s = answers s
       (((m.readWord (3 + f) i).2.setFm f (fun x => x.put r ((m.readWord (3 + f) i).1.setWidth 64))).haltHold f)) ∧
     (Stands s.m f (.pld r e idx) → plateKind i = .unassigned → exec (.pld f r e idx) s =
       answers s ((m.endProg f 3 0x84).haltHold f)) ∧
     (Stands s.m f (.pst r e idx) → plateKind i = .ro →
       exec (.pst f r e idx) s = answers s (fmDoes s.m f (fun x => { x with pc := x.pc + 1 }))) ∧
     (Stands s.m f (.pst r e idx) → plateKind i = .select → exec (.pst f r e idx) s = answers s
       (((m.setFm f (fun x => { x with pc := x.pc + 1 })).immWrite (3 + f) i ((x.val r).setWidth 32) true).haltHold f)) ∧
     (Stands s.m f (.pst r e idx) → plateKind i = .immediate → exec (.pst f r e idx) s = answers s
       ((((m.setFm f (fun x => { x with pc := x.pc + 1 })).setFm f (fun x => { x with immW := x.immW + 1 })).immWrite (3 + f) i
         ((x.val r).setWidth 32) true).haltHold f)) ∧
     (Stands s.m f (.pst r e idx) → plateKind i = .staged ∨ plateKind i = .unassigned → exec (.pst f r e idx) s = answers s
       (Mod.haltHold (let m := m.setFm f (fun x => { x with pc := x.pc + 1 })
         match m.mkWrite (3 + f) i ((x.val r).setWidth 32) with
         | none => m
         | some w => match x.tx with
           | some t => m.setFm f (fun x => { x with tx := some (t.hold w) })
           | none => m.oneWrite f w) f)) ∧
     (Stands s.m f (.pwait r e idx) → (x.reg (r.toNat + 1)).toNat % 2 ^ 32 < 4 → plateKind i ≠ .unassigned →
       pwaitCond ((x.reg (r.toNat + 1)).toNat % 4) (m.pwaitValue f i) (x.val r).toNat = true →
       exec (.pwait f r e idx) s = answers s ((m.waitEnd f (r.toNat + 1) 0).haltHold f)) ∧
     (Stands s.m f (.pwait r e idx) → (x.reg (r.toNat + 1)).toNat % 2 ^ 32 < 4 → plateKind i ≠ .unassigned →
       pwaitCond ((x.reg (r.toNat + 1)).toNat % 4) (m.pwaitValue f i) (x.val r).toNat = false → (x.reg (r.toNat + 1)).toNat / 2 ^ 32 ≠ 0 →
       exec (.pwait f r e idx) s = answers s (fmDoes s.m f (fun y => { y with
         wait := .plate r.toNat i ((x.reg (r.toNat + 1)).toNat % 4) (x.val r).toNat
           (s.m.time.dtc + (x.reg (r.toNat + 1)).toNat / 2 ^ 32) }))) ∧
     (∀ q j c cmp t : Nat, x.wait = .plate q j c cmp t → x.halted = false → x.stopped = false →
       (pwaitCond c (s.m.pwaitValue f j) cmp = true → exec (.pwaitEnd f) s = answers s (s.m.waitEnd f (q + 1) 0)) ∧
       (pwaitCond c (s.m.pwaitValue f j) cmp = false → t ≤ s.m.time.dtc → exec (.pwaitEnd f) s = answers s (s.m.waitEnd f (q + 1) 1)) ∧
       (pwaitCond c (s.m.pwaitValue f j) cmp = false → s.m.time.dtc < t → exec (.pwaitEnd f) s = answers s s.m)) ∧
     (Stands s.m f (.yield imm) →
       exec (.yield f imm) s = answers s (fmDoes s.m f (fun x => { x with wait := .frames imm.toNat }))) ∧
     (x.wait = .frames 0 → x.halted = false → x.stopped = false →
       exec (.yieldEnd f) s = answers s (s.m.setFm f (fun x => { x with pc := x.pc + 1, wait := .none_ }))) ∧
     (Stands s.m f (.evwait rd rs imm) → x.evSrc rs imm < 576 → (m.src (x.evSrc rs imm)).pending = true →
       exec (.evwait f rd rs imm) s = answers s ((m.waitEnd f rd.toNat 0).haltHold f)) ∧
     (Stands s.m f (.evwait rd rs imm) → x.evSrc rs imm < 576 → (m.src (x.evSrc rs imm)).pending = false → (x.val rd).toNat % 2 ^ 32 ≠ 0 →
       exec (.evwait f rd rs imm) s = answers s (fmDoes s.m f (fun y => { y with
         wait := .event (x.evSrc rs imm) rd.toNat (s.m.time.dtc + (x.val rd).toNat % 2 ^ 32) }))) ∧
     (Stands s.m f (.evwait rd rs imm) → 576 ≤ x.evSrc rs imm →
       exec (.evwait f rd rs imm) s = answers s ((m.endProg f 3 0x8C).haltHold f)) ∧
     (∀ a b t : Nat, x.wait = .event a b t → x.halted = false → x.stopped = false →
       ((s.m.src a).pending = true → exec (.evwaitEnd f) s = answers s (s.m.waitEnd f b 0)) ∧
       ((s.m.src a).pending = false → t ≤ s.m.time.dtc → exec (.evwaitEnd f) s = answers s (s.m.waitEnd f b 1))))

/-- LRD, LRDX, LWR, LZERO, LFLUSH, LPIN, LUNPIN, LINE_OP_DONE, LINE_OP_DEADLINE, CUSEL, CUFEED, CUGET, CUPUT (R275–R279, R469): an operation whose
operands are no trap starts on its line, its end writes its status and goes on, its bound, to which time passes, ends it with DEADLINE; a check unit is
selected, fed bytes of the scratch, read and set, and an instruction without one selected traps with 0x8B. -/
def Obligations.LineAndCheckUnitCommandsAnswer : Prop :=
  ∀ (s : State) (f : Fin 8) (rd ra rb : BitVec 5),
    (let m := s.m.countStep f
     let x := s.m.fm f
     let dev := (x.val ra).toNat
     let scr := (x.val rb).toNat
     (Stands s.m f (.line .lrd rd ra rb) → m.lineTrap f .lrd dev scr = none → exec (.lrd f rd ra rb) s =
       answers s ((m.lineStart (.foreman f) 0 rd.toNat (dev / 64) scr (~~~ 0) 0).haltHold f)) ∧
     (Stands s.m f (.line .lrdx rd ra rb) → m.lineTrap f .lrdx dev scr = none → exec (.lrdx f rd ra rb) s =
       answers s ((m.lineStart (.foreman f) 1 rd.toNat (dev / 64) scr (~~~ 0) 0).haltHold f)) ∧
     (Stands s.m f (.line .lwr rd ra rb) → m.lineTrap f .lwr dev scr = none → exec (.lwr f rd ra rb) s =
       answers s ((m.lineStart (.foreman f) 2 rd.toNat (dev / 64) scr (x.val rd) 0).haltHold f)) ∧
     (Stands s.m f (.line .lzero rd ra 0) → m.lineTrap f .lzero dev 0 = none → exec (.lzero f rd ra) s =
       answers s ((m.lineStart (.foreman f) 3 rd.toNat (dev / 64) 0 (~~~ 0) 0).haltHold f)) ∧
     (Stands s.m f (.line .lflush rd ra 0) → m.lineTrap f .lflush dev 0 = none → exec (.lflush f rd ra) s =
       answers s ((m.lineStart (.foreman f) 4 rd.toNat (dev / 64) 0 (~~~ 0) 0).haltHold f)) ∧
     (Stands s.m f (.line .lpin rd ra 0) → m.lineTrap f .lpin dev 0 = none → exec (.lpin f rd ra) s =
       answers s ((m.lineStart (.foreman f) 5 rd.toNat (dev / 64) 0 (~~~ 0) 0).haltHold f)) ∧
     (Stands s.m f (.line .lunpin rd ra 0) → m.lineTrap f .lunpin dev 0 = none → exec (.lunpin f rd ra) s =
       answers s ((m.lineStart (.foreman f) 6 rd.toNat (dev / 64) 0 (~~~ 0) 0).haltHold f)) ∧
     (∀ t : Nat, Stands s.m f (.line .lwr rd ra rb) → m.lineTrap f .lwr dev scr = some t → exec (.lwr f rd ra rb) s =
       answers s ((m.endProg f 3 t).haltHold f)) ∧
     (∀ (o : LineOp) (st : Nat), x.wait = .line o → o.status = some st →
       exec (.lineOpDone f) s = answers s (((s.m.waitEnd f o.rd st).happen 0x1B 1).haltHold f)) ∧
     (∀ o : LineOp, s.m.lineOp (.foreman f) = some o → o.status = none →
       exec (.lineOpDeadline f) s = answers s ((s.m.passUntil o.bound).lineStop f) ∧
       (o.bound ≤ s.m.time.dtc → exec (.lineOpDeadline f) s = answers s (s.m.lineDeadline (.foreman f)))) ∧
     (Stands s.m f (.cusel rd ra) → dev < 4 → exec (.cusel f rd ra) s = answers s
       (((m.cuSel f dev).2.setFm f (fun x => x.put rd (BitVec.ofNat 64 (m.cuSel f dev).1))).haltHold f)) ∧
     (Stands s.m f (.cusel rd ra) → 4 ≤ dev → exec (.cusel f rd ra) s = answers s ((m.endProg f 3 0x80).haltHold f)) ∧
     (∀ u : Nat, Stands s.m f (.cufeed ra rb) → scr ≠ 0 → scr ≤ 4096 → dev + scr ≤ 0x40000 → x.dbeIn dev scr = false → m.cuOf f = some u →
       exec (.cufeed f ra rb) s = answers s
         (((m.setCu u (fun c => c.feed (x.bytes dev scr))).setFm f (fun x => { x with pc := x.pc + 1 })).haltHold f)) ∧
     (∀ u : Nat, Stands s.m f (.cuget rd) → m.cuOf f = some u →
       exec (.cuget f rd) s = answers s (fmDoes s.m f (fun x => x.put rd (m.cu u).run))) ∧
     (∀ u : Nat, Stands s.m f (.cuput ra) → m.cuOf f = some u → exec (.cuput f ra) s = answers s
       (((m.setCu u (fun c => { c with run := x.val ra })).setFm f (fun x => { x with pc := x.pc + 1 })).haltHold f)) ∧
     (Stands s.m f (.cuput ra) → m.cuOf f = none → exec (.cuput f ra) s = answers s ((m.endProg f 3 0x8B).haltHold f)))

/-- TXB, TXC, TXA, EVSIG, EVACK, TIME, HALT, TRAP, STEP_BUDGET_EXHAUSTED, ILLEGAL_WORD, FETCH_OUTSIDE_AREA, COMMIT_UNIT_VALIDATE (R246–R250, R254,
R261, R262, R280–R286): a transaction opens, goes to the commit unit, or is dropped; the commit unit takes one transaction in order; a
program ends with its STATE and code. -/
def Obligations.TransactionAndEndCommandsAnswer : Prop :=
  ∀ (s : State) (f : Fin 8) (rd rs : BitVec 5) (imm : BitVec 14) (code : BitVec 8),
    (let m := s.m.countStep f
     let x := s.m.fm f
     (∀ p : Prog, Stands s.m f .txb → x.tx = none → x.prog = some p →
       exec (.txb f) s = answers s (fmDoes s.m f (fun x => { x with pc := x.pc + 1, tx := some { org := p.org } }))) ∧
     (Stands s.m f .txb → x.tx.isSome = true → exec (.txb f) s = answers s ((m.endProg f 3 0x88).haltHold f)) ∧
     (∀ t : Tx, Stands s.m f (.txc rd) → x.tx = some t → exec (.txc f rd) s = answers s
       (((m.setFm f (fun x => { x with pc := x.pc + 1, tx := none, wait := .txc })).sendOne { t with foreman := some (f.val, rd.toNat) }).haltHold
         f)) ∧
     (∀ p : Prog, Stands s.m f (.txc rd) → x.tx = none → x.prog = some p → exec (.txc f rd) s = answers s
       ((((m.setFm f (fun x => { x with pc := x.pc + 1 })).txFailed { org := p.org } ⟨.range, 0, 0⟩).txResult f rd.toNat
         (failWord ⟨.range, 0, 0⟩) (failWord ⟨.range, 0, 0⟩ % 65536) none).haltHold f)) ∧
     (Stands s.m f .txa → exec (.txa f) s = answers s (fmDoes s.m f (fun x => { x with pc := x.pc + 1, tx := none }))) ∧
     (∀ p : Prog, Stands s.m f (.evsig rd code) → x.prog = some p → exec (.evsig f rd code) s = answers s
       ((((m.setFm f (fun x => { x with pc := x.pc + 1 })).bump cSignal).tally 5 p.org.code islFore
         (leBytes 1 code.toNat ++ leBytes 8 (x.val rd).toNat ++ leBytes 4 (if p.org.src < 2 then p.org.hook else p.org.ticket))).haltHold
           f)) ∧
     (Stands s.m f (.evack rd rs imm) → x.evSrc rs imm < 576 → hasCnt (x.evSrc rs imm) = true → exec (.evack f rd rs imm) s = answers s
       (((m.ackSrc (x.evSrc rs imm)).setFm f (fun y => { y.put rd (BitVec.ofNat 64 (m.srcCnt (x.evSrc rs imm))) with
         immW := y.immW + 1 })).haltHold f)) ∧
     (Stands s.m f (.evack rd rs imm) → x.evSrc rs imm < 576 → hasCnt (x.evSrc rs imm) = false →
       exec (.evack f rd rs imm) s = answers s (fmDoes s.m f (fun x => x.put rd 0))) ∧
     (Stands s.m f (.time rd) →
       exec (.time f rd) s = answers s (fmDoes s.m f (fun x => x.put rd (BitVec.ofNat 64 (m.stamp islFore))))) ∧
     (Stands s.m f .halt → exec (.halt f) s = answers s ((m.endProg f 2 0).haltHold f)) ∧
     (Stands s.m f (.trap imm) → exec (.trap f imm) s = answers s ((m.endProg f 3 imm.toNat).haltHold f)) ∧
     (x.ready = true → x.spent = true → exec (.stepBudgetExhausted f) s = answers s (s.m.endProg f 4 0) ∧
       exec (.halt f) s = answers s (s.m.endProg f 4 0)) ∧
     (∀ w : Word, x.ready = true → x.spent = false → s.m.fetch f = some w → bdecode w = none →
       exec (.illegalWord f) s = answers s (m.endProg f 3 0x80)) ∧
     (x.ready = true → x.spent = false → s.m.fetch f = none → exec (.fetchOutsideArea f) s = answers s (m.endProg f 3 0x81)) ∧
     (∀ (t : Tx) (rest : List Tx), s.m.fore.commitQ = t :: rest → s.m.coreOn = true → s.m.fore.ready = true → s.m.canStage t = true →
       (let m : Mod := { s.m with fore := { s.m.fore with commitQ := rest } }
        (∀ e : Fail, m.validate t = some e → exec .commitUnitValidate s = answers s ((m.txFailed t e).txRelease t (some e))) ∧
        (m.validate t = none → exec .commitUnitValidate s = answers s
          (Mod.txRelease { m with fore := { m.fore with txnum := m.fore.txnum + 1, staged := m.fore.staged ++
            [{ t with num := m.fore.txnum + 1 }] } } t none)))) ∧
     (s.m.fore.commitQ = [] → exec .commitUnitValidate s = answers s s.m))

/-! ### Registers, Seed Store, check units, Tally -/

/-- The commands that write one register (R290–R301, R310, R391–R397, R402, R420–R431): on a path that takes the write, REGISTER_WRITE of one word
(on the BAR path an aligned DW with its four byte enables), COUNT_ACK_WRITE, EVT_SRCACK_WRITE, HOP_FLIP, CNT_CLR, CU_CFG_WRITE, CU_PUT_HI_WRITE,
SCAN_GO, SCAN_STOP, TALLY_FETCH, SEED_DATA_WRITE, the operations of SEED_CMD, PSDATA_WRITE and PWR_RCMD_RESTART place the write that
their rule names; a write of a second DW follows the first. -/
def Obligations.RegisterWriteCommandsAnswer : Prop :=
  ∀ (s : State) (p : Path) (v : Word),
    (∀ off : Nat, p ≠ .bar → off + 4 ≤ 0x200000 → off % 4 = 0 → pathTakes s.m p off → ∀ be : BitVec 8,
      exec (.registerWrite p off be [v]) s = answers s (wrote s.m p off v true)) ∧
    (∀ off : Nat, off + 4 ≤ 0x200000 → off % 4 = 0 → pathTakes s.m .bar off →
      exec (.registerWrite .bar off 0x0F [v]) s = answers s (wrote s.m .bar off v true)) ∧
    (∀ (off : Nat) (u : Word), off + 8 ≤ 0x200000 → off % 8 = 0 → pathTakes s.m .bar off → pathTakes (wrote s.m .bar off v true) .bar (off + 4) →
      exec (.registerWrite .bar off 0xFF [v, u]) s = answers s (wrote (wrote s.m .bar off v true) .bar (off + 4) u true)) ∧
    (∀ (off : Nat) (be : BitVec 8), be ≠ 0x0F → off + 4 ≤ 0x200000 → s.m.pathOk .bar true off = true →
      exec (.registerWrite .bar off be [v]) s = answers s s.m.badAccess) ∧
    (∀ off : Nat, (ackKey off 0).isSome = true → pathTakes s.m p off → exec (.countAckWrite p off v) s = answers s (wrote s.m p off v true)) ∧
    (pathTakes s.m p 0x11000C → exec (.evtSrcackWrite p v) s = answers s (wrote s.m p 0x11000C v true)) ∧
    (pathTakes s.m p 0x40030 → exec (.hopFlip p v) s = answers s (wrote s.m p 0x40030 v true)) ∧
    (pathTakes s.m p 0xC0028 → exec (.cntClr p v) s = answers s (wrote s.m p 0xC0028 v true)) ∧
    (pathTakes s.m p 0xD0004 → exec (.cuCfgWrite p v) s = answers s (wrote s.m p 0xD0004 v true)) ∧
    (pathTakes s.m p 0xD0014 → exec (.cuPutHiWrite p v) s = answers s (wrote s.m p 0xD0014 v true)) ∧
    (∀ raw : Bool, pathTakes s.m p 0xD0044 →
      exec (.scanGo p raw) s = answers s (wrote s.m p 0xD0044 (flag 31 true ||| flag 0 raw) true)) ∧
    (pathTakes s.m p 0xD0044 → exec (.scanStop p) s = answers s (wrote s.m p 0xD0044 (flag 30 true) true)) ∧
    (∀ ok : Bool, pathTakes s.m p 0xE000C → exec (.tallyFetch p ok) s = answers s (wrote s.m p 0xE000C (flag 0 true) ok)) ∧
    (pathTakes s.m p 0xF0004 → exec (.seedDataWrite p v) s = answers s (wrote s.m p 0xF0004 v true)) ∧
    (pathTakes s.m p 0xF0008 →
      exec (.seedCommit p) s = answers s (wrote s.m p 0xF0008 1 true) ∧
      exec (.seedDiscard p) s = answers s (wrote s.m p 0xF0008 2 true) ∧
      exec (.seedRecall p) s = answers s (wrote s.m p 0xF0008 7 true) ∧
      ∀ (z : Fin 8) (w : Bool),
        exec (.seedUnlock p z w) s = answers s (wrote s.m p 0xF0008 (fld 0 3 ||| fld 4 z ||| flag 8 w) true) ∧
        exec (.seedRelock p z w) s = answers s (wrote s.m p 0xF0008 (fld 0 4 ||| fld 4 z ||| flag 8 w) true) ∧
        exec (.seedSetpwd p z w) s = answers s (wrote s.m p 0xF0008 (fld 0 5 ||| fld 4 z ||| flag 8 w) true) ∧
        exec (.seedZclear p z) s = answers s (wrote s.m p 0xF0008 (fld 0 6 ||| fld 4 z) true)) ∧
    (pathTakes s.m p 0x10013C → exec (.psdataWrite p v) s = answers s (wrote s.m p 0x10013C v true)) ∧
    (pathTakes s.m p 0xA001C → exec (.pwrRcmdRestart p) s = answers s (wrote s.m p 0xA001C (flag 0 true) true))

/-- The commands that read one register, and the ends of what registers start: RL_READ, PEAK_READ_CLEAR, SEED_DATA_READ, PSDATA_READ return the
word on a path that gives it; EVENT_HOLDOFF_EXPIRY, once the hold-off has run out, produces the deferred records of a source that is still
pending; SCAN_LINE feeds the running scan with the line's stored bytes, zeros for an unmapped line, and halts it on a line that is lost;
TALLY_FLUSH_TIMER writes the staged page once its oldest record has waited for FLUSH; RECALL_END, ZONE_LOCKOUT_END and SEED_WRITE_DONE end what
they name once its time has come (R296, R301, R311, R393–R396, R406, R414–R424). -/
def Obligations.RegisterReadAndEndCommandsAnswer : Prop :=
  ∀ s : State,
    (∀ (p : Path) (off : Nat), isRl off = true → pathGives s.m p off → exec (.rlRead p off) s = answers s (gave s.m p off)) ∧
    (∀ off : Nat, off % 4 ≠ 0 → s.m.pathOk .bar false off = true →
      exec (.rlRead .bar off) s = answers s (s.m.badAccess.emit (.unsupported .bar))) ∧
    (∀ (p : Path) (off : Nat), isPeak off = true → pathGives s.m p off → exec (.peakReadClear p off) s = answers s (gave s.m p off)) ∧
    (∀ p : Path, pathGives s.m p 0xF0004 → exec (.seedDataRead p) s = answers s
      ((s.m.seedRead (pathNum p)).2.emit (.read p 0xF0004 (s.m.seedRead (pathNum p)).1))) ∧
    (∀ p : Path, pathGives s.m p 0x10013C → exec (.psdataRead p) s = answers s
      ((s.m.psRead (pathNum p)).2.emit (.read p 0x10013C (s.m.psRead (pathNum p)).1))) ∧
    (∀ k : Fin 576, (s.m.src k).deferred = true → s.m.pwr.aonReset = false →
      (∀ t : Nat, (s.m.src k).lastAt = some t → t + s.m.holdNs ≤ s.m.time.dtc) →
      ((s.m.src k).pending = true → exec (.eventHoldoffExpiry k) s = answers s
        ((s.m.produce k 15).setSrc k (fun x => { x with deferred := false, lastAt := some s.m.time.dtc }))) ∧
      ((s.m.src k).pending = false → exec (.eventHoldoffExpiry k) s = answers s (s.m.setSrc k (fun x => { x with deferred := false })))) ∧
    (∀ (c : Fin 4) (bad : List (Fin 10)), (s.m.cu c).state ≠ 1 → exec (.scanLine ⟨c, bad⟩) s = answers s s.m) ∧
    (∀ (c : Fin 4) (bad : List (Fin 10)), (s.m.cu c).state = 1 → (s.m.cu c).rawRun = true → s.m.scanRefuse (s.m.cu c) = none →
      (let n := (s.m.cu c).cur
       let g := (s.m.filterCount 2 none 5 false n 64).scanCell n bad
       (g.1 = .zero → exec (.scanLine ⟨c, bad⟩) s = answers s (g.2.scanFeed c n 0)) ∧
       (∀ x : Cell, g.1 = .cell x → exec (.scanLine ⟨c, bad⟩) s = answers s (g.2.scanFeed c n x.ct)) ∧
       (g.1 = .bad → exec (.scanLine ⟨c, bad⟩) s = answers s (g.2.scanHalt c 1 n)))) ∧
    (∀ (c : Fin 4) (st : Nat) (bad : List (Fin 10)), (s.m.cu c).state = 1 → s.m.scanRefuse (s.m.cu c) = some st →
      exec (.scanLine ⟨c, bad⟩) s = answers s (s.m.scanHalt c st (s.m.cu c).cur)) ∧
    (s.m.coreOn = true → s.m.tly.running = true → s.m.tly.staged ≠ 0 →
      s.m.tly.oldestAt + bits (s.m.w 0 0xE0128) 9 0 * 1000000 ≤ s.m.time.dtc → exec .tallyFlushTimer s = answers s
      (let m := s.m.writeMeta .tally (s.m.tly.head + 1 - s.m.tly.staged)
       { m with tly := { s.m.tly with staged := 0 } })) ∧
    (s.m.recalling = false → exec .recallEnd s = answers s { s.m with seed := { s.m.seed with recallUntil := none } }) ∧
    (s.m.recalling = true → exec .recallEnd s = answers s s.m) ∧
    (∀ z : Fin 8, tget 0 s.m.seed.lockout z ≤ s.m.time.dtc →
      exec (.zoneLockoutEnd z) s = answers s { s.m with seed := { s.m.seed with lockout := tput 0 s.m.seed.lockout z 0 } }) ∧
    (∀ z : Fin 8, s.m.time.dtc < tget 0 s.m.seed.lockout z → exec (.zoneLockoutEnd z) s = answers s s.m) ∧
    (∀ (j : SeedJob), s.m.seed.running = some j →
      (s.m.spareLeft j.page = true → exec (.seedWriteDone false) s = answers s (s.m.movePage j.page)) ∧
      (let m := (s.m.setSpage j.page (fun x => x.written j.data)).seedApply j
       (∀ c, (m.spage j.page).cur = some c → c.writes < 100000 → exec (.seedWriteDone true) s = answers s
         (Mod.seedPump { m with seed := { m.seed with running := none } }))))

/-! ### Power, start -/

/-- VIN_POWER_UP, AON_RESET_RELEASE, AON_POWER_LOSS, RAIL_IN_WINDOW, RAIL_BRINGUP_TIMEOUT, RAIL_FALLEN, RAIL_FAULT, RAIL_RETRY_EXPIRY, I3C_DYNAMIC_ADDRESS
(R17, R340–R350, R432, R450): AON comes up at 0.20 V above the threshold, its DTC going on from the stored one, or from 0 where no copy reads;
it keeps nothing but what is durable when it loses power; each rail moves through its states: 5 ms after a rail was enabled its attempt has
failed and is made again, 10 ms after that, twice. -/
def Obligations.RailCommandsAnswer : Prop :=
  ∀ (s : State) (k : Fin 12),
    (∀ mv : Nat, s.m.pwr.aonReset = true → bits (s.m.w 0 0x7002C) 12 0 + 200 < mv →
      exec (.vinPowerUp mv) s = answers s { s.m with pwr := { s.m.pwr with vinOn := true } }) ∧
    (∀ mv : Nat, mv ≤ bits (s.m.w 0 0x7002C) 12 0 + 200 → exec (.vinPowerUp mv) s = answers s s.m) ∧
    (∀ (id : Fin 32) (reads : Bool), s.m.pwr.vinOn = true → s.m.pwr.aonReset = true →
      exec (.aonResetRelease ⟨id, reads⟩) s = answers s (s.m.aonRelease id reads) ∧
      (s.m.aonRelease id reads).time.dtc = resumeDtc (if reads then s.m.nv.dtc else none)) ∧
    (∀ (id : Fin 32) (reads : Bool), s.m.pwr.vinOn = false → exec (.aonResetRelease ⟨id, reads⟩) s = answers s s.m) ∧
    exec .aonPowerLoss s = answers s
      (let m := s.m.tearWrite.coreLoss
       { time := { fresh := m.time.fresh }, med := m.med, upk := m.upk, fb := m.fb, nv := m.nv, nv2 := m.nv2, out := m.out,
         tly := { head := m.tly.head, pers := m.tly.pers } }) ∧
    ((s.m.rail k).st = .ramping →
      (3 ≤ k.val → k.val ≠ 3 → lget railGroup k.val ≠ 2 → exec (.railInWindow k) s = answers s
        (s.m.setRail k (fun r => { r with st := .inWindow, attempts := 0 })).railNext) ∧
      (k.val < 3 → lget railGroup k.val ≠ 2 → exec (.railInWindow k) s = answers s
        (s.m.setRail k (fun r => { r with st := .inWindow, attempts := 0 }))) ∧
      ((s.m.rail k).since + 5000000 ≤ s.m.time.dtc →
        ((s.m.rail k).attempts < 2 → exec (.railBringupTimeout k) s = answers s
          (s.m.setRail k (fun r => { r with st := .retrying, attempts := r.attempts + 1, since := s.m.time.dtc }))) ∧
        (2 ≤ (s.m.rail k).attempts → k.val ≠ 3 → exec (.railBringupTimeout k) s = answers s
          ((s.m.setRail k (fun r => { r with st := .failed, kind := 5 })).railSnap k 5).railNext)) ∧
      (s.m.time.dtc < (s.m.rail k).since + 5000000 → exec (.railBringupTimeout k) s = answers s s.m)) ∧
    ((s.m.rail k).st ≠ .ramping →
      exec (.railInWindow k) s = answers s s.m ∧ exec (.railBringupTimeout k) s = answers s s.m) ∧
    (s.m.pwr.falling = some k.val → s.m.railDown.pwr.falling.isSome = true → exec (.railFallen k) s = answers s s.m.railDown) ∧
    (s.m.pwr.falling ≠ some k.val → exec (.railFallen k) s = answers s s.m) ∧
    (∀ (kind : RailKind) (r : List (BitVec 16)), (s.m.rail k).st = .inWindow → s.m.pwr.aonReset = false →
      (k.val ≠ 1 ∨ (s.m.per.testing = false ∧ s.m.per.recharge = false)) → s.m.per.evac = none → exec (.railFault k kind r) s = answers s
        (let m := (s.m.setChans r).setRail k (fun r => { r with kind := railKindCode kind })
         ((m.railSnap k (railKindCode kind)).bump (cRail k)).railReaction k (kind = .protection))) ∧
    ((s.m.rail k).st = .retrying → (s.m.rail k).since + 10000000 ≤ s.m.time.dtc →
      exec (.railRetryExpiry k) s = answers s (s.m.setRail k (fun r => { r with st := .ramping, since := s.m.time.dtc }))) ∧
    (∀ a : BitVec 7, s.m.pwr.aonReset = false →
      exec (.i3cDynamicAddress a) s = answers s { s.m with path := { s.m.path with i3cAddr := some a } })

/-- DOZE_TIMER, WAKE_COMPLETE, THERMAL_MODEL_UPDATE, AUTO_RESTART, IMAGE_LOAD_DONE, TRAINING_DONE (R351–R366, R433–R438): the module dozes under
DOZE.ENABLE once M1 has held for DOZE.TIME, wakes to M1, restarts after a trip no more often than allowed and once it has been cool for 60 s,
runs the first valid image slot and fences channels that failed to train. -/
def Obligations.PowerStateCommandsAnswer : Prop :=
  ∀ s : State,
    (s.m.pwr.pstate = 1 → bit (s.m.w 0 0xA0108) 31 = true → s.m.dozeBlocked = false →
      s.m.pwr.m1At + bits (s.m.w 0 0xA0108) 15 0 * 1000000 ≤ s.m.time.dtc → exec .dozeTimer s = answers s
        { s.m with pwr := { s.m.pwr with pstate := 2 }, hop := { s.m.hop with selfRef := true } }) ∧
    (bit (s.m.w 0 0xA0108) 31 = false → exec .dozeTimer s = answers s s.m) ∧
    (s.m.pwr.pstate = 2 → s.m.pwr.waking = true → exec .wakeComplete s = answers s
      { s.m with pwr := { s.m.pwr with pstate := 1, m1At := s.m.time.dtc, waking := false }, hop := { s.m.hop with selfRef := false } }) ∧
    (∀ (raws devs dies : List Int) (inlet : Int) (volts : List (BitVec 16)) (pin : BitVec 16),
      (s.m.pwr.aonReset = false → exec (.thermalModelUpdate raws devs dies inlet volts pin) s =
        answers s (s.m.thUpdate raws devs dies inlet volts pin)) ∧
      (s.m.pwr.aonReset = true → exec (.thermalModelUpdate raws devs dies inlet volts pin) s = answers s s.m)) ∧
    (∀ t : Nat, s.m.aonOnly = true → s.m.pwr.tripDown = true → bit (s.m.w 0 0xB0130) 0 = true →
      s.m.th.restarts.countP (fun x => s.m.time.dtc < x + 3600000000000) < bits (s.m.w 0 0xB0130) 7 4 →
      s.m.th.coolSince = some t → t + 60000000000 ≤ s.m.time.dtc → exec .autoRestart s = answers s
        (Mod.startBegin { s.m with th := { s.m.th with restarts := s.m.th.restarts ++ [s.m.time.dtc] } })) ∧
    (s.m.pwr.tripDown = false → exec .autoRestart s = answers s s.m) ∧
    (s.m.pwr.imgLoaded = false → s.m.pwr.phase = 1 ∨ s.m.pwr.phase = 2 → s.m.nv2.fwNext = 1 → s.m.nv2.fwBad.contains 1 = false →
      ∀ a b : Bool, exec (.imageLoadDone a true b) s = answers s
        (Mod.phase3 (Mod.imagePlates { s.m with nv2 := { s.m.nv2 with fwRun := 1 }, pwr := { s.m.pwr with imgLoaded := true } } 1))) ∧
    (s.m.pwr.imgLoaded = true → ∀ a b c : Bool, exec (.imageLoadDone a b c) s = answers s s.m) ∧
    (s.m.pwr.phase = 2 → s.m.pwr.trainOk = false → (∀ c : Nat, (s.m.hch c).failed = false) → exec (.trainingDone [] []) s = answers s
      (let m := (List.range 54).foldl (fun m c => m.setHch c (fun h => { h with trained := true })) s.m
       let m := (List.range 20).foldl (fun m c => m.setMch c (fun h => { h with trained := true })) m
       Mod.phase3 { m with pwr := { m.pwr with trainOk := true } })) ∧
    (s.m.pwr.phase ≠ 2 → ∀ (a : List (Fin 54)) (b : List (Fin 20)), exec (.trainingDone a b) s = answers s s.m)

/-! ### Test and debug port -/

/-- The instructions of the TAP (R368–R370, R376): with AON out of reset each is in force after its command, but an intrusive one loads BYPASS
unless the module is in M4 or in PHASE 0; IDCODE shifts its word out; TRST_N drops the request and the level to DL0. -/
def Obligations.TapCommandsAnswer : Prop :=
  ∀ s : State, s.m.pwr.aonReset = false → s.m.pwr.startWait = false →
    (let inForce : Nat → Mod := fun c => { s.m with dbg := { s.m.dbg with ir := c } }
     exec .idcode s = answers s ((inForce 1).emit (.tdo idWord)) ∧
     exec .bypass s = answers s (inForce 0x3F) ∧
     (∀ v : BitVec 64, exec (.preload v) s = answers s { s.m with dbg := { s.m.dbg with ir := 3, bsr := v } }) ∧
     exec .sample s = answers s
       (let m := inForce 2
        let v := Config.boundaryScan m.draw.1
        Mod.emit { m.draw.2 with dbg := { m.draw.2.dbg with bsr := v } } (.tdo v.toNat)) ∧
     (s.m.tapOpen = true →
       exec .clamp s = answers s (inForce 4) ∧ exec .highz s = answers s (inForce 5) ∧
       exec .extest s = answers s ((inForce 0).draw.2.emit (.tdo (Config.boundaryScan (inForce 0).draw.1).toNat))) ∧
     (s.m.tapOpen = false →
       exec .clamp s = answers s (inForce 0x3F) ∧ exec .highz s = answers s (inForce 0x3F) ∧ exec .extest s = answers s (inForce 0x3F)) ∧
     (∀ req : Fin 4, exec (.dbglvl req) s = answers s
       (let m := (inForce 0x20).emit (.tdo (4 * s.m.dbg.level + s.m.dbg.req))
        { m with dbg := { m.dbg with req := req.val } })) ∧
     (∀ (w : BitVec 19) (v : Word), exec (.dbgacc 0 w v) s = answers s ((inForce 0x21).emit (.tdo s.m.accWord))) ∧
     (∀ (w : BitVec 19) (v : Word) (st : Nat), s.m.accRefused false (4 * w.toNat) = some st → exec (.dbgacc 1 w v) s = answers s
       (((inForce 0x21).emit (.tdo s.m.accWord)).accEnd st 0)) ∧
     (∀ (w : BitVec 19) (v : Word), s.m.accRefused false (4 * w.toNat) = none → s.m.reaches (4 * w.toNat) = true →
       exec (.dbgacc 1 w v) s = answers s
         (let m := (inForce 0x21).emit (.tdo s.m.accWord)
          Mod.dbgPoll { m with dbg := { m.dbg with accStatus := 1, accData := 0, accRead := some (4 * w.toNat / 4) } })) ∧
     exec .trstAssert s = answers s ((Mod.debugLevel { s.m with dbg := { s.m.dbg with req := 0 } }).loadIr 1))

/-- The commands of the DEBUG block (R371–R379): DEBUG_HALT, DEBUG_STEP, DEBUG_SCRATCH_ACCESS, the six line commands, DQ_LEN_WRITE, DQ_DATA_APPEND and
DQ_SUBMIT write the register that the rule gives them on the debug path; a scratch write that meets the core's store is discarded;
DEBUG_LINE_CMD_DONE shows the status and DEBUG_MEDIA_HOLD_EXPIRY switches the MEDIA group off. -/
def Obligations.DebugBlockCommandsAnswer : Prop :=
  ∀ s : State,
    (∀ req : BitVec 8, pathTakes s.m .dbg 0x130010 →
      exec (.debugHalt req) s = answers s (wrote s.m .dbg 0x130010 (BitVec.ofNat 32 req.toNat) true)) ∧
    (∀ f : Fin 8, pathTakes s.m .dbg 0x130014 →
      exec (.debugStep f) s = answers s (wrote s.m .dbg 0x130014 (flag 3 true ||| fld 0 f) true)) ∧
    (∀ v : Word, pathTakes s.m .dbg 0x13001C →
      exec (.debugScratchAccess (some v) false) s = answers s (wrote s.m .dbg 0x13001C v true) ∧
      exec (.debugScratchAccess (some v) true) s = answers s (s.m.scratchMeets 2 (some v))) ∧
    (pathTakes s.m .dbg 0x13001C → pathGives s.m .dbg 0x13001C → exec (.debugScratchAccess none false) s = answers s
      ((s.m.scratchRead 2).2.emit (.read .dbg 0x13001C (s.m.scratchRead 2).1))) ∧
    (pathTakes s.m .dbg 0x130048 →
      exec .debugLineRead s = answers s (wrote s.m .dbg 0x130048 1 true) ∧
      exec .debugRawRead s = answers s (wrote s.m .dbg 0x130048 2 true) ∧
      exec .debugLineWrite s = answers s (wrote s.m .dbg 0x130048 3 true) ∧
      exec .debugFlush s = answers s (wrote s.m .dbg 0x130048 4 true) ∧
      exec .debugPin s = answers s (wrote s.m .dbg 0x130048 5 true) ∧
      exec .debugUnpin s = answers s (wrote s.m .dbg 0x130048 6 true)) ∧
    (∀ v : Word,
      (pathTakes s.m .dbg 0x130148 → exec (.dqLenWrite v) s = answers s (wrote s.m .dbg 0x130148 v true)) ∧
      (pathTakes s.m .dbg 0x13014C → exec (.dqDataAppend v) s = answers s (wrote s.m .dbg 0x13014C v true))) ∧
    (∀ up : Bool, pathTakes s.m .dbg 0x130150 → exec (.dqSubmit up) s = answers s (wrote s.m .dbg 0x130150 1 (!up))) ∧
    (∀ (o : LineOp) (st : Nat), s.m.dbg.mcmd = some o → o.status = some st → s.m.pwr.pstate ≠ 3 → exec .debugLineCmdDone s = answers s
      { s.m with dbg := { s.m.dbg with mcmd := none, mediaHold := none,
                                       mstat := flag 30 s.m.dbg.mcipher ||| flag 29 s.m.dbg.mwoke ||| fld 0 st } }) ∧
    (∀ o : LineOp, s.m.dbg.mcmd = some o → o.status = none → exec .debugLineCmdDone s = answers s s.m) ∧
    (∀ t : Nat, s.m.dbg.mediaHold = some t → t ≤ s.m.time.dtc → s.m.pwr.pstate = 3 → s.m.dbg.mcmd = none → s.m.pwr.m3Exit = false →
      exec .debugMediaHoldExpiry s = answers s
        (let m := ((s.m.setRail 11 (fun r => { r with st := .off })).setRail 9 (fun r => { r with st := .off })).setRail 10
           (fun r => { r with st := .off })
         { m with pwr := { m.pwr with m3Media := true }, dbg := { m.dbg with mediaHold := none } }))

/-! ### The Bauri encodings -/

/-- R262, R263: every instruction whose fields are within their ranges is read back from its own word, with every field at every value.
It says that no bit of an encoding is dropped. -/
def Obligations.BauriDecodeOfEncodeIsTheInstruction : Prop :=
  ∀ b : BOp, b.wf = true → bdecode (bencode b) = some b

/-- R262, R263: a word that is an instruction is the word of that instruction and of no other: unused fields are zero, immediates are within
their ranges, and every other word traps with ILLEGAL. -/
def Obligations.BauriWordsHaveOneReading : Prop :=
  ∀ (w : Word) (b : BOp), bdecode w = some b → b.wf = true ∧ bencode b = w

/-- The words of the worked example of R288 (sheet words 0–18) are the instructions that stand beside them, and 0x00000000 is none. -/
def Obligations.BauriExampleWordsDecode : Prop :=
  bdecode 0x24A00108 = some (.li 5 0x108) ∧
  bdecode 0x28B46488 = some (.lih 5 0x146488) ∧
  bdecode 0xB0000000 = some .txb ∧
  bdecode 0x6400D803 = some (.loopi 54 3) ∧
  bdecode 0x84C10000 = some (.pst 6 false 0x10000) ∧
  bdecode 0x84A10002 = some (.pst 5 false 0x10002) ∧
  bdecode 0x08C60001 = some (.alui .addi 6 6 1) ∧
  bdecode 0x68000000 = some .lend ∧
  bdecode 0xB0E00001 = some (.txc 7) ∧
  bdecode 0x50E04007 = some (.br 7 0 2 7) ∧
  bdecode 0x05070000 = some (.alu .add 8 7 0) ∧
  bdecode 0x21290020 = some (.shift .slli 9 9 32) ∧
  bdecode 0x89040043 = some (.pwait 8 false 0x40043) ∧
  bdecode 0xE0000001 = some .halt ∧
  bdecode 0xE8000001 = some (.trap 1) ∧
  bdecode 0 = none

/-- R264, whole: fn names the operation; ADD, SUB, AND, OR, XOR, SLL, SRL, SRA, SLT, SLTU, MUL, MULHU, DIVU, REMU, MINU and MAXU each write g[rd]
with the result of the table, g0 discarding it, and no other register; 0x04000000 is ADD g0, g0, g0 and changes no register. -/
def Obligations.AluGroupComputesItsTable : Prop :=
  ∀ (s : State) (f : Fin 8) (rd ra rb : BitVec 5),
    bdecode ((0x01 : BitVec 6) ++ rd ++ ra ++ rb ++ (0x000 : BitVec 11)) = some (.alu .add rd ra rb) ∧
    bdecode ((0x01 : BitVec 6) ++ rd ++ ra ++ rb ++ (0x001 : BitVec 11)) = some (.alu .sub rd ra rb) ∧
    bdecode ((0x01 : BitVec 6) ++ rd ++ ra ++ rb ++ (0x002 : BitVec 11)) = some (.alu .and rd ra rb) ∧
    bdecode ((0x01 : BitVec 6) ++ rd ++ ra ++ rb ++ (0x003 : BitVec 11)) = some (.alu .or rd ra rb) ∧
    bdecode ((0x01 : BitVec 6) ++ rd ++ ra ++ rb ++ (0x004 : BitVec 11)) = some (.alu .xor rd ra rb) ∧
    bdecode ((0x01 : BitVec 6) ++ rd ++ ra ++ rb ++ (0x005 : BitVec 11)) = some (.alu .sll rd ra rb) ∧
    bdecode ((0x01 : BitVec 6) ++ rd ++ ra ++ rb ++ (0x006 : BitVec 11)) = some (.alu .srl rd ra rb) ∧
    bdecode ((0x01 : BitVec 6) ++ rd ++ ra ++ rb ++ (0x007 : BitVec 11)) = some (.alu .sra rd ra rb) ∧
    bdecode ((0x01 : BitVec 6) ++ rd ++ ra ++ rb ++ (0x008 : BitVec 11)) = some (.alu .slt rd ra rb) ∧
    bdecode ((0x01 : BitVec 6) ++ rd ++ ra ++ rb ++ (0x009 : BitVec 11)) = some (.alu .sltu rd ra rb) ∧
    bdecode ((0x01 : BitVec 6) ++ rd ++ ra ++ rb ++ (0x00a : BitVec 11)) = some (.alu .mul rd ra rb) ∧
    bdecode ((0x01 : BitVec 6) ++ rd ++ ra ++ rb ++ (0x00b : BitVec 11)) = some (.alu .mulhu rd ra rb) ∧
    bdecode ((0x01 : BitVec 6) ++ rd ++ ra ++ rb ++ (0x00c : BitVec 11)) = some (.alu .divu rd ra rb) ∧
    bdecode ((0x01 : BitVec 6) ++ rd ++ ra ++ rb ++ (0x00d : BitVec 11)) = some (.alu .remu rd ra rb) ∧
    bdecode ((0x01 : BitVec 6) ++ rd ++ ra ++ rb ++ (0x00e : BitVec 11)) = some (.alu .minu rd ra rb) ∧
    bdecode ((0x01 : BitVec 6) ++ rd ++ ra ++ rb ++ (0x00f : BitVec 11)) = some (.alu .maxu rd ra rb) ∧
    (Stands s.m f (.alu .add rd ra rb) → exec (.add f rd ra rb) s =
      answers s (fmDoes s.m f (fun x => x.put rd (x.val ra + x.val rb)))) ∧
    (Stands s.m f (.alu .sub rd ra rb) → exec (.sub f rd ra rb) s =
      answers s (fmDoes s.m f (fun x => x.put rd (x.val ra - x.val rb)))) ∧
    (Stands s.m f (.alu .and rd ra rb) → exec (.and f rd ra rb) s =
      answers s (fmDoes s.m f (fun x => x.put rd (x.val ra &&& x.val rb)))) ∧
    (Stands s.m f (.alu .or rd ra rb) → exec (.or f rd ra rb) s =
      answers s (fmDoes s.m f (fun x => x.put rd (x.val ra ||| x.val rb)))) ∧
    (Stands s.m f (.alu .xor rd ra rb) → exec (.xor f rd ra rb) s =
      answers s (fmDoes s.m f (fun x => x.put rd (x.val ra ^^^ x.val rb)))) ∧
    (Stands s.m f (.alu .sll rd ra rb) → exec (.sll f rd ra rb) s =
      answers s (fmDoes s.m f (fun x => x.put rd (x.val ra <<< ((x.val rb).toNat % 64))))) ∧
    (Stands s.m f (.alu .srl rd ra rb) → exec (.srl f rd ra rb) s =
      answers s (fmDoes s.m f (fun x => x.put rd (x.val ra >>> ((x.val rb).toNat % 64))))) ∧
    (Stands s.m f (.alu .sra rd ra rb) → exec (.sra f rd ra rb) s =
      answers s (fmDoes s.m f (fun x => x.put rd ((x.val ra).sshiftRight ((x.val rb).toNat % 64))))) ∧
    (Stands s.m f (.alu .slt rd ra rb) → exec (.slt f rd ra rb) s =
      answers s (fmDoes s.m f (fun x => x.put rd (if (x.val ra).toInt < (x.val rb).toInt then 1 else 0)))) ∧
    (Stands s.m f (.alu .sltu rd ra rb) → exec (.sltu f rd ra rb) s =
      answers s (fmDoes s.m f (fun x => x.put rd (if (x.val ra).toNat < (x.val rb).toNat then 1 else 0)))) ∧
    (Stands s.m f (.alu .mul rd ra rb) → exec (.mul f rd ra rb) s =
      answers s (fmDoes s.m f (fun x => x.put rd (BitVec.ofNat 64 ((x.val ra).toNat * (x.val rb).toNat % 2 ^ 64))))) ∧
    (Stands s.m f (.alu .mulhu rd ra rb) → exec (.mulhu f rd ra rb) s =
      answers s (fmDoes s.m f (fun x => x.put rd (BitVec.ofNat 64 ((x.val ra).toNat * (x.val rb).toNat / 2 ^ 64))))) ∧
    (Stands s.m f (.alu .divu rd ra rb) → exec (.divu f rd ra rb) s =
      answers s (fmDoes s.m f (fun x => x.put rd (if x.val rb = 0 then BitVec.ofNat 64 (2 ^ 64 - 1) else BitVec.ofNat 64 ((x.val ra).toNat / (x.val rb).toNat))))) ∧
    (Stands s.m f (.alu .remu rd ra rb) → exec (.remu f rd ra rb) s =
      answers s (fmDoes s.m f (fun x => x.put rd (if x.val rb = 0 then x.val ra else BitVec.ofNat 64 ((x.val ra).toNat % (x.val rb).toNat))))) ∧
    (Stands s.m f (.alu .minu rd ra rb) → exec (.minu f rd ra rb) s =
      answers s (fmDoes s.m f (fun x => x.put rd (BitVec.ofNat 64 (min (x.val ra).toNat (x.val rb).toNat))))) ∧
    (Stands s.m f (.alu .maxu rd ra rb) → exec (.maxu f rd ra rb) s =
      answers s (fmDoes s.m f (fun x => x.put rd (BitVec.ofNat 64 (max (x.val ra).toNat (x.val rb).toNat))))) ∧
    (∀ (x : Foreman) (v : Dword) (r : Nat), twf 0 x.g = true → (x.put rd v).reg r = if r = rd.toNat ∧ r ≠ 0 then v else x.reg r) ∧
    (∀ (x : Foreman) (v : Dword), twf 0 x.g = true → twf 0 (x.put rd v).g = true) ∧
    bdecode 0x04000000 = some (.alu .add 0 0 0) ∧
    (Stands s.m f (.alu .add 0 0 0) → exec (.add f 0 0 0) s = answers s (fmDoes s.m f (fun x => { x with pc := x.pc + 1 })))

/-! ### Counters, sources, Seed Store -/

/-- R384, whole: a counter that passes 2^64 − 1 goes on from 0 and its WRAPS goes up by one, to 255 at most; OVF of PERF_CNT_ST is set while
WRAPS is not 0; a write of CNT_CLR.CLEAR sets value and WRAPS to 0 at once; counting changes no occurrence count and no source. -/
def Obligations.CountersWrapAndSaturate : Prop :=
  (∀ (c : Ctr) (n : Nat), c.val < 2 ^ 64 → c.wraps ≤ 255 → c.val + n < 2 ^ 64 → ctrAdd c n = { val := c.val + n, wraps := c.wraps }) ∧
  (∀ (c : Ctr) (n : Nat), c.val < 2 ^ 64 → n < 2 ^ 64 → 2 ^ 64 ≤ c.val + n →
    ctrAdd c n = { val := c.val + n - 2 ^ 64, wraps := min 255 (c.wraps + 1) }) ∧
  (∀ (m : Mod) (i : Nat), bit (perfR m 0xC0024 i) 31 = decide ((tget {} m.perf.ctrs i).wraps ≠ 0)) ∧
  (∀ (m : Mod) (who i mask : Nat) (v : Word) (ok : Bool), bit v 0 = true →
    m.wordWrite who i 0xC0028 v mask ok = { m with perf := { m.perf with ctrs := tput {} m.perf.ctrs i {} } }) ∧
  (∀ (t : Tbl Ctr) (i : Nat), twf {} t = true → tget {} (tput {} t i {}) i = ({} : Ctr)) ∧
  (∀ (m : Mod) (l : List Nat) (n : Nat), (m.ctrsAdd l n).evt = m.evt)

/-- R300, R310: an acknowledgement of a source sets the acknowledge register of every counted cause to its count, so that none of them is present;
counts stay, causes of other sources stay, and EVT_SRCACK acts only if it is given the source's count. -/
def Obligations.AcknowledgeClearsCountedCauses : Prop :=
  ∀ (m : Mod) (k : Nat), twf {} m.evt.occ = true →
    (∀ n : Nat, ((m.ackSrc k).occ n).cnt = (m.occ n).cnt) ∧
    (∀ e ∈ m.srcOcc k, ((m.ackSrc k).occ e.1).ack = BitVec.ofNat 32 ((m.ackSrc k).occ e.1).cnt) ∧
    (∀ n : Nat, (∀ e ∈ m.srcOcc k, e.1 ≠ n) → (m.ackSrc k).occ n = m.occ n) ∧
    twf {} (m.ackSrc k).evt.occ = true ∧
    (∀ (who mask : Nat) (v : Word) (ok : Bool), v ≠ BitVec.ofNat 32 (m.srcCnt k) → m.wordWrite who k 0x11000C v mask ok = m) ∧
    (∀ (who mask : Nat) (ok : Bool), m.wordWrite who k 0x11000C (BitVec.ofNat 32 (m.srcCnt k)) mask ok = m.ackSrc k)

/-- R415: the Seed Store writes one page at a time, and its queue holds EVACUATING first, then the module's other writes in order of request, then
commits in order of arrival: a new write joins the end of its class, and a queue in this order stays in it. A write that runs is not
displaced; the first of the queue is the next, unless it is a COMMIT that came too late. -/
def Obligations.SeedWritesKeepTheirOrder : Prop :=
  (∀ (q : List SeedJob) (j : SeedJob),
    (let rank : SeedJob → Nat := fun j => if j.isEvac then 0 else if j.isModule then 1 else 2
     q.Pairwise (fun a b => rank a ≤ rank b) →
      (seedInsert q j).Pairwise (fun a b => rank a ≤ rank b) ∧
      ∀ k : Nat, (seedInsert q j).filter (fun x => rank x = k) = q.filter (fun x => rank x = k) ++ (if rank j = k then [j] else []))) ∧
  (∀ (m : Mod) (j r : SeedJob), m.seed.running = some r → (m.seedWrite j).seed.running = some r ∧
    (m.seedWrite j).seed.queue = seedInsert m.seed.queue j) ∧
  (∀ (m : Mod) (j : SeedJob), m.seed.running = none → m.seed.queue = [] → m.staleJob j = none →
    (m.seedWrite j).seed.running = some j ∧ (m.seedWrite j).seed.queue = [])

/-! ### The medium, the hopper, poison, credits, keys -/

/-- R123, whole: stripe group g takes slot g of channels 0–9, or slot g − 10 of channels 10–19, the channel index being the channel number less
10 × floor(g / 10); so every group has exactly one die on each channel of its set. Dies are numbered 10 × channel + slot (R122). -/
def Obligations.StripeGroupsTakeOneDiePerChannel : Prop :=
  (∀ g x : Nat, g < 10 → x < 10 → dieOf g x = 10 * x + g) ∧
  (∀ g x : Nat, 10 ≤ g → g < 20 → x < 10 → dieOf g x = 10 * (10 + x) + (g - 10)) ∧
  (∀ g c : Nat, g < 20 → c / 10 = g / 10 →
    (c - 10 * (g / 10) < 10 ∧ dieOf g (c - 10 * (g / 10)) / 10 = c ∧ ∀ x : Nat, x < 10 → dieOf g x / 10 = c → x = c - 10 * (g / 10)))

/-- R133: a media-form map entry gives back the stripe group, the channel index, the block and the page it was made of, has FORM 1 and fits in 40
bits; such an entry is taken as uncorrectable exactly if it names a parity index of its block or a group outside its region's set. -/
def Obligations.MapEntriesKeepTheirFields : Prop :=
  (∀ sg ch blk pg : Nat, sg < 20 → ch < 10 → blk < 16384 → pg < 2048 →
    (let e := mkEntry sg ch blk pg
     enForm e = 1 ∧ enSg e = sg ∧ enCh e = ch ∧ enBlk e = blk ∧ enPg e = pg ∧ e < 2 ^ 40 ∧ e % 16 = 0 ∧
     (entryOk e none = true ↔ ch ∉ [parityP blk, parityP blk + 1]) ∧
     (entryOk e (some false) = true ↔ ch ∉ [parityP blk, parityP blk + 1] ∧ sg < 10) ∧
     (entryOk e (some true) = true ↔ ch ∉ [parityP blk, parityP blk + 1] ∧ 10 ≤ sg))) ∧
  (∀ e : Nat, enForm e = 3 → ∀ c : Option Bool, entryOk e c = false) ∧
  (∀ e : Nat, enForm e = 0 ∨ enForm e = 2 → ∀ c : Option Bool, entryOk e c = true)

/-- R93, R336: an allocation takes the first replaceable way of its set at or after DTC mod 8, counting upward and wrapping (of four ways for a
tagged page), and none if none is; a way is replaceable by the rule's two cases, a frame that is detached, being cleaned or held by LPIN
apart. -/
def Obligations.AllocationTakesTheFirstReplaceableWay : Prop :=
  ∀ (m : Mod) (page : Nat),
    (∀ f : Nat, (m.frame f).v = false → (m.frame f).detached = false → (m.replaceable f = true ↔ (m.frame f).retired = false)) ∧
    (∀ f : Nat, (m.frame f).v = true → (m.frame f).lpin = false → (m.frame f).cleaning = false →
      (m.replaceable f = true ↔ (m.frame f).d = false ∧ (m.frame f).f = false ∧ (m.frame f).p = false ∧
        (∀ e ∈ m.hop.merge, e.lineNo / 64 ≠ (m.frame f).page) ∧ m.lineHeld (m.frame f).page = false)) ∧
    (∀ f : Nat, m.pickWay page false = some f → m.replaceable f = true ∧ ∃ k : Nat, k < 8 ∧ f = 8 * setOf page + (m.time.dtc + k) % 8 ∧
      ∀ j : Nat, j < k → m.replaceable (8 * setOf page + (m.time.dtc + j) % 8) = false) ∧
    (m.pickWay page false = none → ∀ w : Nat, w < 8 → m.replaceable (8 * setOf page + w) = false) ∧
    (∀ f : Nat, m.pickWay page true = some f → ∃ k : Nat, k < 4 ∧ f = 8 * setOf page + (m.time.dtc + k) % 4)

/-- R54, R470: a stored poison mark is kept for its line with the source it was given, whatever other lines of the page are marked; a line written
whole without poison loses its mark and no other does; with the table full a page without a mark takes none, and is recorded. -/
def Obligations.PoisonMarksAreKept : Prop :=
  ∀ (m : Mod) (l n : Nat) (ext : Bool), twf {} m.hop.poison = true →
    ((m.psn (l / 64)).mask ≠ 0 ∨ m.hop.poison.length < poisonCap →
      (m.mark l ext).poisoned l = true ∧ ((m.mark l ext).psn (l / 64)).ext.getLsbD (l % 64) = ext ∧
      (n ≠ l → (m.mark l ext).poisoned n = m.poisoned n) ∧ twf {} (m.mark l ext).hop.poison = true) ∧
    ((m.psn (l / 64)).mask = 0 → poisonCap ≤ m.hop.poison.length →
      m.mark l ext = m.faultRec 0 islHop 13 (l * 64) 0) ∧
    (m.unmark l).poisoned l = false ∧ (n ≠ l → (m.unmark l).poisoned n = m.poisoned n) ∧ twf {} (m.unmark l).hop.poison = true ∧
    m.remark l true = m.mark l true ∧ m.remark l false = m.unmark l

/-- R49: a port's Req credits returned and in use never pass the sum of the allowances of its 16 LDs when credits are returned, and a credit that
the host holds is never taken back. -/
def Obligations.CreditsNeverPassTheAllowances : Prop :=
  ∀ (m : Mod) (p n : Nat), (m.port p).link = .l0 → (m.port p).reqCr + m.usedCr p false ≤ m.credits p →
    ((m.giveReq p n).port p).reqCr + (m.giveReq p n).usedCr p false ≤ (m.giveReq p n).credits p ∧
    (m.port p).reqCr ≤ ((m.giveReq p n).port p).reqCr ∧ ((m.giveReq p n).port p).reqCr ≤ (m.port p).reqCr + n ∧
    ∀ q : Nat, q ≠ p → (m.giveReq p n).port q = m.port q

/-- R7, R320: the words of a key slot read zero for every master, on every path and for every program, and a read of one changes nothing; a
transaction's key words never enter the plates. -/
def Obligations.KeyWordsReadZero : Prop :=
  ∀ (m : Mod) (who idx : Nat), isKeyIdx idx = true →
    m.readWord who idx = (0, m) ∧
    (∀ ma : Master, plateWord m who ma idx = 0) ∧
    ∀ (t : Tbl Word) (w : PWrite), keyIdx w.key = idx → writePlate t w = t

/-- R17, R172: after a power-off the DTC goes on from the stored value rounded up to a whole second plus one second, above the stored value (the
rule's two examples), and from 0 if none is readable; the age bucket of a segment is floor(log2(A + 1)), 27 at most. -/
def Obligations.ResumedTimeAndAgeBuckets : Prop :=
  (∀ v : Nat, v < resumeDtc (some v) ∧ resumeDtc (some v) % 1000000000 = 0 ∧ v + 1000000000 ≤ resumeDtc (some v) ∧
    resumeDtc (some v) < v + 2000000000) ∧
  resumeDtc (some 5000000000) = 6000000000 ∧ resumeDtc (some 5000000001) = 7000000000 ∧ resumeDtc none = 0 ∧
  (∀ a : Nat, ageBucket a ≤ 27 ∧ 2 ^ ageBucket a ≤ a + 1 ∧ (ageBucket a < 27 → a + 1 < 2 ^ (ageBucket a + 1)))

/-- R290–R298: on the BAR or the management path with nothing waiting, a write to a word that is not staged acts at once: the queue is as before
and the word's own effect, by the path's own select context, has taken place; what the path holds back after it, if anything, follows. -/
def Obligations.ImmediateWritesActAtOnce : Prop :=
  ∀ (m : Mod) (p : Path) (off : Nat) (v : Word) (ok : Bool), p ≠ .dbg → m.pathQ (pathNum p) = {} →
    (plateAcc (off / 4) = some .rw ∨ plateAcc (off / 4) = some .sel ∨ (plateAcc (off / 4) = some .wo ∧ off / 4 < 0x80000)) →
    (let x := ((m.setPathQ (pathNum p) (fun _ => { q := [{ idx := off / 4, val := v, ok }] })).setPathQ (pathNum p) (fun _ => {})).immWrite
       (pathNum p) (off / 4) v ok
     wrote m p off v ok = Mod.unstall (x.pathQ (pathNum p)).wait.length x (pathNum p) (if p = .bar then 5 else 6) ∧
     ((x.pathQ (pathNum p)).wait = [] → wrote m p off v ok = x))

/-! ### What follows from a command -/

/-- The frame of what every command's end adds (`Mod.fin`), in M4 with only AON running: with nothing under way that a command could have let
go on (no request, no line operation, no register access queued or held back, no re-encryption, no epoch or orderly evacuation, no step
asked for),
nothing changes but the alert line, which is released (R312, R429), and the credits' gates (R82, R83). -/
def Obligations.InM4NothingElseFollows : Prop :=
  ∀ old m : Mod, m.pwr.pstate = 4 → m.pwr.phase = 0 → m.fore.ready = false → m.hop.frames = [] → m.hop.chans = [] → m.med.chans = [] →
    m.host.reqs = [] → m.lineAskers = [] → (∀ e : Nat, e < 2 → (m.seam e).st = .idle) → m.tx.commitWait = none → m.per.orderly = none →
    m.pwr.m3Exit = false → m.dbg.stepGo = none → (∀ p : Nat, p < 3 → (m.pathQ p).q = [] ∧ (m.pathQ p).wait = []) → m.dbg.accRead = none → m.dbg.accStatus ≠ 1 →
    m.per.everBudget = false →
    Mod.fin old m = { m with
      host := { m.host with gate := m.host.gate || m.waitHigh, rwdOpen := false }
      per := { m.per with overDT := false }
      evt := { m.evt with alert := false } }
end

