-- ==== Sys2Proof/Laws/Tbl.lean ====
section
/-!
SUPPORT. Laws of the sparse tables: what a read after a write gives, and that every operation on a table keeps its
canonical form.
-/

namespace Sys2Proof.Machine

theorem tget_nil {α : Type} (d : α) (n : Nat) : tget d [] n = d := rfl
theorem tget_cons {α : Type} (d : α) (k : Nat) (v : α) (t : Tbl α) (n : Nat) :
    tget d ((k, v) :: t) n = if k = n then v else tget d t n := rfl

variable {α : Type} [DecidableEq α]

/-- A write leaves every other index as it was. -/
theorem tget_tput_other (d : α) (t : Tbl α) (n j : Nat) (v : α) (h : j ≠ n) : tget d (tput d t n v) j = tget d t j := by
  induction t with
  | nil => unfold tput; split <;> simp [tget, Ne.symm h]
  | cons e t ih =>
    obtain ⟨k, x⟩ := e
    unfold tput
    split
    · split <;> simp [tget, Ne.symm h]
    · split
      · rename_i hk
        have hj : k ≠ j := fun e => h (e.symm.trans hk.symm)
        split <;> simp [tget, hj, hk]
      · simp [tget, ih]

/-- A value other than what unlisted indices read as is read back, in every table. -/
theorem tget_tput_self_ne (d : α) (t : Tbl α) (n : Nat) (v : α) (h : v ≠ d) : tget d (tput d t n v) n = v := by
  induction t with
  | nil => simp [tput, tget, h]
  | cons e t ih =>
    obtain ⟨k, x⟩ := e
    unfold tput
    split
    · simp [tget]
    · split
      · simp [tget]
      · rename_i h1 h2; simp [tget, ih, Ne.symm h2]

theorem twfFrom_lt (d : α) (t : Tbl α) (lo n : Nat) (h : twfFrom d (some lo) t) (hn : n ≤ lo) : tget d t n = d := by
  induction t generalizing lo with
  | nil => rfl
  | cons e t ih =>
    obtain ⟨k, x⟩ := e
    simp only [twfFrom, Bool.and_eq_true, decide_eq_true_eq] at h
    have hk : k ≠ n := by omega
    simp only [tget, hk, if_false]
    exact ih k h.2 (by omega)

theorem tget_tput_self_from (d : α) (t : Tbl α) (lo : Option Nat) (n : Nat) (v : α) (h : twfFrom d lo t) :
    tget d (tput d t n v) n = v := by
  induction t generalizing lo with
  | nil => unfold tput; split <;> simp_all [tget]
  | cons e t ih =>
    obtain ⟨k, x⟩ := e
    simp only [twfFrom, Bool.and_eq_true, decide_eq_true_eq] at h
    unfold tput
    split
    · rename_i hk
      split
      · rename_i hv
        have hne : k ≠ n := by omega
        simp only [tget, hne, if_false]
        rw [twfFrom_lt d t k n h.2 (by omega), hv]
      · simp [tget]
    · split
      · rename_i hk
        split
        · rename_i hv; rw [twfFrom_lt d t k n h.2 (by omega), hv]
        · simp [tget]
      · rename_i h1 h2
        simp only [tget, Ne.symm h2, if_false]
        exact ih (some k) h.2

/-- In a table in canonical form a write is read back. -/
theorem tget_tput_self (d : α) (t : Tbl α) (n : Nat) (v : α) (h : twf d t) : tget d (tput d t n v) n = v :=
  tget_tput_self_from d t none n v h

/-- Does a lower bound of a table's indices allow index `n`? -/
def loOk (lo : Option Nat) (n : Nat) : Prop := ∀ m, lo = some m → m < n

theorem twfFrom_weaken (d : α) (t : Tbl α) (a b : Nat) (h : twfFrom d (some b) t) (hab : a ≤ b) : twfFrom d (some a) t := by
  cases t with
  | nil => rfl
  | cons e t =>
    obtain ⟨k, x⟩ := e
    simp only [twfFrom, Bool.and_eq_true, decide_eq_true_eq] at h ⊢
    exact ⟨⟨by omega, h.1.2⟩, h.2⟩

theorem twfFrom_drop (d : α) (t : Tbl α) (lo : Option Nat) (k : Nat) (h : twfFrom d (some k) t) (hl : loOk lo k) :
    twfFrom d lo t := by
  cases lo with
  | none =>
    cases t with
    | nil => rfl
    | cons e t => simp only [twfFrom, Bool.and_eq_true] at h ⊢; exact ⟨⟨trivial, h.1.2⟩, h.2⟩
  | some m => exact twfFrom_weaken d t m k h (Nat.le_of_lt (hl m rfl))

theorem twfFrom_cons (d : α) (lo : Option Nat) (k : Nat) (v : α) (t : Tbl α) :
    twfFrom d lo ((k, v) :: t) = true ↔ loOk lo k ∧ v ≠ d ∧ twfFrom d (some k) t = true := by
  cases lo <;> simp [twfFrom, loOk, and_assoc]

theorem tput_twfFrom (d : α) (t : Tbl α) (lo : Option Nat) (n : Nat) (v : α) (h : twfFrom d lo t) (hl : loOk lo n) :
    twfFrom d lo (tput d t n v) := by
  induction t generalizing lo with
  | nil =>
    unfold tput
    split
    · rfl
    · rename_i hv; exact (twfFrom_cons ..).2 ⟨hl, hv, rfl⟩
  | cons e t ih =>
    obtain ⟨k, x⟩ := e
    obtain ⟨h1, h2, h3⟩ := (twfFrom_cons ..).1 h
    unfold tput
    split
    · rename_i hk
      split
      · exact h
      · rename_i hv
        exact (twfFrom_cons ..).2 ⟨hl, hv, (twfFrom_cons ..).2 ⟨fun m hm => by cases hm; exact hk, h2, h3⟩⟩
    · split
      · rename_i hk
        subst hk
        split
        · exact twfFrom_drop d t lo _ h3 h1
        · rename_i hv; exact (twfFrom_cons ..).2 ⟨hl, hv, h3⟩
      · rename_i hk1 hk2
        exact (twfFrom_cons ..).2 ⟨h1, h2, ih (some k) h3 (fun m hm => by cases hm; omega)⟩

/-- A write keeps the canonical form. -/
theorem tput_twf (d : α) (t : Tbl α) (n : Nat) (v : α) (h : twf d t) : twf d (tput d t n v) :=
  tput_twfFrom d t none n v h (fun _ hm => by cases hm)

/-- A change of one entry keeps the canonical form. -/
theorem tmod_twf (d : α) (t : Tbl α) (n : Nat) (f : α → α) (h : twf d t) : twf d (tmod d t n f) :=
  tput_twf d t n _ h

theorem tmap_twfFrom (d : α) (f : α → α) (t : Tbl α) (lo : Option Nat) (h : twfFrom d lo t) : twfFrom d lo (tmap d f t) := by
  induction t generalizing lo with
  | nil => rfl
  | cons e t ih =>
    obtain ⟨k, x⟩ := e
    obtain ⟨h1, _, h3⟩ := (twfFrom_cons ..).1 h
    have h4 := ih (some k) h3
    unfold tmap at h4 ⊢
    rw [List.filterMap_cons]
    split
    · exact twfFrom_drop d _ lo k h4 h1
    · rename_i b hb
      split at hb
      · cases hb
      · rename_i hv
        cases hb
        exact (twfFrom_cons ..).2 ⟨h1, hv, h4⟩

/-- A change of every entry keeps the canonical form. -/
theorem tmap_twf (d : α) (f : α → α) (t : Tbl α) (h : twf d t) : twf d (tmap d f t) := tmap_twfFrom d f t none h

theorem filter_twfFrom (d : α) (p : Nat × α → Bool) (t : Tbl α) (lo : Option Nat) (h : twfFrom d lo t) :
    twfFrom d lo (t.filter p) := by
  induction t generalizing lo with
  | nil => rfl
  | cons e t ih =>
    obtain ⟨k, x⟩ := e
    obtain ⟨h1, h2, h3⟩ := (twfFrom_cons ..).1 h
    rw [List.filter_cons]
    split
    · exact (twfFrom_cons ..).2 ⟨h1, h2, ih (some k) h3⟩
    · exact twfFrom_drop d _ lo k (ih (some k) h3) h1

/-- Dropping entries keeps the canonical form. -/
theorem tfilter_twf (d : α) (p : Nat → α → Bool) (t : Tbl α) (h : twf d t) : twf d (tfilter p t) :=
  filter_twfFrom d _ t none h

end Sys2Proof.Machine
end

