-- ==== Sys2Proof/Laws/State.lean ====
section
/-!
SUPPORT. One lemma per field per named update of the module's state, each true by unfolding, so that no later proof unfolds
a record update; and what each named update's own reader sees after it.
-/

namespace Sys2Proof.Machine

variable (m : Mod)

/-! ### `Mod.setIsl` -/

@[simp] theorem Mod.setIsl_cfg (i : Nat) (f : Isl → Isl) : (m.setIsl i f).cfg = m.cfg := rfl
@[simp] theorem Mod.setIsl_path (i : Nat) (f : Isl → Isl) : (m.setIsl i f).path = m.path := rfl
@[simp] theorem Mod.setIsl_host (i : Nat) (f : Isl → Isl) : (m.setIsl i f).host = m.host := rfl
@[simp] theorem Mod.setIsl_hop (i : Nat) (f : Isl → Isl) : (m.setIsl i f).hop = m.hop := rfl
@[simp] theorem Mod.setIsl_med (i : Nat) (f : Isl → Isl) : (m.setIsl i f).med = m.med := rfl
@[simp] theorem Mod.setIsl_upk (i : Nat) (f : Isl → Isl) : (m.setIsl i f).upk = m.upk := rfl
@[simp] theorem Mod.setIsl_fb (i : Nat) (f : Isl → Isl) : (m.setIsl i f).fb = m.fb := rfl
@[simp] theorem Mod.setIsl_per (i : Nat) (f : Isl → Isl) : (m.setIsl i f).per = m.per := rfl
@[simp] theorem Mod.setIsl_rep (i : Nat) (f : Isl → Isl) : (m.setIsl i f).rep = m.rep := rfl
@[simp] theorem Mod.setIsl_twin (i : Nat) (f : Isl → Isl) : (m.setIsl i f).twin = m.twin := rfl
@[simp] theorem Mod.setIsl_tx (i : Nat) (f : Isl → Isl) : (m.setIsl i f).tx = m.tx := rfl
@[simp] theorem Mod.setIsl_cry (i : Nat) (f : Isl → Isl) : (m.setIsl i f).cry = m.cry := rfl
@[simp] theorem Mod.setIsl_pwr (i : Nat) (f : Isl → Isl) : (m.setIsl i f).pwr = m.pwr := rfl
@[simp] theorem Mod.setIsl_th (i : Nat) (f : Isl → Isl) : (m.setIsl i f).th = m.th := rfl
@[simp] theorem Mod.setIsl_perf (i : Nat) (f : Isl → Isl) : (m.setIsl i f).perf = m.perf := rfl
@[simp] theorem Mod.setIsl_tly (i : Nat) (f : Isl → Isl) : (m.setIsl i f).tly = m.tly := rfl
@[simp] theorem Mod.setIsl_seed (i : Nat) (f : Isl → Isl) : (m.setIsl i f).seed = m.seed := rfl
@[simp] theorem Mod.setIsl_fore (i : Nat) (f : Isl → Isl) : (m.setIsl i f).fore = m.fore := rfl
@[simp] theorem Mod.setIsl_evt (i : Nat) (f : Isl → Isl) : (m.setIsl i f).evt = m.evt := rfl
@[simp] theorem Mod.setIsl_dbg (i : Nat) (f : Isl → Isl) : (m.setIsl i f).dbg = m.dbg := rfl
@[simp] theorem Mod.setIsl_nv (i : Nat) (f : Isl → Isl) : (m.setIsl i f).nv = m.nv := rfl
@[simp] theorem Mod.setIsl_nv2 (i : Nat) (f : Isl → Isl) : (m.setIsl i f).nv2 = m.nv2 := rfl
@[simp] theorem Mod.setIsl_out (i : Nat) (f : Isl → Isl) : (m.setIsl i f).out = m.out := rfl
@[simp] theorem Mod.setIsl_time_dtc (i : Nat) (f : Isl → Isl) : (m.setIsl i f).time.dtc = m.time.dtc := rfl
@[simp] theorem Mod.setIsl_time_ppb (i : Nat) (f : Isl → Isl) : (m.setIsl i f).time.ppb = m.time.ppb := rfl
@[simp] theorem Mod.setIsl_time_lastAdj (i : Nat) (f : Isl → Isl) : (m.setIsl i f).time.lastAdj = m.time.lastAdj := rfl
@[simp] theorem Mod.setIsl_time_lost (i : Nat) (f : Isl → Isl) : (m.setIsl i f).time.lost = m.time.lost := rfl
@[simp] theorem Mod.setIsl_time_stampBase (i : Nat) (f : Isl → Isl) : (m.setIsl i f).time.stampBase = m.time.stampBase := rfl
@[simp] theorem Mod.setIsl_time_stampAt (i : Nat) (f : Isl → Isl) : (m.setIsl i f).time.stampAt = m.time.stampAt := rfl
@[simp] theorem Mod.setIsl_time_fresh (i : Nat) (f : Isl → Isl) : (m.setIsl i f).time.fresh = m.time.fresh := rfl
@[simp] theorem Mod.setIsl_time_opsecAt (i : Nat) (f : Isl → Isl) : (m.setIsl i f).time.opsecAt = m.time.opsecAt := rfl
@[simp] theorem Mod.setIsl_time_resumed (i : Nat) (f : Isl → Isl) : (m.setIsl i f).time.resumed = m.time.resumed := rfl

/-! ### `Mod.setPort` -/

@[simp] theorem Mod.setPort_time (i : Nat) (f : Port → Port) : (m.setPort i f).time = m.time := rfl
@[simp] theorem Mod.setPort_cfg (i : Nat) (f : Port → Port) : (m.setPort i f).cfg = m.cfg := rfl
@[simp] theorem Mod.setPort_path (i : Nat) (f : Port → Port) : (m.setPort i f).path = m.path := rfl
@[simp] theorem Mod.setPort_hop (i : Nat) (f : Port → Port) : (m.setPort i f).hop = m.hop := rfl
@[simp] theorem Mod.setPort_med (i : Nat) (f : Port → Port) : (m.setPort i f).med = m.med := rfl
@[simp] theorem Mod.setPort_upk (i : Nat) (f : Port → Port) : (m.setPort i f).upk = m.upk := rfl
@[simp] theorem Mod.setPort_fb (i : Nat) (f : Port → Port) : (m.setPort i f).fb = m.fb := rfl
@[simp] theorem Mod.setPort_per (i : Nat) (f : Port → Port) : (m.setPort i f).per = m.per := rfl
@[simp] theorem Mod.setPort_rep (i : Nat) (f : Port → Port) : (m.setPort i f).rep = m.rep := rfl
@[simp] theorem Mod.setPort_twin (i : Nat) (f : Port → Port) : (m.setPort i f).twin = m.twin := rfl
@[simp] theorem Mod.setPort_tx (i : Nat) (f : Port → Port) : (m.setPort i f).tx = m.tx := rfl
@[simp] theorem Mod.setPort_cry (i : Nat) (f : Port → Port) : (m.setPort i f).cry = m.cry := rfl
@[simp] theorem Mod.setPort_pwr (i : Nat) (f : Port → Port) : (m.setPort i f).pwr = m.pwr := rfl
@[simp] theorem Mod.setPort_th (i : Nat) (f : Port → Port) : (m.setPort i f).th = m.th := rfl
@[simp] theorem Mod.setPort_perf (i : Nat) (f : Port → Port) : (m.setPort i f).perf = m.perf := rfl
@[simp] theorem Mod.setPort_tly (i : Nat) (f : Port → Port) : (m.setPort i f).tly = m.tly := rfl
@[simp] theorem Mod.setPort_seed (i : Nat) (f : Port → Port) : (m.setPort i f).seed = m.seed := rfl
@[simp] theorem Mod.setPort_fore (i : Nat) (f : Port → Port) : (m.setPort i f).fore = m.fore := rfl
@[simp] theorem Mod.setPort_evt (i : Nat) (f : Port → Port) : (m.setPort i f).evt = m.evt := rfl
@[simp] theorem Mod.setPort_dbg (i : Nat) (f : Port → Port) : (m.setPort i f).dbg = m.dbg := rfl
@[simp] theorem Mod.setPort_nv (i : Nat) (f : Port → Port) : (m.setPort i f).nv = m.nv := rfl
@[simp] theorem Mod.setPort_nv2 (i : Nat) (f : Port → Port) : (m.setPort i f).nv2 = m.nv2 := rfl
@[simp] theorem Mod.setPort_out (i : Nat) (f : Port → Port) : (m.setPort i f).out = m.out := rfl
@[simp] theorem Mod.setPort_host_lps (i : Nat) (f : Port → Port) : (m.setPort i f).host.lps = m.host.lps := rfl
@[simp] theorem Mod.setPort_host_aux (i : Nat) (f : Port → Port) : (m.setPort i f).host.aux = m.host.aux := rfl
@[simp] theorem Mod.setPort_host_reqs (i : Nat) (f : Port → Port) : (m.setPort i f).host.reqs = m.host.reqs := rfl
@[simp] theorem Mod.setPort_host_held (i : Nat) (f : Port → Port) : (m.setPort i f).host.held = m.host.held := rfl
@[simp] theorem Mod.setPort_host_nextReq (i : Nat) (f : Port → Port) : (m.setPort i f).host.nextReq = m.host.nextReq := rfl
@[simp] theorem Mod.setPort_host_logs (i : Nat) (f : Port → Port) : (m.setPort i f).host.logs = m.host.logs := rfl
@[simp] theorem Mod.setPort_host_mgmtUnread (i : Nat) (f : Port → Port) : (m.setPort i f).host.mgmtUnread = m.host.mgmtUnread := rfl
@[simp] theorem Mod.setPort_host_wStdA (i : Nat) (f : Port → Port) : (m.setPort i f).host.wStdA = m.host.wStdA := rfl
@[simp] theorem Mod.setPort_host_wStdB (i : Nat) (f : Port → Port) : (m.setPort i f).host.wStdB = m.host.wStdB := rfl
@[simp] theorem Mod.setPort_host_wBulkA (i : Nat) (f : Port → Port) : (m.setPort i f).host.wBulkA = m.host.wBulkA := rfl
@[simp] theorem Mod.setPort_host_wBulkB (i : Nat) (f : Port → Port) : (m.setPort i f).host.wBulkB = m.host.wBulkB := rfl
@[simp] theorem Mod.setPort_host_gate (i : Nat) (f : Port → Port) : (m.setPort i f).host.gate = m.host.gate := rfl
@[simp] theorem Mod.setPort_host_rwdOpen (i : Nat) (f : Port → Port) : (m.setPort i f).host.rwdOpen = m.host.rwdOpen := rfl
@[simp] theorem Mod.setPort_host_peakA (i : Nat) (f : Port → Port) : (m.setPort i f).host.peakA = m.host.peakA := rfl
@[simp] theorem Mod.setPort_host_peakB (i : Nat) (f : Port → Port) : (m.setPort i f).host.peakB = m.host.peakB := rfl

/-! ### `Mod.setLp` -/

@[simp] theorem Mod.setLp_time (i : Nat) (f : Lp → Lp) : (m.setLp i f).time = m.time := rfl
@[simp] theorem Mod.setLp_cfg (i : Nat) (f : Lp → Lp) : (m.setLp i f).cfg = m.cfg := rfl
@[simp] theorem Mod.setLp_path (i : Nat) (f : Lp → Lp) : (m.setLp i f).path = m.path := rfl
@[simp] theorem Mod.setLp_hop (i : Nat) (f : Lp → Lp) : (m.setLp i f).hop = m.hop := rfl
@[simp] theorem Mod.setLp_med (i : Nat) (f : Lp → Lp) : (m.setLp i f).med = m.med := rfl
@[simp] theorem Mod.setLp_upk (i : Nat) (f : Lp → Lp) : (m.setLp i f).upk = m.upk := rfl
@[simp] theorem Mod.setLp_fb (i : Nat) (f : Lp → Lp) : (m.setLp i f).fb = m.fb := rfl
@[simp] theorem Mod.setLp_per (i : Nat) (f : Lp → Lp) : (m.setLp i f).per = m.per := rfl
@[simp] theorem Mod.setLp_rep (i : Nat) (f : Lp → Lp) : (m.setLp i f).rep = m.rep := rfl
@[simp] theorem Mod.setLp_twin (i : Nat) (f : Lp → Lp) : (m.setLp i f).twin = m.twin := rfl
@[simp] theorem Mod.setLp_tx (i : Nat) (f : Lp → Lp) : (m.setLp i f).tx = m.tx := rfl
@[simp] theorem Mod.setLp_cry (i : Nat) (f : Lp → Lp) : (m.setLp i f).cry = m.cry := rfl
@[simp] theorem Mod.setLp_pwr (i : Nat) (f : Lp → Lp) : (m.setLp i f).pwr = m.pwr := rfl
@[simp] theorem Mod.setLp_th (i : Nat) (f : Lp → Lp) : (m.setLp i f).th = m.th := rfl
@[simp] theorem Mod.setLp_perf (i : Nat) (f : Lp → Lp) : (m.setLp i f).perf = m.perf := rfl
@[simp] theorem Mod.setLp_tly (i : Nat) (f : Lp → Lp) : (m.setLp i f).tly = m.tly := rfl
@[simp] theorem Mod.setLp_seed (i : Nat) (f : Lp → Lp) : (m.setLp i f).seed = m.seed := rfl
@[simp] theorem Mod.setLp_fore (i : Nat) (f : Lp → Lp) : (m.setLp i f).fore = m.fore := rfl
@[simp] theorem Mod.setLp_evt (i : Nat) (f : Lp → Lp) : (m.setLp i f).evt = m.evt := rfl
@[simp] theorem Mod.setLp_dbg (i : Nat) (f : Lp → Lp) : (m.setLp i f).dbg = m.dbg := rfl
@[simp] theorem Mod.setLp_nv (i : Nat) (f : Lp → Lp) : (m.setLp i f).nv = m.nv := rfl
@[simp] theorem Mod.setLp_nv2 (i : Nat) (f : Lp → Lp) : (m.setLp i f).nv2 = m.nv2 := rfl
@[simp] theorem Mod.setLp_out (i : Nat) (f : Lp → Lp) : (m.setLp i f).out = m.out := rfl
@[simp] theorem Mod.setLp_host_ports (i : Nat) (f : Lp → Lp) : (m.setLp i f).host.ports = m.host.ports := rfl
@[simp] theorem Mod.setLp_host_aux (i : Nat) (f : Lp → Lp) : (m.setLp i f).host.aux = m.host.aux := rfl
@[simp] theorem Mod.setLp_host_reqs (i : Nat) (f : Lp → Lp) : (m.setLp i f).host.reqs = m.host.reqs := rfl
@[simp] theorem Mod.setLp_host_held (i : Nat) (f : Lp → Lp) : (m.setLp i f).host.held = m.host.held := rfl
@[simp] theorem Mod.setLp_host_nextReq (i : Nat) (f : Lp → Lp) : (m.setLp i f).host.nextReq = m.host.nextReq := rfl
@[simp] theorem Mod.setLp_host_logs (i : Nat) (f : Lp → Lp) : (m.setLp i f).host.logs = m.host.logs := rfl
@[simp] theorem Mod.setLp_host_mgmtUnread (i : Nat) (f : Lp → Lp) : (m.setLp i f).host.mgmtUnread = m.host.mgmtUnread := rfl
@[simp] theorem Mod.setLp_host_wStdA (i : Nat) (f : Lp → Lp) : (m.setLp i f).host.wStdA = m.host.wStdA := rfl
@[simp] theorem Mod.setLp_host_wStdB (i : Nat) (f : Lp → Lp) : (m.setLp i f).host.wStdB = m.host.wStdB := rfl
@[simp] theorem Mod.setLp_host_wBulkA (i : Nat) (f : Lp → Lp) : (m.setLp i f).host.wBulkA = m.host.wBulkA := rfl
@[simp] theorem Mod.setLp_host_wBulkB (i : Nat) (f : Lp → Lp) : (m.setLp i f).host.wBulkB = m.host.wBulkB := rfl
@[simp] theorem Mod.setLp_host_gate (i : Nat) (f : Lp → Lp) : (m.setLp i f).host.gate = m.host.gate := rfl
@[simp] theorem Mod.setLp_host_rwdOpen (i : Nat) (f : Lp → Lp) : (m.setLp i f).host.rwdOpen = m.host.rwdOpen := rfl
@[simp] theorem Mod.setLp_host_peakA (i : Nat) (f : Lp → Lp) : (m.setLp i f).host.peakA = m.host.peakA := rfl
@[simp] theorem Mod.setLp_host_peakB (i : Nat) (f : Lp → Lp) : (m.setLp i f).host.peakB = m.host.peakB := rfl

/-! ### `Mod.setAux` -/

@[simp] theorem Mod.setAux_time (i : Nat) (f : LpAux → LpAux) : (m.setAux i f).time = m.time := rfl
@[simp] theorem Mod.setAux_cfg (i : Nat) (f : LpAux → LpAux) : (m.setAux i f).cfg = m.cfg := rfl
@[simp] theorem Mod.setAux_path (i : Nat) (f : LpAux → LpAux) : (m.setAux i f).path = m.path := rfl
@[simp] theorem Mod.setAux_hop (i : Nat) (f : LpAux → LpAux) : (m.setAux i f).hop = m.hop := rfl
@[simp] theorem Mod.setAux_med (i : Nat) (f : LpAux → LpAux) : (m.setAux i f).med = m.med := rfl
@[simp] theorem Mod.setAux_upk (i : Nat) (f : LpAux → LpAux) : (m.setAux i f).upk = m.upk := rfl
@[simp] theorem Mod.setAux_fb (i : Nat) (f : LpAux → LpAux) : (m.setAux i f).fb = m.fb := rfl
@[simp] theorem Mod.setAux_per (i : Nat) (f : LpAux → LpAux) : (m.setAux i f).per = m.per := rfl
@[simp] theorem Mod.setAux_rep (i : Nat) (f : LpAux → LpAux) : (m.setAux i f).rep = m.rep := rfl
@[simp] theorem Mod.setAux_twin (i : Nat) (f : LpAux → LpAux) : (m.setAux i f).twin = m.twin := rfl
@[simp] theorem Mod.setAux_tx (i : Nat) (f : LpAux → LpAux) : (m.setAux i f).tx = m.tx := rfl
@[simp] theorem Mod.setAux_cry (i : Nat) (f : LpAux → LpAux) : (m.setAux i f).cry = m.cry := rfl
@[simp] theorem Mod.setAux_pwr (i : Nat) (f : LpAux → LpAux) : (m.setAux i f).pwr = m.pwr := rfl
@[simp] theorem Mod.setAux_th (i : Nat) (f : LpAux → LpAux) : (m.setAux i f).th = m.th := rfl
@[simp] theorem Mod.setAux_perf (i : Nat) (f : LpAux → LpAux) : (m.setAux i f).perf = m.perf := rfl
@[simp] theorem Mod.setAux_tly (i : Nat) (f : LpAux → LpAux) : (m.setAux i f).tly = m.tly := rfl
@[simp] theorem Mod.setAux_seed (i : Nat) (f : LpAux → LpAux) : (m.setAux i f).seed = m.seed := rfl
@[simp] theorem Mod.setAux_fore (i : Nat) (f : LpAux → LpAux) : (m.setAux i f).fore = m.fore := rfl
@[simp] theorem Mod.setAux_evt (i : Nat) (f : LpAux → LpAux) : (m.setAux i f).evt = m.evt := rfl
@[simp] theorem Mod.setAux_dbg (i : Nat) (f : LpAux → LpAux) : (m.setAux i f).dbg = m.dbg := rfl
@[simp] theorem Mod.setAux_nv (i : Nat) (f : LpAux → LpAux) : (m.setAux i f).nv = m.nv := rfl
@[simp] theorem Mod.setAux_nv2 (i : Nat) (f : LpAux → LpAux) : (m.setAux i f).nv2 = m.nv2 := rfl
@[simp] theorem Mod.setAux_out (i : Nat) (f : LpAux → LpAux) : (m.setAux i f).out = m.out := rfl
@[simp] theorem Mod.setAux_host_ports (i : Nat) (f : LpAux → LpAux) : (m.setAux i f).host.ports = m.host.ports := rfl
@[simp] theorem Mod.setAux_host_lps (i : Nat) (f : LpAux → LpAux) : (m.setAux i f).host.lps = m.host.lps := rfl
@[simp] theorem Mod.setAux_host_reqs (i : Nat) (f : LpAux → LpAux) : (m.setAux i f).host.reqs = m.host.reqs := rfl
@[simp] theorem Mod.setAux_host_held (i : Nat) (f : LpAux → LpAux) : (m.setAux i f).host.held = m.host.held := rfl
@[simp] theorem Mod.setAux_host_nextReq (i : Nat) (f : LpAux → LpAux) : (m.setAux i f).host.nextReq = m.host.nextReq := rfl
@[simp] theorem Mod.setAux_host_logs (i : Nat) (f : LpAux → LpAux) : (m.setAux i f).host.logs = m.host.logs := rfl
@[simp] theorem Mod.setAux_host_mgmtUnread (i : Nat) (f : LpAux → LpAux) : (m.setAux i f).host.mgmtUnread = m.host.mgmtUnread := rfl
@[simp] theorem Mod.setAux_host_wStdA (i : Nat) (f : LpAux → LpAux) : (m.setAux i f).host.wStdA = m.host.wStdA := rfl
@[simp] theorem Mod.setAux_host_wStdB (i : Nat) (f : LpAux → LpAux) : (m.setAux i f).host.wStdB = m.host.wStdB := rfl
@[simp] theorem Mod.setAux_host_wBulkA (i : Nat) (f : LpAux → LpAux) : (m.setAux i f).host.wBulkA = m.host.wBulkA := rfl
@[simp] theorem Mod.setAux_host_wBulkB (i : Nat) (f : LpAux → LpAux) : (m.setAux i f).host.wBulkB = m.host.wBulkB := rfl
@[simp] theorem Mod.setAux_host_gate (i : Nat) (f : LpAux → LpAux) : (m.setAux i f).host.gate = m.host.gate := rfl
@[simp] theorem Mod.setAux_host_rwdOpen (i : Nat) (f : LpAux → LpAux) : (m.setAux i f).host.rwdOpen = m.host.rwdOpen := rfl
@[simp] theorem Mod.setAux_host_peakA (i : Nat) (f : LpAux → LpAux) : (m.setAux i f).host.peakA = m.host.peakA := rfl
@[simp] theorem Mod.setAux_host_peakB (i : Nat) (f : LpAux → LpAux) : (m.setAux i f).host.peakB = m.host.peakB := rfl

/-! ### `Mod.setReq` -/

@[simp] theorem Mod.setReq_time (i : Nat) (f : Req → Req) : (m.setReq i f).time = m.time := rfl
@[simp] theorem Mod.setReq_cfg (i : Nat) (f : Req → Req) : (m.setReq i f).cfg = m.cfg := rfl
@[simp] theorem Mod.setReq_path (i : Nat) (f : Req → Req) : (m.setReq i f).path = m.path := rfl
@[simp] theorem Mod.setReq_hop (i : Nat) (f : Req → Req) : (m.setReq i f).hop = m.hop := rfl
@[simp] theorem Mod.setReq_med (i : Nat) (f : Req → Req) : (m.setReq i f).med = m.med := rfl
@[simp] theorem Mod.setReq_upk (i : Nat) (f : Req → Req) : (m.setReq i f).upk = m.upk := rfl
@[simp] theorem Mod.setReq_fb (i : Nat) (f : Req → Req) : (m.setReq i f).fb = m.fb := rfl
@[simp] theorem Mod.setReq_per (i : Nat) (f : Req → Req) : (m.setReq i f).per = m.per := rfl
@[simp] theorem Mod.setReq_rep (i : Nat) (f : Req → Req) : (m.setReq i f).rep = m.rep := rfl
@[simp] theorem Mod.setReq_twin (i : Nat) (f : Req → Req) : (m.setReq i f).twin = m.twin := rfl
@[simp] theorem Mod.setReq_tx (i : Nat) (f : Req → Req) : (m.setReq i f).tx = m.tx := rfl
@[simp] theorem Mod.setReq_cry (i : Nat) (f : Req → Req) : (m.setReq i f).cry = m.cry := rfl
@[simp] theorem Mod.setReq_pwr (i : Nat) (f : Req → Req) : (m.setReq i f).pwr = m.pwr := rfl
@[simp] theorem Mod.setReq_th (i : Nat) (f : Req → Req) : (m.setReq i f).th = m.th := rfl
@[simp] theorem Mod.setReq_perf (i : Nat) (f : Req → Req) : (m.setReq i f).perf = m.perf := rfl
@[simp] theorem Mod.setReq_tly (i : Nat) (f : Req → Req) : (m.setReq i f).tly = m.tly := rfl
@[simp] theorem Mod.setReq_seed (i : Nat) (f : Req → Req) : (m.setReq i f).seed = m.seed := rfl
@[simp] theorem Mod.setReq_fore (i : Nat) (f : Req → Req) : (m.setReq i f).fore = m.fore := rfl
@[simp] theorem Mod.setReq_evt (i : Nat) (f : Req → Req) : (m.setReq i f).evt = m.evt := rfl
@[simp] theorem Mod.setReq_dbg (i : Nat) (f : Req → Req) : (m.setReq i f).dbg = m.dbg := rfl
@[simp] theorem Mod.setReq_nv (i : Nat) (f : Req → Req) : (m.setReq i f).nv = m.nv := rfl
@[simp] theorem Mod.setReq_nv2 (i : Nat) (f : Req → Req) : (m.setReq i f).nv2 = m.nv2 := rfl
@[simp] theorem Mod.setReq_out (i : Nat) (f : Req → Req) : (m.setReq i f).out = m.out := rfl
@[simp] theorem Mod.setReq_host_ports (i : Nat) (f : Req → Req) : (m.setReq i f).host.ports = m.host.ports := rfl
@[simp] theorem Mod.setReq_host_lps (i : Nat) (f : Req → Req) : (m.setReq i f).host.lps = m.host.lps := rfl
@[simp] theorem Mod.setReq_host_aux (i : Nat) (f : Req → Req) : (m.setReq i f).host.aux = m.host.aux := rfl
@[simp] theorem Mod.setReq_host_held (i : Nat) (f : Req → Req) : (m.setReq i f).host.held = m.host.held := rfl
@[simp] theorem Mod.setReq_host_nextReq (i : Nat) (f : Req → Req) : (m.setReq i f).host.nextReq = m.host.nextReq := rfl
@[simp] theorem Mod.setReq_host_logs (i : Nat) (f : Req → Req) : (m.setReq i f).host.logs = m.host.logs := rfl
@[simp] theorem Mod.setReq_host_mgmtUnread (i : Nat) (f : Req → Req) : (m.setReq i f).host.mgmtUnread = m.host.mgmtUnread := rfl
@[simp] theorem Mod.setReq_host_wStdA (i : Nat) (f : Req → Req) : (m.setReq i f).host.wStdA = m.host.wStdA := rfl
@[simp] theorem Mod.setReq_host_wStdB (i : Nat) (f : Req → Req) : (m.setReq i f).host.wStdB = m.host.wStdB := rfl
@[simp] theorem Mod.setReq_host_wBulkA (i : Nat) (f : Req → Req) : (m.setReq i f).host.wBulkA = m.host.wBulkA := rfl
@[simp] theorem Mod.setReq_host_wBulkB (i : Nat) (f : Req → Req) : (m.setReq i f).host.wBulkB = m.host.wBulkB := rfl
@[simp] theorem Mod.setReq_host_gate (i : Nat) (f : Req → Req) : (m.setReq i f).host.gate = m.host.gate := rfl
@[simp] theorem Mod.setReq_host_rwdOpen (i : Nat) (f : Req → Req) : (m.setReq i f).host.rwdOpen = m.host.rwdOpen := rfl
@[simp] theorem Mod.setReq_host_peakA (i : Nat) (f : Req → Req) : (m.setReq i f).host.peakA = m.host.peakA := rfl
@[simp] theorem Mod.setReq_host_peakB (i : Nat) (f : Req → Req) : (m.setReq i f).host.peakB = m.host.peakB := rfl

/-! ### `Mod.setFrame` -/

@[simp] theorem Mod.setFrame_time (i : Nat) (f : Frame → Frame) : (m.setFrame i f).time = m.time := rfl
@[simp] theorem Mod.setFrame_cfg (i : Nat) (f : Frame → Frame) : (m.setFrame i f).cfg = m.cfg := rfl
@[simp] theorem Mod.setFrame_path (i : Nat) (f : Frame → Frame) : (m.setFrame i f).path = m.path := rfl
@[simp] theorem Mod.setFrame_host (i : Nat) (f : Frame → Frame) : (m.setFrame i f).host = m.host := rfl
@[simp] theorem Mod.setFrame_med (i : Nat) (f : Frame → Frame) : (m.setFrame i f).med = m.med := rfl
@[simp] theorem Mod.setFrame_upk (i : Nat) (f : Frame → Frame) : (m.setFrame i f).upk = m.upk := rfl
@[simp] theorem Mod.setFrame_fb (i : Nat) (f : Frame → Frame) : (m.setFrame i f).fb = m.fb := rfl
@[simp] theorem Mod.setFrame_per (i : Nat) (f : Frame → Frame) : (m.setFrame i f).per = m.per := rfl
@[simp] theorem Mod.setFrame_rep (i : Nat) (f : Frame → Frame) : (m.setFrame i f).rep = m.rep := rfl
@[simp] theorem Mod.setFrame_twin (i : Nat) (f : Frame → Frame) : (m.setFrame i f).twin = m.twin := rfl
@[simp] theorem Mod.setFrame_tx (i : Nat) (f : Frame → Frame) : (m.setFrame i f).tx = m.tx := rfl
@[simp] theorem Mod.setFrame_cry (i : Nat) (f : Frame → Frame) : (m.setFrame i f).cry = m.cry := rfl
@[simp] theorem Mod.setFrame_pwr (i : Nat) (f : Frame → Frame) : (m.setFrame i f).pwr = m.pwr := rfl
@[simp] theorem Mod.setFrame_th (i : Nat) (f : Frame → Frame) : (m.setFrame i f).th = m.th := rfl
@[simp] theorem Mod.setFrame_perf (i : Nat) (f : Frame → Frame) : (m.setFrame i f).perf = m.perf := rfl
@[simp] theorem Mod.setFrame_tly (i : Nat) (f : Frame → Frame) : (m.setFrame i f).tly = m.tly := rfl
@[simp] theorem Mod.setFrame_seed (i : Nat) (f : Frame → Frame) : (m.setFrame i f).seed = m.seed := rfl
@[simp] theorem Mod.setFrame_fore (i : Nat) (f : Frame → Frame) : (m.setFrame i f).fore = m.fore := rfl
@[simp] theorem Mod.setFrame_evt (i : Nat) (f : Frame → Frame) : (m.setFrame i f).evt = m.evt := rfl
@[simp] theorem Mod.setFrame_dbg (i : Nat) (f : Frame → Frame) : (m.setFrame i f).dbg = m.dbg := rfl
@[simp] theorem Mod.setFrame_nv (i : Nat) (f : Frame → Frame) : (m.setFrame i f).nv = m.nv := rfl
@[simp] theorem Mod.setFrame_nv2 (i : Nat) (f : Frame → Frame) : (m.setFrame i f).nv2 = m.nv2 := rfl
@[simp] theorem Mod.setFrame_out (i : Nat) (f : Frame → Frame) : (m.setFrame i f).out = m.out := rfl
@[simp] theorem Mod.setFrame_hop_pwq (i : Nat) (f : Frame → Frame) : (m.setFrame i f).hop.pwq = m.hop.pwq := rfl
@[simp] theorem Mod.setFrame_hop_merge (i : Nat) (f : Frame → Frame) : (m.setFrame i f).hop.merge = m.hop.merge := rfl
@[simp] theorem Mod.setFrame_hop_mwait (i : Nat) (f : Frame → Frame) : (m.setFrame i f).hop.mwait = m.hop.mwait := rfl
@[simp] theorem Mod.setFrame_hop_access (i : Nat) (f : Frame → Frame) : (m.setFrame i f).hop.access = m.hop.access := rfl
@[simp] theorem Mod.setFrame_hop_nextAcc (i : Nat) (f : Frame → Frame) : (m.setFrame i f).hop.nextAcc = m.hop.nextAcc := rfl
@[simp] theorem Mod.setFrame_hop_chans (i : Nat) (f : Frame → Frame) : (m.setFrame i f).hop.chans = m.hop.chans := rfl
@[simp] theorem Mod.setFrame_hop_poison (i : Nat) (f : Frame → Frame) : (m.setFrame i f).hop.poison = m.hop.poison := rfl
@[simp] theorem Mod.setFrame_hop_map (i : Nat) (f : Frame → Frame) : (m.setFrame i f).hop.map = m.hop.map := rfl
@[simp] theorem Mod.setFrame_hop_badMap (i : Nat) (f : Frame → Frame) : (m.setFrame i f).hop.badMap = m.hop.badMap := rfl
@[simp] theorem Mod.setFrame_hop_mcache (i : Nat) (f : Frame → Frame) : (m.setFrame i f).hop.mcache = m.hop.mcache := rfl
@[simp] theorem Mod.setFrame_hop_scrubAt (i : Nat) (f : Frame → Frame) : (m.setFrame i f).hop.scrubAt = m.hop.scrubAt := rfl
@[simp] theorem Mod.setFrame_hop_selfRef (i : Nat) (f : Frame → Frame) : (m.setFrame i f).hop.selfRef = m.hop.selfRef := rfl
@[simp] theorem Mod.setFrame_hop_pinLoad (i : Nat) (f : Frame → Frame) : (m.setFrame i f).hop.pinLoad = m.hop.pinLoad := rfl
@[simp] theorem Mod.setFrame_hop_pinned (i : Nat) (f : Frame → Frame) : (m.setFrame i f).hop.pinned = m.hop.pinned := rfl
@[simp] theorem Mod.setFrame_hop_pinPrev (i : Nat) (f : Frame → Frame) : (m.setFrame i f).hop.pinPrev = m.hop.pinPrev := rfl
@[simp] theorem Mod.setFrame_hop_flushQ (i : Nat) (f : Frame → Frame) : (m.setFrame i f).hop.flushQ = m.hop.flushQ := rfl
@[simp] theorem Mod.setFrame_hop_posFlip (i : Nat) (f : Frame → Frame) : (m.setFrame i f).hop.posFlip = m.hop.posFlip := rfl

/-! ### `Mod.setHch` -/

@[simp] theorem Mod.setHch_time (i : Nat) (f : HopCh → HopCh) : (m.setHch i f).time = m.time := rfl
@[simp] theorem Mod.setHch_cfg (i : Nat) (f : HopCh → HopCh) : (m.setHch i f).cfg = m.cfg := rfl
@[simp] theorem Mod.setHch_path (i : Nat) (f : HopCh → HopCh) : (m.setHch i f).path = m.path := rfl
@[simp] theorem Mod.setHch_host (i : Nat) (f : HopCh → HopCh) : (m.setHch i f).host = m.host := rfl
@[simp] theorem Mod.setHch_med (i : Nat) (f : HopCh → HopCh) : (m.setHch i f).med = m.med := rfl
@[simp] theorem Mod.setHch_upk (i : Nat) (f : HopCh → HopCh) : (m.setHch i f).upk = m.upk := rfl
@[simp] theorem Mod.setHch_fb (i : Nat) (f : HopCh → HopCh) : (m.setHch i f).fb = m.fb := rfl
@[simp] theorem Mod.setHch_per (i : Nat) (f : HopCh → HopCh) : (m.setHch i f).per = m.per := rfl
@[simp] theorem Mod.setHch_rep (i : Nat) (f : HopCh → HopCh) : (m.setHch i f).rep = m.rep := rfl
@[simp] theorem Mod.setHch_twin (i : Nat) (f : HopCh → HopCh) : (m.setHch i f).twin = m.twin := rfl
@[simp] theorem Mod.setHch_tx (i : Nat) (f : HopCh → HopCh) : (m.setHch i f).tx = m.tx := rfl
@[simp] theorem Mod.setHch_cry (i : Nat) (f : HopCh → HopCh) : (m.setHch i f).cry = m.cry := rfl
@[simp] theorem Mod.setHch_pwr (i : Nat) (f : HopCh → HopCh) : (m.setHch i f).pwr = m.pwr := rfl
@[simp] theorem Mod.setHch_th (i : Nat) (f : HopCh → HopCh) : (m.setHch i f).th = m.th := rfl
@[simp] theorem Mod.setHch_perf (i : Nat) (f : HopCh → HopCh) : (m.setHch i f).perf = m.perf := rfl
@[simp] theorem Mod.setHch_tly (i : Nat) (f : HopCh → HopCh) : (m.setHch i f).tly = m.tly := rfl
@[simp] theorem Mod.setHch_seed (i : Nat) (f : HopCh → HopCh) : (m.setHch i f).seed = m.seed := rfl
@[simp] theorem Mod.setHch_fore (i : Nat) (f : HopCh → HopCh) : (m.setHch i f).fore = m.fore := rfl
@[simp] theorem Mod.setHch_evt (i : Nat) (f : HopCh → HopCh) : (m.setHch i f).evt = m.evt := rfl
@[simp] theorem Mod.setHch_dbg (i : Nat) (f : HopCh → HopCh) : (m.setHch i f).dbg = m.dbg := rfl
@[simp] theorem Mod.setHch_nv (i : Nat) (f : HopCh → HopCh) : (m.setHch i f).nv = m.nv := rfl
@[simp] theorem Mod.setHch_nv2 (i : Nat) (f : HopCh → HopCh) : (m.setHch i f).nv2 = m.nv2 := rfl
@[simp] theorem Mod.setHch_out (i : Nat) (f : HopCh → HopCh) : (m.setHch i f).out = m.out := rfl
@[simp] theorem Mod.setHch_hop_frames (i : Nat) (f : HopCh → HopCh) : (m.setHch i f).hop.frames = m.hop.frames := rfl
@[simp] theorem Mod.setHch_hop_pwq (i : Nat) (f : HopCh → HopCh) : (m.setHch i f).hop.pwq = m.hop.pwq := rfl
@[simp] theorem Mod.setHch_hop_merge (i : Nat) (f : HopCh → HopCh) : (m.setHch i f).hop.merge = m.hop.merge := rfl
@[simp] theorem Mod.setHch_hop_mwait (i : Nat) (f : HopCh → HopCh) : (m.setHch i f).hop.mwait = m.hop.mwait := rfl
@[simp] theorem Mod.setHch_hop_access (i : Nat) (f : HopCh → HopCh) : (m.setHch i f).hop.access = m.hop.access := rfl
@[simp] theorem Mod.setHch_hop_nextAcc (i : Nat) (f : HopCh → HopCh) : (m.setHch i f).hop.nextAcc = m.hop.nextAcc := rfl
@[simp] theorem Mod.setHch_hop_poison (i : Nat) (f : HopCh → HopCh) : (m.setHch i f).hop.poison = m.hop.poison := rfl
@[simp] theorem Mod.setHch_hop_map (i : Nat) (f : HopCh → HopCh) : (m.setHch i f).hop.map = m.hop.map := rfl
@[simp] theorem Mod.setHch_hop_badMap (i : Nat) (f : HopCh → HopCh) : (m.setHch i f).hop.badMap = m.hop.badMap := rfl
@[simp] theorem Mod.setHch_hop_mcache (i : Nat) (f : HopCh → HopCh) : (m.setHch i f).hop.mcache = m.hop.mcache := rfl
@[simp] theorem Mod.setHch_hop_scrubAt (i : Nat) (f : HopCh → HopCh) : (m.setHch i f).hop.scrubAt = m.hop.scrubAt := rfl
@[simp] theorem Mod.setHch_hop_selfRef (i : Nat) (f : HopCh → HopCh) : (m.setHch i f).hop.selfRef = m.hop.selfRef := rfl
@[simp] theorem Mod.setHch_hop_pinLoad (i : Nat) (f : HopCh → HopCh) : (m.setHch i f).hop.pinLoad = m.hop.pinLoad := rfl
@[simp] theorem Mod.setHch_hop_pinned (i : Nat) (f : HopCh → HopCh) : (m.setHch i f).hop.pinned = m.hop.pinned := rfl
@[simp] theorem Mod.setHch_hop_pinPrev (i : Nat) (f : HopCh → HopCh) : (m.setHch i f).hop.pinPrev = m.hop.pinPrev := rfl
@[simp] theorem Mod.setHch_hop_flushQ (i : Nat) (f : HopCh → HopCh) : (m.setHch i f).hop.flushQ = m.hop.flushQ := rfl
@[simp] theorem Mod.setHch_hop_posFlip (i : Nat) (f : HopCh → HopCh) : (m.setHch i f).hop.posFlip = m.hop.posFlip := rfl

/-! ### `Mod.setEntry` -/

/-- All that a write of a map or metadata line does to the module: the flip marks and the channel's armed flip. -/
theorem Mod.posWrite_eq (p l : Nat) :
    ∃ ch pf, m.posWrite p l = { m with hop := { m.hop with chans := ch, posFlip := pf } } := by
  unfold Mod.posWrite
  dsimp only
  repeat' split
  all_goals exact ⟨_, _, rfl⟩
theorem Mod.posWrites_eq (ps : List (Nat × Nat)) : ∀ m : Mod,
    ∃ ch pf, ps.foldl (fun m x => m.posWrite x.1 x.2) m = { m with hop := { m.hop with chans := ch, posFlip := pf } } := by
  induction ps with
  | nil => exact fun m => ⟨m.hop.chans, m.hop.posFlip, rfl⟩
  | cons x ps ih =>
    intro m
    obtain ⟨c, q, h⟩ := m.posWrite_eq x.1 x.2
    obtain ⟨c', q', h'⟩ := ih (m.posWrite x.1 x.2)
    exact ⟨c', q', by rw [List.foldl_cons, h', h]⟩
/-- All that a new map entry does: the page's word of the map, and what a write of its lines does. -/
theorem Mod.setEntry_eq (p e : Nat) : ∃ ch pf, m.setEntry p e =
    { m with hop := { m.hop with map := tput 0 m.hop.map p e, chans := ch, posFlip := pf } } := by
  obtain ⟨c, q, h⟩ := Mod.posWrites_eq (m.mapLines p) { m with hop := { m.hop with map := tput 0 m.hop.map p e } }
  exact ⟨c, q, h⟩
@[simp] theorem Mod.setEntry_hop_map (p e : Nat) : (m.setEntry p e).hop.map = tput 0 m.hop.map p e := by
  obtain ⟨_, _, h⟩ := m.setEntry_eq p e; rw [h]
@[simp] theorem Mod.setEntry_time (p e : Nat) : (m.setEntry p e).time = m.time := by
  obtain ⟨_, _, h⟩ := m.setEntry_eq p e; rw [h]
@[simp] theorem Mod.setEntry_cfg (p e : Nat) : (m.setEntry p e).cfg = m.cfg := by
  obtain ⟨_, _, h⟩ := m.setEntry_eq p e; rw [h]
@[simp] theorem Mod.setEntry_path (p e : Nat) : (m.setEntry p e).path = m.path := by
  obtain ⟨_, _, h⟩ := m.setEntry_eq p e; rw [h]
@[simp] theorem Mod.setEntry_host (p e : Nat) : (m.setEntry p e).host = m.host := by
  obtain ⟨_, _, h⟩ := m.setEntry_eq p e; rw [h]
@[simp] theorem Mod.setEntry_med (p e : Nat) : (m.setEntry p e).med = m.med := by
  obtain ⟨_, _, h⟩ := m.setEntry_eq p e; rw [h]
@[simp] theorem Mod.setEntry_upk (p e : Nat) : (m.setEntry p e).upk = m.upk := by
  obtain ⟨_, _, h⟩ := m.setEntry_eq p e; rw [h]
@[simp] theorem Mod.setEntry_fb (p e : Nat) : (m.setEntry p e).fb = m.fb := by
  obtain ⟨_, _, h⟩ := m.setEntry_eq p e; rw [h]
@[simp] theorem Mod.setEntry_per (p e : Nat) : (m.setEntry p e).per = m.per := by
  obtain ⟨_, _, h⟩ := m.setEntry_eq p e; rw [h]
@[simp] theorem Mod.setEntry_rep (p e : Nat) : (m.setEntry p e).rep = m.rep := by
  obtain ⟨_, _, h⟩ := m.setEntry_eq p e; rw [h]
@[simp] theorem Mod.setEntry_twin (p e : Nat) : (m.setEntry p e).twin = m.twin := by
  obtain ⟨_, _, h⟩ := m.setEntry_eq p e; rw [h]
@[simp] theorem Mod.setEntry_tx (p e : Nat) : (m.setEntry p e).tx = m.tx := by
  obtain ⟨_, _, h⟩ := m.setEntry_eq p e; rw [h]
@[simp] theorem Mod.setEntry_cry (p e : Nat) : (m.setEntry p e).cry = m.cry := by
  obtain ⟨_, _, h⟩ := m.setEntry_eq p e; rw [h]
@[simp] theorem Mod.setEntry_pwr (p e : Nat) : (m.setEntry p e).pwr = m.pwr := by
  obtain ⟨_, _, h⟩ := m.setEntry_eq p e; rw [h]
@[simp] theorem Mod.setEntry_th (p e : Nat) : (m.setEntry p e).th = m.th := by
  obtain ⟨_, _, h⟩ := m.setEntry_eq p e; rw [h]
@[simp] theorem Mod.setEntry_perf (p e : Nat) : (m.setEntry p e).perf = m.perf := by
  obtain ⟨_, _, h⟩ := m.setEntry_eq p e; rw [h]
@[simp] theorem Mod.setEntry_tly (p e : Nat) : (m.setEntry p e).tly = m.tly := by
  obtain ⟨_, _, h⟩ := m.setEntry_eq p e; rw [h]
@[simp] theorem Mod.setEntry_seed (p e : Nat) : (m.setEntry p e).seed = m.seed := by
  obtain ⟨_, _, h⟩ := m.setEntry_eq p e; rw [h]
@[simp] theorem Mod.setEntry_fore (p e : Nat) : (m.setEntry p e).fore = m.fore := by
  obtain ⟨_, _, h⟩ := m.setEntry_eq p e; rw [h]
@[simp] theorem Mod.setEntry_evt (p e : Nat) : (m.setEntry p e).evt = m.evt := by
  obtain ⟨_, _, h⟩ := m.setEntry_eq p e; rw [h]
@[simp] theorem Mod.setEntry_dbg (p e : Nat) : (m.setEntry p e).dbg = m.dbg := by
  obtain ⟨_, _, h⟩ := m.setEntry_eq p e; rw [h]
@[simp] theorem Mod.setEntry_nv (p e : Nat) : (m.setEntry p e).nv = m.nv := by
  obtain ⟨_, _, h⟩ := m.setEntry_eq p e; rw [h]
@[simp] theorem Mod.setEntry_nv2 (p e : Nat) : (m.setEntry p e).nv2 = m.nv2 := by
  obtain ⟨_, _, h⟩ := m.setEntry_eq p e; rw [h]
@[simp] theorem Mod.setEntry_out (p e : Nat) : (m.setEntry p e).out = m.out := by
  obtain ⟨_, _, h⟩ := m.setEntry_eq p e; rw [h]
@[simp] theorem Mod.setEntry_hop_frames (p e : Nat) : (m.setEntry p e).hop.frames = m.hop.frames := by
  obtain ⟨_, _, h⟩ := m.setEntry_eq p e; rw [h]
@[simp] theorem Mod.setEntry_hop_pwq (p e : Nat) : (m.setEntry p e).hop.pwq = m.hop.pwq := by
  obtain ⟨_, _, h⟩ := m.setEntry_eq p e; rw [h]
@[simp] theorem Mod.setEntry_hop_merge (p e : Nat) : (m.setEntry p e).hop.merge = m.hop.merge := by
  obtain ⟨_, _, h⟩ := m.setEntry_eq p e; rw [h]
@[simp] theorem Mod.setEntry_hop_mwait (p e : Nat) : (m.setEntry p e).hop.mwait = m.hop.mwait := by
  obtain ⟨_, _, h⟩ := m.setEntry_eq p e; rw [h]
@[simp] theorem Mod.setEntry_hop_access (p e : Nat) : (m.setEntry p e).hop.access = m.hop.access := by
  obtain ⟨_, _, h⟩ := m.setEntry_eq p e; rw [h]
@[simp] theorem Mod.setEntry_hop_nextAcc (p e : Nat) : (m.setEntry p e).hop.nextAcc = m.hop.nextAcc := by
  obtain ⟨_, _, h⟩ := m.setEntry_eq p e; rw [h]
@[simp] theorem Mod.setEntry_hop_poison (p e : Nat) : (m.setEntry p e).hop.poison = m.hop.poison := by
  obtain ⟨_, _, h⟩ := m.setEntry_eq p e; rw [h]
@[simp] theorem Mod.setEntry_hop_badMap (p e : Nat) : (m.setEntry p e).hop.badMap = m.hop.badMap := by
  obtain ⟨_, _, h⟩ := m.setEntry_eq p e; rw [h]
@[simp] theorem Mod.setEntry_hop_mcache (p e : Nat) : (m.setEntry p e).hop.mcache = m.hop.mcache := by
  obtain ⟨_, _, h⟩ := m.setEntry_eq p e; rw [h]
@[simp] theorem Mod.setEntry_hop_scrubAt (p e : Nat) : (m.setEntry p e).hop.scrubAt = m.hop.scrubAt := by
  obtain ⟨_, _, h⟩ := m.setEntry_eq p e; rw [h]
@[simp] theorem Mod.setEntry_hop_selfRef (p e : Nat) : (m.setEntry p e).hop.selfRef = m.hop.selfRef := by
  obtain ⟨_, _, h⟩ := m.setEntry_eq p e; rw [h]
@[simp] theorem Mod.setEntry_hop_pinLoad (p e : Nat) : (m.setEntry p e).hop.pinLoad = m.hop.pinLoad := by
  obtain ⟨_, _, h⟩ := m.setEntry_eq p e; rw [h]
@[simp] theorem Mod.setEntry_hop_pinned (p e : Nat) : (m.setEntry p e).hop.pinned = m.hop.pinned := by
  obtain ⟨_, _, h⟩ := m.setEntry_eq p e; rw [h]
@[simp] theorem Mod.setEntry_hop_pinPrev (p e : Nat) : (m.setEntry p e).hop.pinPrev = m.hop.pinPrev := by
  obtain ⟨_, _, h⟩ := m.setEntry_eq p e; rw [h]
@[simp] theorem Mod.setEntry_hop_flushQ (p e : Nat) : (m.setEntry p e).hop.flushQ = m.hop.flushQ := by
  obtain ⟨_, _, h⟩ := m.setEntry_eq p e; rw [h]

/-! ### `Mod.setMch` -/

@[simp] theorem Mod.setMch_time (i : Nat) (f : MedCh → MedCh) : (m.setMch i f).time = m.time := rfl
@[simp] theorem Mod.setMch_cfg (i : Nat) (f : MedCh → MedCh) : (m.setMch i f).cfg = m.cfg := rfl
@[simp] theorem Mod.setMch_path (i : Nat) (f : MedCh → MedCh) : (m.setMch i f).path = m.path := rfl
@[simp] theorem Mod.setMch_host (i : Nat) (f : MedCh → MedCh) : (m.setMch i f).host = m.host := rfl
@[simp] theorem Mod.setMch_hop (i : Nat) (f : MedCh → MedCh) : (m.setMch i f).hop = m.hop := rfl
@[simp] theorem Mod.setMch_upk (i : Nat) (f : MedCh → MedCh) : (m.setMch i f).upk = m.upk := rfl
@[simp] theorem Mod.setMch_fb (i : Nat) (f : MedCh → MedCh) : (m.setMch i f).fb = m.fb := rfl
@[simp] theorem Mod.setMch_per (i : Nat) (f : MedCh → MedCh) : (m.setMch i f).per = m.per := rfl
@[simp] theorem Mod.setMch_rep (i : Nat) (f : MedCh → MedCh) : (m.setMch i f).rep = m.rep := rfl
@[simp] theorem Mod.setMch_twin (i : Nat) (f : MedCh → MedCh) : (m.setMch i f).twin = m.twin := rfl
@[simp] theorem Mod.setMch_tx (i : Nat) (f : MedCh → MedCh) : (m.setMch i f).tx = m.tx := rfl
@[simp] theorem Mod.setMch_cry (i : Nat) (f : MedCh → MedCh) : (m.setMch i f).cry = m.cry := rfl
@[simp] theorem Mod.setMch_pwr (i : Nat) (f : MedCh → MedCh) : (m.setMch i f).pwr = m.pwr := rfl
@[simp] theorem Mod.setMch_th (i : Nat) (f : MedCh → MedCh) : (m.setMch i f).th = m.th := rfl
@[simp] theorem Mod.setMch_perf (i : Nat) (f : MedCh → MedCh) : (m.setMch i f).perf = m.perf := rfl
@[simp] theorem Mod.setMch_tly (i : Nat) (f : MedCh → MedCh) : (m.setMch i f).tly = m.tly := rfl
@[simp] theorem Mod.setMch_seed (i : Nat) (f : MedCh → MedCh) : (m.setMch i f).seed = m.seed := rfl
@[simp] theorem Mod.setMch_fore (i : Nat) (f : MedCh → MedCh) : (m.setMch i f).fore = m.fore := rfl
@[simp] theorem Mod.setMch_evt (i : Nat) (f : MedCh → MedCh) : (m.setMch i f).evt = m.evt := rfl
@[simp] theorem Mod.setMch_dbg (i : Nat) (f : MedCh → MedCh) : (m.setMch i f).dbg = m.dbg := rfl
@[simp] theorem Mod.setMch_nv (i : Nat) (f : MedCh → MedCh) : (m.setMch i f).nv = m.nv := rfl
@[simp] theorem Mod.setMch_nv2 (i : Nat) (f : MedCh → MedCh) : (m.setMch i f).nv2 = m.nv2 := rfl
@[simp] theorem Mod.setMch_out (i : Nat) (f : MedCh → MedCh) : (m.setMch i f).out = m.out := rfl
@[simp] theorem Mod.setMch_med_media (i : Nat) (f : MedCh → MedCh) : (m.setMch i f).med.media = m.med.media := rfl
@[simp] theorem Mod.setMch_med_dies (i : Nat) (f : MedCh → MedCh) : (m.setMch i f).med.dies = m.med.dies := rfl
@[simp] theorem Mod.setMch_med_reads (i : Nat) (f : MedCh → MedCh) : (m.setMch i f).med.reads = m.med.reads := rfl
@[simp] theorem Mod.setMch_med_rows (i : Nat) (f : MedCh → MedCh) : (m.setMch i f).med.rows = m.med.rows := rfl
@[simp] theorem Mod.setMch_med_nextId (i : Nat) (f : MedCh → MedCh) : (m.setMch i f).med.nextId = m.med.nextId := rfl
@[simp] theorem Mod.setMch_med_books (i : Nat) (f : MedCh → MedCh) : (m.setMch i f).med.books = m.med.books := rfl
@[simp] theorem Mod.setMch_med_staged (i : Nat) (f : MedCh → MedCh) : (m.setMch i f).med.staged = m.med.staged := rfl
@[simp] theorem Mod.setMch_med_jnext (i : Nat) (f : MedCh → MedCh) : (m.setMch i f).med.jnext = m.med.jnext := rfl
@[simp] theorem Mod.setMch_med_jpages (i : Nat) (f : MedCh → MedCh) : (m.setMch i f).med.jpages = m.med.jpages := rfl
@[simp] theorem Mod.setMch_med_jopen (i : Nat) (f : MedCh → MedCh) : (m.setMch i f).med.jopen = m.med.jopen := rfl
@[simp] theorem Mod.setMch_med_jdur (i : Nat) (f : MedCh → MedCh) : (m.setMch i f).med.jdur = m.med.jdur := rfl
@[simp] theorem Mod.setMch_med_ckpts (i : Nat) (f : MedCh → MedCh) : (m.setMch i f).med.ckpts = m.med.ckpts := rfl
@[simp] theorem Mod.setMch_med_ckRun (i : Nat) (f : MedCh → MedCh) : (m.setMch i f).med.ckRun = m.med.ckRun := rfl
@[simp] theorem Mod.setMch_med_ckLast (i : Nat) (f : MedCh → MedCh) : (m.setMch i f).med.ckLast = m.med.ckLast := rfl
@[simp] theorem Mod.setMch_med_moves (i : Nat) (f : MedCh → MedCh) : (m.setMch i f).med.moves = m.med.moves := rfl

/-! ### `Mod.setDie` -/

@[simp] theorem Mod.setDie_time (i : Nat) (f : Die → Die) : (m.setDie i f).time = m.time := rfl
@[simp] theorem Mod.setDie_cfg (i : Nat) (f : Die → Die) : (m.setDie i f).cfg = m.cfg := rfl
@[simp] theorem Mod.setDie_path (i : Nat) (f : Die → Die) : (m.setDie i f).path = m.path := rfl
@[simp] theorem Mod.setDie_host (i : Nat) (f : Die → Die) : (m.setDie i f).host = m.host := rfl
@[simp] theorem Mod.setDie_hop (i : Nat) (f : Die → Die) : (m.setDie i f).hop = m.hop := rfl
@[simp] theorem Mod.setDie_upk (i : Nat) (f : Die → Die) : (m.setDie i f).upk = m.upk := rfl
@[simp] theorem Mod.setDie_fb (i : Nat) (f : Die → Die) : (m.setDie i f).fb = m.fb := rfl
@[simp] theorem Mod.setDie_per (i : Nat) (f : Die → Die) : (m.setDie i f).per = m.per := rfl
@[simp] theorem Mod.setDie_rep (i : Nat) (f : Die → Die) : (m.setDie i f).rep = m.rep := rfl
@[simp] theorem Mod.setDie_twin (i : Nat) (f : Die → Die) : (m.setDie i f).twin = m.twin := rfl
@[simp] theorem Mod.setDie_tx (i : Nat) (f : Die → Die) : (m.setDie i f).tx = m.tx := rfl
@[simp] theorem Mod.setDie_cry (i : Nat) (f : Die → Die) : (m.setDie i f).cry = m.cry := rfl
@[simp] theorem Mod.setDie_pwr (i : Nat) (f : Die → Die) : (m.setDie i f).pwr = m.pwr := rfl
@[simp] theorem Mod.setDie_th (i : Nat) (f : Die → Die) : (m.setDie i f).th = m.th := rfl
@[simp] theorem Mod.setDie_perf (i : Nat) (f : Die → Die) : (m.setDie i f).perf = m.perf := rfl
@[simp] theorem Mod.setDie_tly (i : Nat) (f : Die → Die) : (m.setDie i f).tly = m.tly := rfl
@[simp] theorem Mod.setDie_seed (i : Nat) (f : Die → Die) : (m.setDie i f).seed = m.seed := rfl
@[simp] theorem Mod.setDie_fore (i : Nat) (f : Die → Die) : (m.setDie i f).fore = m.fore := rfl
@[simp] theorem Mod.setDie_evt (i : Nat) (f : Die → Die) : (m.setDie i f).evt = m.evt := rfl
@[simp] theorem Mod.setDie_dbg (i : Nat) (f : Die → Die) : (m.setDie i f).dbg = m.dbg := rfl
@[simp] theorem Mod.setDie_nv (i : Nat) (f : Die → Die) : (m.setDie i f).nv = m.nv := rfl
@[simp] theorem Mod.setDie_nv2 (i : Nat) (f : Die → Die) : (m.setDie i f).nv2 = m.nv2 := rfl
@[simp] theorem Mod.setDie_out (i : Nat) (f : Die → Die) : (m.setDie i f).out = m.out := rfl
@[simp] theorem Mod.setDie_med_media (i : Nat) (f : Die → Die) : (m.setDie i f).med.media = m.med.media := rfl
@[simp] theorem Mod.setDie_med_chans (i : Nat) (f : Die → Die) : (m.setDie i f).med.chans = m.med.chans := rfl
@[simp] theorem Mod.setDie_med_reads (i : Nat) (f : Die → Die) : (m.setDie i f).med.reads = m.med.reads := rfl
@[simp] theorem Mod.setDie_med_rows (i : Nat) (f : Die → Die) : (m.setDie i f).med.rows = m.med.rows := rfl
@[simp] theorem Mod.setDie_med_nextId (i : Nat) (f : Die → Die) : (m.setDie i f).med.nextId = m.med.nextId := rfl
@[simp] theorem Mod.setDie_med_books (i : Nat) (f : Die → Die) : (m.setDie i f).med.books = m.med.books := rfl
@[simp] theorem Mod.setDie_med_staged (i : Nat) (f : Die → Die) : (m.setDie i f).med.staged = m.med.staged := rfl
@[simp] theorem Mod.setDie_med_jnext (i : Nat) (f : Die → Die) : (m.setDie i f).med.jnext = m.med.jnext := rfl
@[simp] theorem Mod.setDie_med_jpages (i : Nat) (f : Die → Die) : (m.setDie i f).med.jpages = m.med.jpages := rfl
@[simp] theorem Mod.setDie_med_jopen (i : Nat) (f : Die → Die) : (m.setDie i f).med.jopen = m.med.jopen := rfl
@[simp] theorem Mod.setDie_med_jdur (i : Nat) (f : Die → Die) : (m.setDie i f).med.jdur = m.med.jdur := rfl
@[simp] theorem Mod.setDie_med_ckpts (i : Nat) (f : Die → Die) : (m.setDie i f).med.ckpts = m.med.ckpts := rfl
@[simp] theorem Mod.setDie_med_ckRun (i : Nat) (f : Die → Die) : (m.setDie i f).med.ckRun = m.med.ckRun := rfl
@[simp] theorem Mod.setDie_med_ckLast (i : Nat) (f : Die → Die) : (m.setDie i f).med.ckLast = m.med.ckLast := rfl
@[simp] theorem Mod.setDie_med_moves (i : Nat) (f : Die → Die) : (m.setDie i f).med.moves = m.med.moves := rfl

/-! ### `Mod.setBlk` -/

@[simp] theorem Mod.setBlk_time (i : Nat) (f : Blk → Blk) : (m.setBlk i f).time = m.time := rfl
@[simp] theorem Mod.setBlk_cfg (i : Nat) (f : Blk → Blk) : (m.setBlk i f).cfg = m.cfg := rfl
@[simp] theorem Mod.setBlk_path (i : Nat) (f : Blk → Blk) : (m.setBlk i f).path = m.path := rfl
@[simp] theorem Mod.setBlk_host (i : Nat) (f : Blk → Blk) : (m.setBlk i f).host = m.host := rfl
@[simp] theorem Mod.setBlk_hop (i : Nat) (f : Blk → Blk) : (m.setBlk i f).hop = m.hop := rfl
@[simp] theorem Mod.setBlk_med (i : Nat) (f : Blk → Blk) : (m.setBlk i f).med = m.med := rfl
@[simp] theorem Mod.setBlk_fb (i : Nat) (f : Blk → Blk) : (m.setBlk i f).fb = m.fb := rfl
@[simp] theorem Mod.setBlk_per (i : Nat) (f : Blk → Blk) : (m.setBlk i f).per = m.per := rfl
@[simp] theorem Mod.setBlk_rep (i : Nat) (f : Blk → Blk) : (m.setBlk i f).rep = m.rep := rfl
@[simp] theorem Mod.setBlk_twin (i : Nat) (f : Blk → Blk) : (m.setBlk i f).twin = m.twin := rfl
@[simp] theorem Mod.setBlk_tx (i : Nat) (f : Blk → Blk) : (m.setBlk i f).tx = m.tx := rfl
@[simp] theorem Mod.setBlk_cry (i : Nat) (f : Blk → Blk) : (m.setBlk i f).cry = m.cry := rfl
@[simp] theorem Mod.setBlk_pwr (i : Nat) (f : Blk → Blk) : (m.setBlk i f).pwr = m.pwr := rfl
@[simp] theorem Mod.setBlk_th (i : Nat) (f : Blk → Blk) : (m.setBlk i f).th = m.th := rfl
@[simp] theorem Mod.setBlk_perf (i : Nat) (f : Blk → Blk) : (m.setBlk i f).perf = m.perf := rfl
@[simp] theorem Mod.setBlk_tly (i : Nat) (f : Blk → Blk) : (m.setBlk i f).tly = m.tly := rfl
@[simp] theorem Mod.setBlk_seed (i : Nat) (f : Blk → Blk) : (m.setBlk i f).seed = m.seed := rfl
@[simp] theorem Mod.setBlk_fore (i : Nat) (f : Blk → Blk) : (m.setBlk i f).fore = m.fore := rfl
@[simp] theorem Mod.setBlk_evt (i : Nat) (f : Blk → Blk) : (m.setBlk i f).evt = m.evt := rfl
@[simp] theorem Mod.setBlk_dbg (i : Nat) (f : Blk → Blk) : (m.setBlk i f).dbg = m.dbg := rfl
@[simp] theorem Mod.setBlk_nv (i : Nat) (f : Blk → Blk) : (m.setBlk i f).nv = m.nv := rfl
@[simp] theorem Mod.setBlk_nv2 (i : Nat) (f : Blk → Blk) : (m.setBlk i f).nv2 = m.nv2 := rfl
@[simp] theorem Mod.setBlk_out (i : Nat) (f : Blk → Blk) : (m.setBlk i f).out = m.out := rfl
@[simp] theorem Mod.setBlk_upk_retSg (i : Nat) (f : Blk → Blk) : (m.setBlk i f).upk.retSg = m.upk.retSg := rfl
@[simp] theorem Mod.setBlk_upk_rclRunA (i : Nat) (f : Blk → Blk) : (m.setBlk i f).upk.rclRunA = m.upk.rclRunA := rfl
@[simp] theorem Mod.setBlk_upk_rclRunB (i : Nat) (f : Blk → Blk) : (m.setBlk i f).upk.rclRunB = m.upk.rclRunB := rfl
@[simp] theorem Mod.setBlk_upk_rotRun (i : Nat) (f : Blk → Blk) : (m.setBlk i f).upk.rotRun = m.upk.rotRun := rfl
@[simp] theorem Mod.setBlk_upk_warned (i : Nat) (f : Blk → Blk) : (m.setBlk i f).upk.warned = m.upk.warned := rfl
@[simp] theorem Mod.setBlk_upk_rmostly (i : Nat) (f : Blk → Blk) : (m.setBlk i f).upk.rmostly = m.upk.rmostly := rfl
@[simp] theorem Mod.setBlk_upk_ronly (i : Nat) (f : Blk → Blk) : (m.setBlk i f).upk.ronly = m.upk.ronly := rfl
@[simp] theorem Mod.setBlk_upk_cause (i : Nat) (f : Blk → Blk) : (m.setBlk i f).upk.cause = m.upk.cause := rfl
@[simp] theorem Mod.setBlk_upk_level (i : Nat) (f : Blk → Blk) : (m.setBlk i f).upk.level = m.upk.level := rfl
@[simp] theorem Mod.setBlk_upk_rclMv (i : Nat) (f : Blk → Blk) : (m.setBlk i f).upk.rclMv = m.upk.rclMv := rfl
@[simp] theorem Mod.setBlk_upk_rotMv (i : Nat) (f : Blk → Blk) : (m.setBlk i f).upk.rotMv = m.upk.rotMv := rfl
@[simp] theorem Mod.setBlk_upk_rclDrop (i : Nat) (f : Blk → Blk) : (m.setBlk i f).upk.rclDrop = m.upk.rclDrop := rfl
@[simp] theorem Mod.setBlk_upk_noIdx (i : Nat) (f : Blk → Blk) : (m.setBlk i f).upk.noIdx = m.upk.noIdx := rfl
@[simp] theorem Mod.setBlk_upk_dcmd (i : Nat) (f : Blk → Blk) : (m.setBlk i f).upk.dcmd = m.upk.dcmd := rfl
@[simp] theorem Mod.setBlk_upk_wamp (i : Nat) (f : Blk → Blk) : (m.setBlk i f).upk.wamp = m.upk.wamp := rfl
@[simp] theorem Mod.setBlk_upk_losses (i : Nat) (f : Blk → Blk) : (m.setBlk i f).upk.losses = m.upk.losses := rfl
@[simp] theorem Mod.setBlk_upk_remap (i : Nat) (f : Blk → Blk) : (m.setBlk i f).upk.remap = m.upk.remap := rfl

/-! ### `Mod.setMaster` -/

@[simp] theorem Mod.setMaster_time (i : Nat) (f : Master → Master) : (m.setMaster i f).time = m.time := rfl
@[simp] theorem Mod.setMaster_cfg (i : Nat) (f : Master → Master) : (m.setMaster i f).cfg = m.cfg := rfl
@[simp] theorem Mod.setMaster_host (i : Nat) (f : Master → Master) : (m.setMaster i f).host = m.host := rfl
@[simp] theorem Mod.setMaster_hop (i : Nat) (f : Master → Master) : (m.setMaster i f).hop = m.hop := rfl
@[simp] theorem Mod.setMaster_med (i : Nat) (f : Master → Master) : (m.setMaster i f).med = m.med := rfl
@[simp] theorem Mod.setMaster_upk (i : Nat) (f : Master → Master) : (m.setMaster i f).upk = m.upk := rfl
@[simp] theorem Mod.setMaster_fb (i : Nat) (f : Master → Master) : (m.setMaster i f).fb = m.fb := rfl
@[simp] theorem Mod.setMaster_per (i : Nat) (f : Master → Master) : (m.setMaster i f).per = m.per := rfl
@[simp] theorem Mod.setMaster_rep (i : Nat) (f : Master → Master) : (m.setMaster i f).rep = m.rep := rfl
@[simp] theorem Mod.setMaster_twin (i : Nat) (f : Master → Master) : (m.setMaster i f).twin = m.twin := rfl
@[simp] theorem Mod.setMaster_tx (i : Nat) (f : Master → Master) : (m.setMaster i f).tx = m.tx := rfl
@[simp] theorem Mod.setMaster_cry (i : Nat) (f : Master → Master) : (m.setMaster i f).cry = m.cry := rfl
@[simp] theorem Mod.setMaster_pwr (i : Nat) (f : Master → Master) : (m.setMaster i f).pwr = m.pwr := rfl
@[simp] theorem Mod.setMaster_th (i : Nat) (f : Master → Master) : (m.setMaster i f).th = m.th := rfl
@[simp] theorem Mod.setMaster_perf (i : Nat) (f : Master → Master) : (m.setMaster i f).perf = m.perf := rfl
@[simp] theorem Mod.setMaster_tly (i : Nat) (f : Master → Master) : (m.setMaster i f).tly = m.tly := rfl
@[simp] theorem Mod.setMaster_seed (i : Nat) (f : Master → Master) : (m.setMaster i f).seed = m.seed := rfl
@[simp] theorem Mod.setMaster_fore (i : Nat) (f : Master → Master) : (m.setMaster i f).fore = m.fore := rfl
@[simp] theorem Mod.setMaster_evt (i : Nat) (f : Master → Master) : (m.setMaster i f).evt = m.evt := rfl
@[simp] theorem Mod.setMaster_dbg (i : Nat) (f : Master → Master) : (m.setMaster i f).dbg = m.dbg := rfl
@[simp] theorem Mod.setMaster_nv (i : Nat) (f : Master → Master) : (m.setMaster i f).nv = m.nv := rfl
@[simp] theorem Mod.setMaster_nv2 (i : Nat) (f : Master → Master) : (m.setMaster i f).nv2 = m.nv2 := rfl
@[simp] theorem Mod.setMaster_out (i : Nat) (f : Master → Master) : (m.setMaster i f).out = m.out := rfl
@[simp] theorem Mod.setMaster_path_queues (i : Nat) (f : Master → Master) : (m.setMaster i f).path.queues = m.path.queues := rfl
@[simp] theorem Mod.setMaster_path_badacc (i : Nat) (f : Master → Master) : (m.setMaster i f).path.badacc = m.path.badacc := rfl
@[simp] theorem Mod.setMaster_path_aonLog (i : Nat) (f : Master → Master) : (m.setMaster i f).path.aonLog = m.path.aonLog := rfl
@[simp] theorem Mod.setMaster_path_i3cAddr (i : Nat) (f : Master → Master) : (m.setMaster i f).path.i3cAddr = m.path.i3cAddr := rfl
@[simp] theorem Mod.setMaster_path_ctlPort (i : Nat) (f : Master → Master) : (m.setMaster i f).path.ctlPort = m.path.ctlPort := rfl
@[simp] theorem Mod.setMaster_path_ctlNext (i : Nat) (f : Master → Master) : (m.setMaster i f).path.ctlNext = m.path.ctlNext := rfl
@[simp] theorem Mod.setMaster_path_slotId (i : Nat) (f : Master → Master) : (m.setMaster i f).path.slotId = m.path.slotId := rfl
@[simp] theorem Mod.setMaster_path_noChange (i : Nat) (f : Master → Master) : (m.setMaster i f).path.noChange = m.path.noChange := rfl

/-! ### `Mod.setPathQ` -/

@[simp] theorem Mod.setPathQ_time (i : Nat) (f : PathQ → PathQ) : (m.setPathQ i f).time = m.time := rfl
@[simp] theorem Mod.setPathQ_cfg (i : Nat) (f : PathQ → PathQ) : (m.setPathQ i f).cfg = m.cfg := rfl
@[simp] theorem Mod.setPathQ_host (i : Nat) (f : PathQ → PathQ) : (m.setPathQ i f).host = m.host := rfl
@[simp] theorem Mod.setPathQ_hop (i : Nat) (f : PathQ → PathQ) : (m.setPathQ i f).hop = m.hop := rfl
@[simp] theorem Mod.setPathQ_med (i : Nat) (f : PathQ → PathQ) : (m.setPathQ i f).med = m.med := rfl
@[simp] theorem Mod.setPathQ_upk (i : Nat) (f : PathQ → PathQ) : (m.setPathQ i f).upk = m.upk := rfl
@[simp] theorem Mod.setPathQ_fb (i : Nat) (f : PathQ → PathQ) : (m.setPathQ i f).fb = m.fb := rfl
@[simp] theorem Mod.setPathQ_per (i : Nat) (f : PathQ → PathQ) : (m.setPathQ i f).per = m.per := rfl
@[simp] theorem Mod.setPathQ_rep (i : Nat) (f : PathQ → PathQ) : (m.setPathQ i f).rep = m.rep := rfl
@[simp] theorem Mod.setPathQ_twin (i : Nat) (f : PathQ → PathQ) : (m.setPathQ i f).twin = m.twin := rfl
@[simp] theorem Mod.setPathQ_tx (i : Nat) (f : PathQ → PathQ) : (m.setPathQ i f).tx = m.tx := rfl
@[simp] theorem Mod.setPathQ_cry (i : Nat) (f : PathQ → PathQ) : (m.setPathQ i f).cry = m.cry := rfl
@[simp] theorem Mod.setPathQ_pwr (i : Nat) (f : PathQ → PathQ) : (m.setPathQ i f).pwr = m.pwr := rfl
@[simp] theorem Mod.setPathQ_th (i : Nat) (f : PathQ → PathQ) : (m.setPathQ i f).th = m.th := rfl
@[simp] theorem Mod.setPathQ_perf (i : Nat) (f : PathQ → PathQ) : (m.setPathQ i f).perf = m.perf := rfl
@[simp] theorem Mod.setPathQ_tly (i : Nat) (f : PathQ → PathQ) : (m.setPathQ i f).tly = m.tly := rfl
@[simp] theorem Mod.setPathQ_seed (i : Nat) (f : PathQ → PathQ) : (m.setPathQ i f).seed = m.seed := rfl
@[simp] theorem Mod.setPathQ_fore (i : Nat) (f : PathQ → PathQ) : (m.setPathQ i f).fore = m.fore := rfl
@[simp] theorem Mod.setPathQ_evt (i : Nat) (f : PathQ → PathQ) : (m.setPathQ i f).evt = m.evt := rfl
@[simp] theorem Mod.setPathQ_dbg (i : Nat) (f : PathQ → PathQ) : (m.setPathQ i f).dbg = m.dbg := rfl
@[simp] theorem Mod.setPathQ_nv (i : Nat) (f : PathQ → PathQ) : (m.setPathQ i f).nv = m.nv := rfl
@[simp] theorem Mod.setPathQ_nv2 (i : Nat) (f : PathQ → PathQ) : (m.setPathQ i f).nv2 = m.nv2 := rfl
@[simp] theorem Mod.setPathQ_out (i : Nat) (f : PathQ → PathQ) : (m.setPathQ i f).out = m.out := rfl
@[simp] theorem Mod.setPathQ_path_masters (i : Nat) (f : PathQ → PathQ) : (m.setPathQ i f).path.masters = m.path.masters := rfl
@[simp] theorem Mod.setPathQ_path_badacc (i : Nat) (f : PathQ → PathQ) : (m.setPathQ i f).path.badacc = m.path.badacc := rfl
@[simp] theorem Mod.setPathQ_path_aonLog (i : Nat) (f : PathQ → PathQ) : (m.setPathQ i f).path.aonLog = m.path.aonLog := rfl
@[simp] theorem Mod.setPathQ_path_i3cAddr (i : Nat) (f : PathQ → PathQ) : (m.setPathQ i f).path.i3cAddr = m.path.i3cAddr := rfl
@[simp] theorem Mod.setPathQ_path_ctlPort (i : Nat) (f : PathQ → PathQ) : (m.setPathQ i f).path.ctlPort = m.path.ctlPort := rfl
@[simp] theorem Mod.setPathQ_path_ctlNext (i : Nat) (f : PathQ → PathQ) : (m.setPathQ i f).path.ctlNext = m.path.ctlNext := rfl
@[simp] theorem Mod.setPathQ_path_slotId (i : Nat) (f : PathQ → PathQ) : (m.setPathQ i f).path.slotId = m.path.slotId := rfl
@[simp] theorem Mod.setPathQ_path_noChange (i : Nat) (f : PathQ → PathQ) : (m.setPathQ i f).path.noChange = m.path.noChange := rfl

/-! ### `Mod.setFm` -/

@[simp] theorem Mod.setFm_time (i : Nat) (f : Foreman → Foreman) : (m.setFm i f).time = m.time := rfl
@[simp] theorem Mod.setFm_cfg (i : Nat) (f : Foreman → Foreman) : (m.setFm i f).cfg = m.cfg := rfl
@[simp] theorem Mod.setFm_path (i : Nat) (f : Foreman → Foreman) : (m.setFm i f).path = m.path := rfl
@[simp] theorem Mod.setFm_host (i : Nat) (f : Foreman → Foreman) : (m.setFm i f).host = m.host := rfl
@[simp] theorem Mod.setFm_hop (i : Nat) (f : Foreman → Foreman) : (m.setFm i f).hop = m.hop := rfl
@[simp] theorem Mod.setFm_med (i : Nat) (f : Foreman → Foreman) : (m.setFm i f).med = m.med := rfl
@[simp] theorem Mod.setFm_upk (i : Nat) (f : Foreman → Foreman) : (m.setFm i f).upk = m.upk := rfl
@[simp] theorem Mod.setFm_fb (i : Nat) (f : Foreman → Foreman) : (m.setFm i f).fb = m.fb := rfl
@[simp] theorem Mod.setFm_per (i : Nat) (f : Foreman → Foreman) : (m.setFm i f).per = m.per := rfl
@[simp] theorem Mod.setFm_rep (i : Nat) (f : Foreman → Foreman) : (m.setFm i f).rep = m.rep := rfl
@[simp] theorem Mod.setFm_twin (i : Nat) (f : Foreman → Foreman) : (m.setFm i f).twin = m.twin := rfl
@[simp] theorem Mod.setFm_tx (i : Nat) (f : Foreman → Foreman) : (m.setFm i f).tx = m.tx := rfl
@[simp] theorem Mod.setFm_cry (i : Nat) (f : Foreman → Foreman) : (m.setFm i f).cry = m.cry := rfl
@[simp] theorem Mod.setFm_pwr (i : Nat) (f : Foreman → Foreman) : (m.setFm i f).pwr = m.pwr := rfl
@[simp] theorem Mod.setFm_th (i : Nat) (f : Foreman → Foreman) : (m.setFm i f).th = m.th := rfl
@[simp] theorem Mod.setFm_perf (i : Nat) (f : Foreman → Foreman) : (m.setFm i f).perf = m.perf := rfl
@[simp] theorem Mod.setFm_tly (i : Nat) (f : Foreman → Foreman) : (m.setFm i f).tly = m.tly := rfl
@[simp] theorem Mod.setFm_seed (i : Nat) (f : Foreman → Foreman) : (m.setFm i f).seed = m.seed := rfl
@[simp] theorem Mod.setFm_evt (i : Nat) (f : Foreman → Foreman) : (m.setFm i f).evt = m.evt := rfl
@[simp] theorem Mod.setFm_dbg (i : Nat) (f : Foreman → Foreman) : (m.setFm i f).dbg = m.dbg := rfl
@[simp] theorem Mod.setFm_nv (i : Nat) (f : Foreman → Foreman) : (m.setFm i f).nv = m.nv := rfl
@[simp] theorem Mod.setFm_nv2 (i : Nat) (f : Foreman → Foreman) : (m.setFm i f).nv2 = m.nv2 := rfl
@[simp] theorem Mod.setFm_out (i : Nat) (f : Foreman → Foreman) : (m.setFm i f).out = m.out := rfl
@[simp] theorem Mod.setFm_fore_qs (i : Nat) (f : Foreman → Foreman) : (m.setFm i f).fore.qs = m.fore.qs := rfl
@[simp] theorem Mod.setFm_fore_store (i : Nat) (f : Foreman → Foreman) : (m.setFm i f).fore.store = m.fore.store := rfl
@[simp] theorem Mod.setFm_fore_hooks (i : Nat) (f : Foreman → Foreman) : (m.setFm i f).fore.hooks = m.fore.hooks := rfl
@[simp] theorem Mod.setFm_fore_commitQ (i : Nat) (f : Foreman → Foreman) : (m.setFm i f).fore.commitQ = m.fore.commitQ := rfl
@[simp] theorem Mod.setFm_fore_staged (i : Nat) (f : Foreman → Foreman) : (m.setFm i f).fore.staged = m.fore.staged := rfl
@[simp] theorem Mod.setFm_fore_txnum (i : Nat) (f : Foreman → Foreman) : (m.setFm i f).fore.txnum = m.fore.txnum := rfl
@[simp] theorem Mod.setFm_fore_txapp (i : Nat) (f : Foreman → Foreman) : (m.setFm i f).fore.txapp = m.fore.txapp := rfl
@[simp] theorem Mod.setFm_fore_txfail (i : Nat) (f : Foreman → Foreman) : (m.setFm i f).fore.txfail = m.fore.txfail := rfl
@[simp] theorem Mod.setFm_fore_lastSrc (i : Nat) (f : Foreman → Foreman) : (m.setFm i f).fore.lastSrc = m.fore.lastSrc := rfl
@[simp] theorem Mod.setFm_fore_lastSub (i : Nat) (f : Foreman → Foreman) : (m.setFm i f).fore.lastSub = m.fore.lastSub := rfl
@[simp] theorem Mod.setFm_fore_lastCode (i : Nat) (f : Foreman → Foreman) : (m.setFm i f).fore.lastCode = m.fore.lastCode := rfl
@[simp] theorem Mod.setFm_fore_lastIdx (i : Nat) (f : Foreman → Foreman) : (m.setFm i f).fore.lastIdx = m.fore.lastIdx := rfl
@[simp] theorem Mod.setFm_fore_hkovr (i : Nat) (f : Foreman → Foreman) : (m.setFm i f).fore.hkovr = m.fore.hkovr := rfl
@[simp] theorem Mod.setFm_fore_psrej (i : Nat) (f : Foreman → Foreman) : (m.setFm i f).fore.psrej = m.fore.psrej := rfl
@[simp] theorem Mod.setFm_fore_aborts (i : Nat) (f : Foreman → Foreman) : (m.setFm i f).fore.aborts = m.fore.aborts := rfl
@[simp] theorem Mod.setFm_fore_rr (i : Nat) (f : Foreman → Foreman) : (m.setFm i f).fore.rr = m.fore.rr := rfl
@[simp] theorem Mod.setFm_fore_ready (i : Nat) (f : Foreman → Foreman) : (m.setFm i f).fore.ready = m.fore.ready := rfl

/-! ### `Mod.setQueue` -/

@[simp] theorem Mod.setQueue_time (i : Nat) (f : Queue → Queue) : (m.setQueue i f).time = m.time := rfl
@[simp] theorem Mod.setQueue_cfg (i : Nat) (f : Queue → Queue) : (m.setQueue i f).cfg = m.cfg := rfl
@[simp] theorem Mod.setQueue_path (i : Nat) (f : Queue → Queue) : (m.setQueue i f).path = m.path := rfl
@[simp] theorem Mod.setQueue_host (i : Nat) (f : Queue → Queue) : (m.setQueue i f).host = m.host := rfl
@[simp] theorem Mod.setQueue_hop (i : Nat) (f : Queue → Queue) : (m.setQueue i f).hop = m.hop := rfl
@[simp] theorem Mod.setQueue_med (i : Nat) (f : Queue → Queue) : (m.setQueue i f).med = m.med := rfl
@[simp] theorem Mod.setQueue_upk (i : Nat) (f : Queue → Queue) : (m.setQueue i f).upk = m.upk := rfl
@[simp] theorem Mod.setQueue_fb (i : Nat) (f : Queue → Queue) : (m.setQueue i f).fb = m.fb := rfl
@[simp] theorem Mod.setQueue_per (i : Nat) (f : Queue → Queue) : (m.setQueue i f).per = m.per := rfl
@[simp] theorem Mod.setQueue_rep (i : Nat) (f : Queue → Queue) : (m.setQueue i f).rep = m.rep := rfl
@[simp] theorem Mod.setQueue_twin (i : Nat) (f : Queue → Queue) : (m.setQueue i f).twin = m.twin := rfl
@[simp] theorem Mod.setQueue_tx (i : Nat) (f : Queue → Queue) : (m.setQueue i f).tx = m.tx := rfl
@[simp] theorem Mod.setQueue_cry (i : Nat) (f : Queue → Queue) : (m.setQueue i f).cry = m.cry := rfl
@[simp] theorem Mod.setQueue_pwr (i : Nat) (f : Queue → Queue) : (m.setQueue i f).pwr = m.pwr := rfl
@[simp] theorem Mod.setQueue_th (i : Nat) (f : Queue → Queue) : (m.setQueue i f).th = m.th := rfl
@[simp] theorem Mod.setQueue_perf (i : Nat) (f : Queue → Queue) : (m.setQueue i f).perf = m.perf := rfl
@[simp] theorem Mod.setQueue_tly (i : Nat) (f : Queue → Queue) : (m.setQueue i f).tly = m.tly := rfl
@[simp] theorem Mod.setQueue_seed (i : Nat) (f : Queue → Queue) : (m.setQueue i f).seed = m.seed := rfl
@[simp] theorem Mod.setQueue_evt (i : Nat) (f : Queue → Queue) : (m.setQueue i f).evt = m.evt := rfl
@[simp] theorem Mod.setQueue_dbg (i : Nat) (f : Queue → Queue) : (m.setQueue i f).dbg = m.dbg := rfl
@[simp] theorem Mod.setQueue_nv (i : Nat) (f : Queue → Queue) : (m.setQueue i f).nv = m.nv := rfl
@[simp] theorem Mod.setQueue_nv2 (i : Nat) (f : Queue → Queue) : (m.setQueue i f).nv2 = m.nv2 := rfl
@[simp] theorem Mod.setQueue_out (i : Nat) (f : Queue → Queue) : (m.setQueue i f).out = m.out := rfl
@[simp] theorem Mod.setQueue_fore_fm (i : Nat) (f : Queue → Queue) : (m.setQueue i f).fore.fm = m.fore.fm := rfl
@[simp] theorem Mod.setQueue_fore_store (i : Nat) (f : Queue → Queue) : (m.setQueue i f).fore.store = m.fore.store := rfl
@[simp] theorem Mod.setQueue_fore_hooks (i : Nat) (f : Queue → Queue) : (m.setQueue i f).fore.hooks = m.fore.hooks := rfl
@[simp] theorem Mod.setQueue_fore_commitQ (i : Nat) (f : Queue → Queue) : (m.setQueue i f).fore.commitQ = m.fore.commitQ := rfl
@[simp] theorem Mod.setQueue_fore_staged (i : Nat) (f : Queue → Queue) : (m.setQueue i f).fore.staged = m.fore.staged := rfl
@[simp] theorem Mod.setQueue_fore_txnum (i : Nat) (f : Queue → Queue) : (m.setQueue i f).fore.txnum = m.fore.txnum := rfl
@[simp] theorem Mod.setQueue_fore_txapp (i : Nat) (f : Queue → Queue) : (m.setQueue i f).fore.txapp = m.fore.txapp := rfl
@[simp] theorem Mod.setQueue_fore_txfail (i : Nat) (f : Queue → Queue) : (m.setQueue i f).fore.txfail = m.fore.txfail := rfl
@[simp] theorem Mod.setQueue_fore_lastSrc (i : Nat) (f : Queue → Queue) : (m.setQueue i f).fore.lastSrc = m.fore.lastSrc := rfl
@[simp] theorem Mod.setQueue_fore_lastSub (i : Nat) (f : Queue → Queue) : (m.setQueue i f).fore.lastSub = m.fore.lastSub := rfl
@[simp] theorem Mod.setQueue_fore_lastCode (i : Nat) (f : Queue → Queue) : (m.setQueue i f).fore.lastCode = m.fore.lastCode := rfl
@[simp] theorem Mod.setQueue_fore_lastIdx (i : Nat) (f : Queue → Queue) : (m.setQueue i f).fore.lastIdx = m.fore.lastIdx := rfl
@[simp] theorem Mod.setQueue_fore_hkovr (i : Nat) (f : Queue → Queue) : (m.setQueue i f).fore.hkovr = m.fore.hkovr := rfl
@[simp] theorem Mod.setQueue_fore_psrej (i : Nat) (f : Queue → Queue) : (m.setQueue i f).fore.psrej = m.fore.psrej := rfl
@[simp] theorem Mod.setQueue_fore_aborts (i : Nat) (f : Queue → Queue) : (m.setQueue i f).fore.aborts = m.fore.aborts := rfl
@[simp] theorem Mod.setQueue_fore_rr (i : Nat) (f : Queue → Queue) : (m.setQueue i f).fore.rr = m.fore.rr := rfl
@[simp] theorem Mod.setQueue_fore_ready (i : Nat) (f : Queue → Queue) : (m.setQueue i f).fore.ready = m.fore.ready := rfl

/-! ### `Mod.setHook` -/

@[simp] theorem Mod.setHook_time (i : Nat) (f : Hook → Hook) : (m.setHook i f).time = m.time := rfl
@[simp] theorem Mod.setHook_cfg (i : Nat) (f : Hook → Hook) : (m.setHook i f).cfg = m.cfg := rfl
@[simp] theorem Mod.setHook_path (i : Nat) (f : Hook → Hook) : (m.setHook i f).path = m.path := rfl
@[simp] theorem Mod.setHook_host (i : Nat) (f : Hook → Hook) : (m.setHook i f).host = m.host := rfl
@[simp] theorem Mod.setHook_hop (i : Nat) (f : Hook → Hook) : (m.setHook i f).hop = m.hop := rfl
@[simp] theorem Mod.setHook_med (i : Nat) (f : Hook → Hook) : (m.setHook i f).med = m.med := rfl
@[simp] theorem Mod.setHook_upk (i : Nat) (f : Hook → Hook) : (m.setHook i f).upk = m.upk := rfl
@[simp] theorem Mod.setHook_fb (i : Nat) (f : Hook → Hook) : (m.setHook i f).fb = m.fb := rfl
@[simp] theorem Mod.setHook_per (i : Nat) (f : Hook → Hook) : (m.setHook i f).per = m.per := rfl
@[simp] theorem Mod.setHook_rep (i : Nat) (f : Hook → Hook) : (m.setHook i f).rep = m.rep := rfl
@[simp] theorem Mod.setHook_twin (i : Nat) (f : Hook → Hook) : (m.setHook i f).twin = m.twin := rfl
@[simp] theorem Mod.setHook_tx (i : Nat) (f : Hook → Hook) : (m.setHook i f).tx = m.tx := rfl
@[simp] theorem Mod.setHook_cry (i : Nat) (f : Hook → Hook) : (m.setHook i f).cry = m.cry := rfl
@[simp] theorem Mod.setHook_pwr (i : Nat) (f : Hook → Hook) : (m.setHook i f).pwr = m.pwr := rfl
@[simp] theorem Mod.setHook_th (i : Nat) (f : Hook → Hook) : (m.setHook i f).th = m.th := rfl
@[simp] theorem Mod.setHook_perf (i : Nat) (f : Hook → Hook) : (m.setHook i f).perf = m.perf := rfl
@[simp] theorem Mod.setHook_tly (i : Nat) (f : Hook → Hook) : (m.setHook i f).tly = m.tly := rfl
@[simp] theorem Mod.setHook_seed (i : Nat) (f : Hook → Hook) : (m.setHook i f).seed = m.seed := rfl
@[simp] theorem Mod.setHook_evt (i : Nat) (f : Hook → Hook) : (m.setHook i f).evt = m.evt := rfl
@[simp] theorem Mod.setHook_dbg (i : Nat) (f : Hook → Hook) : (m.setHook i f).dbg = m.dbg := rfl
@[simp] theorem Mod.setHook_nv (i : Nat) (f : Hook → Hook) : (m.setHook i f).nv = m.nv := rfl
@[simp] theorem Mod.setHook_nv2 (i : Nat) (f : Hook → Hook) : (m.setHook i f).nv2 = m.nv2 := rfl
@[simp] theorem Mod.setHook_out (i : Nat) (f : Hook → Hook) : (m.setHook i f).out = m.out := rfl
@[simp] theorem Mod.setHook_fore_fm (i : Nat) (f : Hook → Hook) : (m.setHook i f).fore.fm = m.fore.fm := rfl
@[simp] theorem Mod.setHook_fore_qs (i : Nat) (f : Hook → Hook) : (m.setHook i f).fore.qs = m.fore.qs := rfl
@[simp] theorem Mod.setHook_fore_store (i : Nat) (f : Hook → Hook) : (m.setHook i f).fore.store = m.fore.store := rfl
@[simp] theorem Mod.setHook_fore_commitQ (i : Nat) (f : Hook → Hook) : (m.setHook i f).fore.commitQ = m.fore.commitQ := rfl
@[simp] theorem Mod.setHook_fore_staged (i : Nat) (f : Hook → Hook) : (m.setHook i f).fore.staged = m.fore.staged := rfl
@[simp] theorem Mod.setHook_fore_txnum (i : Nat) (f : Hook → Hook) : (m.setHook i f).fore.txnum = m.fore.txnum := rfl
@[simp] theorem Mod.setHook_fore_txapp (i : Nat) (f : Hook → Hook) : (m.setHook i f).fore.txapp = m.fore.txapp := rfl
@[simp] theorem Mod.setHook_fore_txfail (i : Nat) (f : Hook → Hook) : (m.setHook i f).fore.txfail = m.fore.txfail := rfl
@[simp] theorem Mod.setHook_fore_lastSrc (i : Nat) (f : Hook → Hook) : (m.setHook i f).fore.lastSrc = m.fore.lastSrc := rfl
@[simp] theorem Mod.setHook_fore_lastSub (i : Nat) (f : Hook → Hook) : (m.setHook i f).fore.lastSub = m.fore.lastSub := rfl
@[simp] theorem Mod.setHook_fore_lastCode (i : Nat) (f : Hook → Hook) : (m.setHook i f).fore.lastCode = m.fore.lastCode := rfl
@[simp] theorem Mod.setHook_fore_lastIdx (i : Nat) (f : Hook → Hook) : (m.setHook i f).fore.lastIdx = m.fore.lastIdx := rfl
@[simp] theorem Mod.setHook_fore_hkovr (i : Nat) (f : Hook → Hook) : (m.setHook i f).fore.hkovr = m.fore.hkovr := rfl
@[simp] theorem Mod.setHook_fore_psrej (i : Nat) (f : Hook → Hook) : (m.setHook i f).fore.psrej = m.fore.psrej := rfl
@[simp] theorem Mod.setHook_fore_aborts (i : Nat) (f : Hook → Hook) : (m.setHook i f).fore.aborts = m.fore.aborts := rfl
@[simp] theorem Mod.setHook_fore_rr (i : Nat) (f : Hook → Hook) : (m.setHook i f).fore.rr = m.fore.rr := rfl
@[simp] theorem Mod.setHook_fore_ready (i : Nat) (f : Hook → Hook) : (m.setHook i f).fore.ready = m.fore.ready := rfl

/-! ### `Mod.setSrc` -/

@[simp] theorem Mod.setSrc_time (i : Nat) (f : Src → Src) : (m.setSrc i f).time = m.time := rfl
@[simp] theorem Mod.setSrc_cfg (i : Nat) (f : Src → Src) : (m.setSrc i f).cfg = m.cfg := rfl
@[simp] theorem Mod.setSrc_path (i : Nat) (f : Src → Src) : (m.setSrc i f).path = m.path := rfl
@[simp] theorem Mod.setSrc_host (i : Nat) (f : Src → Src) : (m.setSrc i f).host = m.host := rfl
@[simp] theorem Mod.setSrc_hop (i : Nat) (f : Src → Src) : (m.setSrc i f).hop = m.hop := rfl
@[simp] theorem Mod.setSrc_med (i : Nat) (f : Src → Src) : (m.setSrc i f).med = m.med := rfl
@[simp] theorem Mod.setSrc_upk (i : Nat) (f : Src → Src) : (m.setSrc i f).upk = m.upk := rfl
@[simp] theorem Mod.setSrc_fb (i : Nat) (f : Src → Src) : (m.setSrc i f).fb = m.fb := rfl
@[simp] theorem Mod.setSrc_per (i : Nat) (f : Src → Src) : (m.setSrc i f).per = m.per := rfl
@[simp] theorem Mod.setSrc_rep (i : Nat) (f : Src → Src) : (m.setSrc i f).rep = m.rep := rfl
@[simp] theorem Mod.setSrc_twin (i : Nat) (f : Src → Src) : (m.setSrc i f).twin = m.twin := rfl
@[simp] theorem Mod.setSrc_tx (i : Nat) (f : Src → Src) : (m.setSrc i f).tx = m.tx := rfl
@[simp] theorem Mod.setSrc_cry (i : Nat) (f : Src → Src) : (m.setSrc i f).cry = m.cry := rfl
@[simp] theorem Mod.setSrc_pwr (i : Nat) (f : Src → Src) : (m.setSrc i f).pwr = m.pwr := rfl
@[simp] theorem Mod.setSrc_th (i : Nat) (f : Src → Src) : (m.setSrc i f).th = m.th := rfl
@[simp] theorem Mod.setSrc_perf (i : Nat) (f : Src → Src) : (m.setSrc i f).perf = m.perf := rfl
@[simp] theorem Mod.setSrc_tly (i : Nat) (f : Src → Src) : (m.setSrc i f).tly = m.tly := rfl
@[simp] theorem Mod.setSrc_seed (i : Nat) (f : Src → Src) : (m.setSrc i f).seed = m.seed := rfl
@[simp] theorem Mod.setSrc_fore (i : Nat) (f : Src → Src) : (m.setSrc i f).fore = m.fore := rfl
@[simp] theorem Mod.setSrc_dbg (i : Nat) (f : Src → Src) : (m.setSrc i f).dbg = m.dbg := rfl
@[simp] theorem Mod.setSrc_nv (i : Nat) (f : Src → Src) : (m.setSrc i f).nv = m.nv := rfl
@[simp] theorem Mod.setSrc_nv2 (i : Nat) (f : Src → Src) : (m.setSrc i f).nv2 = m.nv2 := rfl
@[simp] theorem Mod.setSrc_out (i : Nat) (f : Src → Src) : (m.setSrc i f).out = m.out := rfl
@[simp] theorem Mod.setSrc_evt_occ (i : Nat) (f : Src → Src) : (m.setSrc i f).evt.occ = m.evt.occ := rfl
@[simp] theorem Mod.setSrc_evt_drop (i : Nat) (f : Src → Src) : (m.setSrc i f).evt.drop = m.evt.drop := rfl
@[simp] theorem Mod.setSrc_evt_alert (i : Nat) (f : Src → Src) : (m.setSrc i f).evt.alert = m.evt.alert := rfl
@[simp] theorem Mod.setSrc_evt_released (i : Nat) (f : Src → Src) : (m.setSrc i f).evt.released = m.evt.released := rfl

/-! ### `Mod.bump` -/

@[simp] theorem Mod.bump_time (k : Nat) : (m.bump k).time = m.time := rfl
@[simp] theorem Mod.bump_cfg (k : Nat) : (m.bump k).cfg = m.cfg := rfl
@[simp] theorem Mod.bump_path (k : Nat) : (m.bump k).path = m.path := rfl
@[simp] theorem Mod.bump_host (k : Nat) : (m.bump k).host = m.host := rfl
@[simp] theorem Mod.bump_hop (k : Nat) : (m.bump k).hop = m.hop := rfl
@[simp] theorem Mod.bump_med (k : Nat) : (m.bump k).med = m.med := rfl
@[simp] theorem Mod.bump_upk (k : Nat) : (m.bump k).upk = m.upk := rfl
@[simp] theorem Mod.bump_fb (k : Nat) : (m.bump k).fb = m.fb := rfl
@[simp] theorem Mod.bump_per (k : Nat) : (m.bump k).per = m.per := rfl
@[simp] theorem Mod.bump_rep (k : Nat) : (m.bump k).rep = m.rep := rfl
@[simp] theorem Mod.bump_twin (k : Nat) : (m.bump k).twin = m.twin := rfl
@[simp] theorem Mod.bump_tx (k : Nat) : (m.bump k).tx = m.tx := rfl
@[simp] theorem Mod.bump_cry (k : Nat) : (m.bump k).cry = m.cry := rfl
@[simp] theorem Mod.bump_pwr (k : Nat) : (m.bump k).pwr = m.pwr := rfl
@[simp] theorem Mod.bump_th (k : Nat) : (m.bump k).th = m.th := rfl
@[simp] theorem Mod.bump_perf (k : Nat) : (m.bump k).perf = m.perf := rfl
@[simp] theorem Mod.bump_tly (k : Nat) : (m.bump k).tly = m.tly := rfl
@[simp] theorem Mod.bump_seed (k : Nat) : (m.bump k).seed = m.seed := rfl
@[simp] theorem Mod.bump_fore (k : Nat) : (m.bump k).fore = m.fore := rfl
@[simp] theorem Mod.bump_dbg (k : Nat) : (m.bump k).dbg = m.dbg := rfl
@[simp] theorem Mod.bump_nv (k : Nat) : (m.bump k).nv = m.nv := rfl
@[simp] theorem Mod.bump_nv2 (k : Nat) : (m.bump k).nv2 = m.nv2 := rfl
@[simp] theorem Mod.bump_out (k : Nat) : (m.bump k).out = m.out := rfl
@[simp] theorem Mod.bump_evt_srcs (k : Nat) : (m.bump k).evt.srcs = m.evt.srcs := rfl
@[simp] theorem Mod.bump_evt_drop (k : Nat) : (m.bump k).evt.drop = m.evt.drop := rfl
@[simp] theorem Mod.bump_evt_alert (k : Nat) : (m.bump k).evt.alert = m.evt.alert := rfl
@[simp] theorem Mod.bump_evt_released (k : Nat) : (m.bump k).evt.released = m.evt.released := rfl

/-! ### `Mod.setAck` -/

@[simp] theorem Mod.setAck_time (k : Nat) (v : Word) : (m.setAck k v).time = m.time := rfl
@[simp] theorem Mod.setAck_cfg (k : Nat) (v : Word) : (m.setAck k v).cfg = m.cfg := rfl
@[simp] theorem Mod.setAck_path (k : Nat) (v : Word) : (m.setAck k v).path = m.path := rfl
@[simp] theorem Mod.setAck_host (k : Nat) (v : Word) : (m.setAck k v).host = m.host := rfl
@[simp] theorem Mod.setAck_hop (k : Nat) (v : Word) : (m.setAck k v).hop = m.hop := rfl
@[simp] theorem Mod.setAck_med (k : Nat) (v : Word) : (m.setAck k v).med = m.med := rfl
@[simp] theorem Mod.setAck_upk (k : Nat) (v : Word) : (m.setAck k v).upk = m.upk := rfl
@[simp] theorem Mod.setAck_fb (k : Nat) (v : Word) : (m.setAck k v).fb = m.fb := rfl
@[simp] theorem Mod.setAck_per (k : Nat) (v : Word) : (m.setAck k v).per = m.per := rfl
@[simp] theorem Mod.setAck_rep (k : Nat) (v : Word) : (m.setAck k v).rep = m.rep := rfl
@[simp] theorem Mod.setAck_twin (k : Nat) (v : Word) : (m.setAck k v).twin = m.twin := rfl
@[simp] theorem Mod.setAck_tx (k : Nat) (v : Word) : (m.setAck k v).tx = m.tx := rfl
@[simp] theorem Mod.setAck_cry (k : Nat) (v : Word) : (m.setAck k v).cry = m.cry := rfl
@[simp] theorem Mod.setAck_pwr (k : Nat) (v : Word) : (m.setAck k v).pwr = m.pwr := rfl
@[simp] theorem Mod.setAck_th (k : Nat) (v : Word) : (m.setAck k v).th = m.th := rfl
@[simp] theorem Mod.setAck_perf (k : Nat) (v : Word) : (m.setAck k v).perf = m.perf := rfl
@[simp] theorem Mod.setAck_tly (k : Nat) (v : Word) : (m.setAck k v).tly = m.tly := rfl
@[simp] theorem Mod.setAck_seed (k : Nat) (v : Word) : (m.setAck k v).seed = m.seed := rfl
@[simp] theorem Mod.setAck_fore (k : Nat) (v : Word) : (m.setAck k v).fore = m.fore := rfl
@[simp] theorem Mod.setAck_dbg (k : Nat) (v : Word) : (m.setAck k v).dbg = m.dbg := rfl
@[simp] theorem Mod.setAck_nv (k : Nat) (v : Word) : (m.setAck k v).nv = m.nv := rfl
@[simp] theorem Mod.setAck_nv2 (k : Nat) (v : Word) : (m.setAck k v).nv2 = m.nv2 := rfl
@[simp] theorem Mod.setAck_out (k : Nat) (v : Word) : (m.setAck k v).out = m.out := rfl
@[simp] theorem Mod.setAck_evt_srcs (k : Nat) (v : Word) : (m.setAck k v).evt.srcs = m.evt.srcs := rfl
@[simp] theorem Mod.setAck_evt_drop (k : Nat) (v : Word) : (m.setAck k v).evt.drop = m.evt.drop := rfl
@[simp] theorem Mod.setAck_evt_alert (k : Nat) (v : Word) : (m.setAck k v).evt.alert = m.evt.alert := rfl
@[simp] theorem Mod.setAck_evt_released (k : Nat) (v : Word) : (m.setAck k v).evt.released = m.evt.released := rfl

/-! ### `Mod.setRail` -/

@[simp] theorem Mod.setRail_time (i : Nat) (f : Rail → Rail) : (m.setRail i f).time = m.time := rfl
@[simp] theorem Mod.setRail_cfg (i : Nat) (f : Rail → Rail) : (m.setRail i f).cfg = m.cfg := rfl
@[simp] theorem Mod.setRail_path (i : Nat) (f : Rail → Rail) : (m.setRail i f).path = m.path := rfl
@[simp] theorem Mod.setRail_host (i : Nat) (f : Rail → Rail) : (m.setRail i f).host = m.host := rfl
@[simp] theorem Mod.setRail_hop (i : Nat) (f : Rail → Rail) : (m.setRail i f).hop = m.hop := rfl
@[simp] theorem Mod.setRail_med (i : Nat) (f : Rail → Rail) : (m.setRail i f).med = m.med := rfl
@[simp] theorem Mod.setRail_upk (i : Nat) (f : Rail → Rail) : (m.setRail i f).upk = m.upk := rfl
@[simp] theorem Mod.setRail_fb (i : Nat) (f : Rail → Rail) : (m.setRail i f).fb = m.fb := rfl
@[simp] theorem Mod.setRail_per (i : Nat) (f : Rail → Rail) : (m.setRail i f).per = m.per := rfl
@[simp] theorem Mod.setRail_rep (i : Nat) (f : Rail → Rail) : (m.setRail i f).rep = m.rep := rfl
@[simp] theorem Mod.setRail_twin (i : Nat) (f : Rail → Rail) : (m.setRail i f).twin = m.twin := rfl
@[simp] theorem Mod.setRail_tx (i : Nat) (f : Rail → Rail) : (m.setRail i f).tx = m.tx := rfl
@[simp] theorem Mod.setRail_cry (i : Nat) (f : Rail → Rail) : (m.setRail i f).cry = m.cry := rfl
@[simp] theorem Mod.setRail_th (i : Nat) (f : Rail → Rail) : (m.setRail i f).th = m.th := rfl
@[simp] theorem Mod.setRail_perf (i : Nat) (f : Rail → Rail) : (m.setRail i f).perf = m.perf := rfl
@[simp] theorem Mod.setRail_tly (i : Nat) (f : Rail → Rail) : (m.setRail i f).tly = m.tly := rfl
@[simp] theorem Mod.setRail_seed (i : Nat) (f : Rail → Rail) : (m.setRail i f).seed = m.seed := rfl
@[simp] theorem Mod.setRail_fore (i : Nat) (f : Rail → Rail) : (m.setRail i f).fore = m.fore := rfl
@[simp] theorem Mod.setRail_evt (i : Nat) (f : Rail → Rail) : (m.setRail i f).evt = m.evt := rfl
@[simp] theorem Mod.setRail_dbg (i : Nat) (f : Rail → Rail) : (m.setRail i f).dbg = m.dbg := rfl
@[simp] theorem Mod.setRail_nv (i : Nat) (f : Rail → Rail) : (m.setRail i f).nv = m.nv := rfl
@[simp] theorem Mod.setRail_nv2 (i : Nat) (f : Rail → Rail) : (m.setRail i f).nv2 = m.nv2 := rfl
@[simp] theorem Mod.setRail_out (i : Nat) (f : Rail → Rail) : (m.setRail i f).out = m.out := rfl
@[simp] theorem Mod.setRail_pwr_vinOn (i : Nat) (f : Rail → Rail) : (m.setRail i f).pwr.vinOn = m.pwr.vinOn := rfl
@[simp] theorem Mod.setRail_pwr_aonReset (i : Nat) (f : Rail → Rail) : (m.setRail i f).pwr.aonReset = m.pwr.aonReset := rfl
@[simp] theorem Mod.setRail_pwr_chans (i : Nat) (f : Rail → Rail) : (m.setRail i f).pwr.chans = m.pwr.chans := rfl
@[simp] theorem Mod.setRail_pwr_snap (i : Nat) (f : Rail → Rail) : (m.setRail i f).pwr.snap = m.pwr.snap := rfl
@[simp] theorem Mod.setRail_pwr_snapRail (i : Nat) (f : Rail → Rail) : (m.setRail i f).pwr.snapRail = m.pwr.snapRail := rfl
@[simp] theorem Mod.setRail_pwr_snapKind (i : Nat) (f : Rail → Rail) : (m.setRail i f).pwr.snapKind = m.pwr.snapKind := rfl
@[simp] theorem Mod.setRail_pwr_pin (i : Nat) (f : Rail → Rail) : (m.setRail i f).pwr.pin = m.pwr.pin := rfl
@[simp] theorem Mod.setRail_pwr_pmax (i : Nat) (f : Rail → Rail) : (m.setRail i f).pwr.pmax = m.pwr.pmax := rfl
@[simp] theorem Mod.setRail_pwr_phase (i : Nat) (f : Rail → Rail) : (m.setRail i f).pwr.phase = m.pwr.phase := rfl
@[simp] theorem Mod.setRail_pwr_pstate (i : Nat) (f : Rail → Rail) : (m.setRail i f).pwr.pstate = m.pwr.pstate := rfl
@[simp] theorem Mod.setRail_pwr_waking (i : Nat) (f : Rail → Rail) : (m.setRail i f).pwr.waking = m.pwr.waking := rfl
@[simp] theorem Mod.setRail_pwr_down (i : Nat) (f : Rail → Rail) : (m.setRail i f).pwr.down = m.pwr.down := rfl
@[simp] theorem Mod.setRail_pwr_falling (i : Nat) (f : Rail → Rail) : (m.setRail i f).pwr.falling = m.pwr.falling := rfl
@[simp] theorem Mod.setRail_pwr_tripDown (i : Nat) (f : Rail → Rail) : (m.setRail i f).pwr.tripDown = m.pwr.tripDown := rfl
@[simp] theorem Mod.setRail_pwr_wasOff (i : Nat) (f : Rail → Rail) : (m.setRail i f).pwr.wasOff = m.pwr.wasOff := rfl
@[simp] theorem Mod.setRail_pwr_started (i : Nat) (f : Rail → Rail) : (m.setRail i f).pwr.started = m.pwr.started := rfl
@[simp] theorem Mod.setRail_pwr_imgLoaded (i : Nat) (f : Rail → Rail) : (m.setRail i f).pwr.imgLoaded = m.pwr.imgLoaded := rfl
@[simp] theorem Mod.setRail_pwr_trainOk (i : Nat) (f : Rail → Rail) : (m.setRail i f).pwr.trainOk = m.pwr.trainOk := rfl
@[simp] theorem Mod.setRail_pwr_m3Media (i : Nat) (f : Rail → Rail) : (m.setRail i f).pwr.m3Media = m.pwr.m3Media := rfl
@[simp] theorem Mod.setRail_pwr_m3Exit (i : Nat) (f : Rail → Rail) : (m.setRail i f).pwr.m3Exit = m.pwr.m3Exit := rfl
@[simp] theorem Mod.setRail_pwr_startWait (i : Nat) (f : Rail → Rail) : (m.setRail i f).pwr.startWait = m.pwr.startWait := rfl
@[simp] theorem Mod.setRail_pwr_m1At (i : Nat) (f : Rail → Rail) : (m.setRail i f).pwr.m1At = m.pwr.m1At := rfl

/-! ### `Mod.setTherm` -/

@[simp] theorem Mod.setTherm_time (i : Nat) (f : Therm → Therm) : (m.setTherm i f).time = m.time := rfl
@[simp] theorem Mod.setTherm_cfg (i : Nat) (f : Therm → Therm) : (m.setTherm i f).cfg = m.cfg := rfl
@[simp] theorem Mod.setTherm_path (i : Nat) (f : Therm → Therm) : (m.setTherm i f).path = m.path := rfl
@[simp] theorem Mod.setTherm_host (i : Nat) (f : Therm → Therm) : (m.setTherm i f).host = m.host := rfl
@[simp] theorem Mod.setTherm_hop (i : Nat) (f : Therm → Therm) : (m.setTherm i f).hop = m.hop := rfl
@[simp] theorem Mod.setTherm_med (i : Nat) (f : Therm → Therm) : (m.setTherm i f).med = m.med := rfl
@[simp] theorem Mod.setTherm_upk (i : Nat) (f : Therm → Therm) : (m.setTherm i f).upk = m.upk := rfl
@[simp] theorem Mod.setTherm_fb (i : Nat) (f : Therm → Therm) : (m.setTherm i f).fb = m.fb := rfl
@[simp] theorem Mod.setTherm_per (i : Nat) (f : Therm → Therm) : (m.setTherm i f).per = m.per := rfl
@[simp] theorem Mod.setTherm_rep (i : Nat) (f : Therm → Therm) : (m.setTherm i f).rep = m.rep := rfl
@[simp] theorem Mod.setTherm_twin (i : Nat) (f : Therm → Therm) : (m.setTherm i f).twin = m.twin := rfl
@[simp] theorem Mod.setTherm_tx (i : Nat) (f : Therm → Therm) : (m.setTherm i f).tx = m.tx := rfl
@[simp] theorem Mod.setTherm_cry (i : Nat) (f : Therm → Therm) : (m.setTherm i f).cry = m.cry := rfl
@[simp] theorem Mod.setTherm_pwr (i : Nat) (f : Therm → Therm) : (m.setTherm i f).pwr = m.pwr := rfl
@[simp] theorem Mod.setTherm_perf (i : Nat) (f : Therm → Therm) : (m.setTherm i f).perf = m.perf := rfl
@[simp] theorem Mod.setTherm_tly (i : Nat) (f : Therm → Therm) : (m.setTherm i f).tly = m.tly := rfl
@[simp] theorem Mod.setTherm_seed (i : Nat) (f : Therm → Therm) : (m.setTherm i f).seed = m.seed := rfl
@[simp] theorem Mod.setTherm_fore (i : Nat) (f : Therm → Therm) : (m.setTherm i f).fore = m.fore := rfl
@[simp] theorem Mod.setTherm_evt (i : Nat) (f : Therm → Therm) : (m.setTherm i f).evt = m.evt := rfl
@[simp] theorem Mod.setTherm_dbg (i : Nat) (f : Therm → Therm) : (m.setTherm i f).dbg = m.dbg := rfl
@[simp] theorem Mod.setTherm_nv (i : Nat) (f : Therm → Therm) : (m.setTherm i f).nv = m.nv := rfl
@[simp] theorem Mod.setTherm_nv2 (i : Nat) (f : Therm → Therm) : (m.setTherm i f).nv2 = m.nv2 := rfl
@[simp] theorem Mod.setTherm_out (i : Nat) (f : Therm → Therm) : (m.setTherm i f).out = m.out := rfl
@[simp] theorem Mod.setTherm_th_coolSince (i : Nat) (f : Therm → Therm) : (m.setTherm i f).th.coolSince = m.th.coolSince := rfl
@[simp] theorem Mod.setTherm_th_restarts (i : Nat) (f : Therm → Therm) : (m.setTherm i f).th.restarts = m.th.restarts := rfl

/-! ### `Mod.setCu` -/

@[simp] theorem Mod.setCu_time (i : Nat) (f : Cu → Cu) : (m.setCu i f).time = m.time := rfl
@[simp] theorem Mod.setCu_cfg (i : Nat) (f : Cu → Cu) : (m.setCu i f).cfg = m.cfg := rfl
@[simp] theorem Mod.setCu_path (i : Nat) (f : Cu → Cu) : (m.setCu i f).path = m.path := rfl
@[simp] theorem Mod.setCu_host (i : Nat) (f : Cu → Cu) : (m.setCu i f).host = m.host := rfl
@[simp] theorem Mod.setCu_hop (i : Nat) (f : Cu → Cu) : (m.setCu i f).hop = m.hop := rfl
@[simp] theorem Mod.setCu_med (i : Nat) (f : Cu → Cu) : (m.setCu i f).med = m.med := rfl
@[simp] theorem Mod.setCu_upk (i : Nat) (f : Cu → Cu) : (m.setCu i f).upk = m.upk := rfl
@[simp] theorem Mod.setCu_fb (i : Nat) (f : Cu → Cu) : (m.setCu i f).fb = m.fb := rfl
@[simp] theorem Mod.setCu_per (i : Nat) (f : Cu → Cu) : (m.setCu i f).per = m.per := rfl
@[simp] theorem Mod.setCu_rep (i : Nat) (f : Cu → Cu) : (m.setCu i f).rep = m.rep := rfl
@[simp] theorem Mod.setCu_twin (i : Nat) (f : Cu → Cu) : (m.setCu i f).twin = m.twin := rfl
@[simp] theorem Mod.setCu_tx (i : Nat) (f : Cu → Cu) : (m.setCu i f).tx = m.tx := rfl
@[simp] theorem Mod.setCu_cry (i : Nat) (f : Cu → Cu) : (m.setCu i f).cry = m.cry := rfl
@[simp] theorem Mod.setCu_pwr (i : Nat) (f : Cu → Cu) : (m.setCu i f).pwr = m.pwr := rfl
@[simp] theorem Mod.setCu_th (i : Nat) (f : Cu → Cu) : (m.setCu i f).th = m.th := rfl
@[simp] theorem Mod.setCu_tly (i : Nat) (f : Cu → Cu) : (m.setCu i f).tly = m.tly := rfl
@[simp] theorem Mod.setCu_seed (i : Nat) (f : Cu → Cu) : (m.setCu i f).seed = m.seed := rfl
@[simp] theorem Mod.setCu_fore (i : Nat) (f : Cu → Cu) : (m.setCu i f).fore = m.fore := rfl
@[simp] theorem Mod.setCu_evt (i : Nat) (f : Cu → Cu) : (m.setCu i f).evt = m.evt := rfl
@[simp] theorem Mod.setCu_dbg (i : Nat) (f : Cu → Cu) : (m.setCu i f).dbg = m.dbg := rfl
@[simp] theorem Mod.setCu_nv (i : Nat) (f : Cu → Cu) : (m.setCu i f).nv = m.nv := rfl
@[simp] theorem Mod.setCu_nv2 (i : Nat) (f : Cu → Cu) : (m.setCu i f).nv2 = m.nv2 := rfl
@[simp] theorem Mod.setCu_out (i : Nat) (f : Cu → Cu) : (m.setCu i f).out = m.out := rfl
@[simp] theorem Mod.setCu_perf_ctrs (i : Nat) (f : Cu → Cu) : (m.setCu i f).perf.ctrs = m.perf.ctrs := rfl
@[simp] theorem Mod.setCu_perf_scr (i : Nat) (f : Cu → Cu) : (m.setCu i f).perf.scr = m.perf.scr := rfl
@[simp] theorem Mod.setCu_perf_scrLast (i : Nat) (f : Cu → Cu) : (m.setCu i f).perf.scrLast = m.perf.scrLast := rfl

/-! ### `Mod.setScr` -/

@[simp] theorem Mod.setScr_time (i : Nat) (f : Scr → Scr) : (m.setScr i f).time = m.time := rfl
@[simp] theorem Mod.setScr_cfg (i : Nat) (f : Scr → Scr) : (m.setScr i f).cfg = m.cfg := rfl
@[simp] theorem Mod.setScr_path (i : Nat) (f : Scr → Scr) : (m.setScr i f).path = m.path := rfl
@[simp] theorem Mod.setScr_host (i : Nat) (f : Scr → Scr) : (m.setScr i f).host = m.host := rfl
@[simp] theorem Mod.setScr_hop (i : Nat) (f : Scr → Scr) : (m.setScr i f).hop = m.hop := rfl
@[simp] theorem Mod.setScr_med (i : Nat) (f : Scr → Scr) : (m.setScr i f).med = m.med := rfl
@[simp] theorem Mod.setScr_upk (i : Nat) (f : Scr → Scr) : (m.setScr i f).upk = m.upk := rfl
@[simp] theorem Mod.setScr_fb (i : Nat) (f : Scr → Scr) : (m.setScr i f).fb = m.fb := rfl
@[simp] theorem Mod.setScr_per (i : Nat) (f : Scr → Scr) : (m.setScr i f).per = m.per := rfl
@[simp] theorem Mod.setScr_rep (i : Nat) (f : Scr → Scr) : (m.setScr i f).rep = m.rep := rfl
@[simp] theorem Mod.setScr_twin (i : Nat) (f : Scr → Scr) : (m.setScr i f).twin = m.twin := rfl
@[simp] theorem Mod.setScr_tx (i : Nat) (f : Scr → Scr) : (m.setScr i f).tx = m.tx := rfl
@[simp] theorem Mod.setScr_cry (i : Nat) (f : Scr → Scr) : (m.setScr i f).cry = m.cry := rfl
@[simp] theorem Mod.setScr_pwr (i : Nat) (f : Scr → Scr) : (m.setScr i f).pwr = m.pwr := rfl
@[simp] theorem Mod.setScr_th (i : Nat) (f : Scr → Scr) : (m.setScr i f).th = m.th := rfl
@[simp] theorem Mod.setScr_tly (i : Nat) (f : Scr → Scr) : (m.setScr i f).tly = m.tly := rfl
@[simp] theorem Mod.setScr_seed (i : Nat) (f : Scr → Scr) : (m.setScr i f).seed = m.seed := rfl
@[simp] theorem Mod.setScr_fore (i : Nat) (f : Scr → Scr) : (m.setScr i f).fore = m.fore := rfl
@[simp] theorem Mod.setScr_evt (i : Nat) (f : Scr → Scr) : (m.setScr i f).evt = m.evt := rfl
@[simp] theorem Mod.setScr_dbg (i : Nat) (f : Scr → Scr) : (m.setScr i f).dbg = m.dbg := rfl
@[simp] theorem Mod.setScr_nv (i : Nat) (f : Scr → Scr) : (m.setScr i f).nv = m.nv := rfl
@[simp] theorem Mod.setScr_nv2 (i : Nat) (f : Scr → Scr) : (m.setScr i f).nv2 = m.nv2 := rfl
@[simp] theorem Mod.setScr_out (i : Nat) (f : Scr → Scr) : (m.setScr i f).out = m.out := rfl
@[simp] theorem Mod.setScr_perf_ctrs (i : Nat) (f : Scr → Scr) : (m.setScr i f).perf.ctrs = m.perf.ctrs := rfl
@[simp] theorem Mod.setScr_perf_cus (i : Nat) (f : Scr → Scr) : (m.setScr i f).perf.cus = m.perf.cus := rfl
@[simp] theorem Mod.setScr_perf_scrLast (i : Nat) (f : Scr → Scr) : (m.setScr i f).perf.scrLast = m.perf.scrLast := rfl

/-! ### `Mod.setTwr` -/

@[simp] theorem Mod.setTwr_time (i : Nat) (f : TwReg → TwReg) : (m.setTwr i f).time = m.time := rfl
@[simp] theorem Mod.setTwr_cfg (i : Nat) (f : TwReg → TwReg) : (m.setTwr i f).cfg = m.cfg := rfl
@[simp] theorem Mod.setTwr_path (i : Nat) (f : TwReg → TwReg) : (m.setTwr i f).path = m.path := rfl
@[simp] theorem Mod.setTwr_host (i : Nat) (f : TwReg → TwReg) : (m.setTwr i f).host = m.host := rfl
@[simp] theorem Mod.setTwr_hop (i : Nat) (f : TwReg → TwReg) : (m.setTwr i f).hop = m.hop := rfl
@[simp] theorem Mod.setTwr_med (i : Nat) (f : TwReg → TwReg) : (m.setTwr i f).med = m.med := rfl
@[simp] theorem Mod.setTwr_upk (i : Nat) (f : TwReg → TwReg) : (m.setTwr i f).upk = m.upk := rfl
@[simp] theorem Mod.setTwr_fb (i : Nat) (f : TwReg → TwReg) : (m.setTwr i f).fb = m.fb := rfl
@[simp] theorem Mod.setTwr_per (i : Nat) (f : TwReg → TwReg) : (m.setTwr i f).per = m.per := rfl
@[simp] theorem Mod.setTwr_rep (i : Nat) (f : TwReg → TwReg) : (m.setTwr i f).rep = m.rep := rfl
@[simp] theorem Mod.setTwr_tx (i : Nat) (f : TwReg → TwReg) : (m.setTwr i f).tx = m.tx := rfl
@[simp] theorem Mod.setTwr_cry (i : Nat) (f : TwReg → TwReg) : (m.setTwr i f).cry = m.cry := rfl
@[simp] theorem Mod.setTwr_pwr (i : Nat) (f : TwReg → TwReg) : (m.setTwr i f).pwr = m.pwr := rfl
@[simp] theorem Mod.setTwr_th (i : Nat) (f : TwReg → TwReg) : (m.setTwr i f).th = m.th := rfl
@[simp] theorem Mod.setTwr_perf (i : Nat) (f : TwReg → TwReg) : (m.setTwr i f).perf = m.perf := rfl
@[simp] theorem Mod.setTwr_tly (i : Nat) (f : TwReg → TwReg) : (m.setTwr i f).tly = m.tly := rfl
@[simp] theorem Mod.setTwr_seed (i : Nat) (f : TwReg → TwReg) : (m.setTwr i f).seed = m.seed := rfl
@[simp] theorem Mod.setTwr_fore (i : Nat) (f : TwReg → TwReg) : (m.setTwr i f).fore = m.fore := rfl
@[simp] theorem Mod.setTwr_evt (i : Nat) (f : TwReg → TwReg) : (m.setTwr i f).evt = m.evt := rfl
@[simp] theorem Mod.setTwr_dbg (i : Nat) (f : TwReg → TwReg) : (m.setTwr i f).dbg = m.dbg := rfl
@[simp] theorem Mod.setTwr_nv (i : Nat) (f : TwReg → TwReg) : (m.setTwr i f).nv = m.nv := rfl
@[simp] theorem Mod.setTwr_nv2 (i : Nat) (f : TwReg → TwReg) : (m.setTwr i f).nv2 = m.nv2 := rfl
@[simp] theorem Mod.setTwr_out (i : Nat) (f : TwReg → TwReg) : (m.setTwr i f).out = m.out := rfl
@[simp] theorem Mod.setTwr_twin_trained (i : Nat) (f : TwReg → TwReg) : (m.setTwr i f).twin.trained = m.twin.trained := rfl
@[simp] theorem Mod.setTwr_twin_helloed (i : Nat) (f : TwReg → TwReg) : (m.setTwr i f).twin.helloed = m.twin.helloed := rfl
@[simp] theorem Mod.setTwr_twin_pair (i : Nat) (f : TwReg → TwReg) : (m.setTwr i f).twin.pair = m.twin.pair := rfl
@[simp] theorem Mod.setTwr_twin_refuse (i : Nat) (f : TwReg → TwReg) : (m.setTwr i f).twin.refuse = m.twin.refuse := rfl
@[simp] theorem Mod.setTwr_twin_cause (i : Nat) (f : TwReg → TwReg) : (m.setTwr i f).twin.cause = m.twin.cause := rfl
@[simp] theorem Mod.setTwr_twin_cmd (i : Nat) (f : TwReg → TwReg) : (m.setTwr i f).twin.cmd = m.twin.cmd := rfl
@[simp] theorem Mod.setTwr_twin_peer (i : Nat) (f : TwReg → TwReg) : (m.setTwr i f).twin.peer = m.twin.peer := rfl
@[simp] theorem Mod.setTwr_twin_side (i : Nat) (f : TwReg → TwReg) : (m.setTwr i f).twin.side = m.twin.side := rfl
@[simp] theorem Mod.setTwr_twin_txmsn (i : Nat) (f : TwReg → TwReg) : (m.setTwr i f).twin.txmsn = m.twin.txmsn := rfl
@[simp] theorem Mod.setTwr_twin_ackmsn (i : Nat) (f : TwReg → TwReg) : (m.setTwr i f).twin.ackmsn = m.twin.ackmsn := rfl
@[simp] theorem Mod.setTwr_twin_rxmsn (i : Nat) (f : TwReg → TwReg) : (m.setTwr i f).twin.rxmsn = m.twin.rxmsn := rfl
@[simp] theorem Mod.setTwr_twin_credits (i : Nat) (f : TwReg → TwReg) : (m.setTwr i f).twin.credits = m.twin.credits := rfl
@[simp] theorem Mod.setTwr_twin_recs (i : Nat) (f : TwReg → TwReg) : (m.setTwr i f).twin.recs = m.twin.recs := rfl
@[simp] theorem Mod.setTwr_twin_rsopen (i : Nat) (f : TwReg → TwReg) : (m.setTwr i f).twin.rsopen = m.twin.rsopen := rfl
@[simp] theorem Mod.setTwr_twin_replay (i : Nat) (f : TwReg → TwReg) : (m.setTwr i f).twin.replay = m.twin.replay := rfl
@[simp] theorem Mod.setTwr_twin_takes (i : Nat) (f : TwReg → TwReg) : (m.setTwr i f).twin.takes = m.twin.takes := rfl
@[simp] theorem Mod.setTwr_twin_sbmiss (i : Nat) (f : TwReg → TwReg) : (m.setTwr i f).twin.sbmiss = m.twin.sbmiss := rfl
@[simp] theorem Mod.setTwr_twin_lagPeak (i : Nat) (f : TwReg → TwReg) : (m.setTwr i f).twin.lagPeak = m.twin.lagPeak := rfl

/-! ### `Mod.setCrec` -/

@[simp] theorem Mod.setCrec_time (i : Nat) (f : CRec → CRec) : (m.setCrec i f).time = m.time := rfl
@[simp] theorem Mod.setCrec_cfg (i : Nat) (f : CRec → CRec) : (m.setCrec i f).cfg = m.cfg := rfl
@[simp] theorem Mod.setCrec_path (i : Nat) (f : CRec → CRec) : (m.setCrec i f).path = m.path := rfl
@[simp] theorem Mod.setCrec_host (i : Nat) (f : CRec → CRec) : (m.setCrec i f).host = m.host := rfl
@[simp] theorem Mod.setCrec_hop (i : Nat) (f : CRec → CRec) : (m.setCrec i f).hop = m.hop := rfl
@[simp] theorem Mod.setCrec_med (i : Nat) (f : CRec → CRec) : (m.setCrec i f).med = m.med := rfl
@[simp] theorem Mod.setCrec_upk (i : Nat) (f : CRec → CRec) : (m.setCrec i f).upk = m.upk := rfl
@[simp] theorem Mod.setCrec_fb (i : Nat) (f : CRec → CRec) : (m.setCrec i f).fb = m.fb := rfl
@[simp] theorem Mod.setCrec_per (i : Nat) (f : CRec → CRec) : (m.setCrec i f).per = m.per := rfl
@[simp] theorem Mod.setCrec_rep (i : Nat) (f : CRec → CRec) : (m.setCrec i f).rep = m.rep := rfl
@[simp] theorem Mod.setCrec_twin (i : Nat) (f : CRec → CRec) : (m.setCrec i f).twin = m.twin := rfl
@[simp] theorem Mod.setCrec_tx (i : Nat) (f : CRec → CRec) : (m.setCrec i f).tx = m.tx := rfl
@[simp] theorem Mod.setCrec_pwr (i : Nat) (f : CRec → CRec) : (m.setCrec i f).pwr = m.pwr := rfl
@[simp] theorem Mod.setCrec_th (i : Nat) (f : CRec → CRec) : (m.setCrec i f).th = m.th := rfl
@[simp] theorem Mod.setCrec_perf (i : Nat) (f : CRec → CRec) : (m.setCrec i f).perf = m.perf := rfl
@[simp] theorem Mod.setCrec_tly (i : Nat) (f : CRec → CRec) : (m.setCrec i f).tly = m.tly := rfl
@[simp] theorem Mod.setCrec_seed (i : Nat) (f : CRec → CRec) : (m.setCrec i f).seed = m.seed := rfl
@[simp] theorem Mod.setCrec_fore (i : Nat) (f : CRec → CRec) : (m.setCrec i f).fore = m.fore := rfl
@[simp] theorem Mod.setCrec_evt (i : Nat) (f : CRec → CRec) : (m.setCrec i f).evt = m.evt := rfl
@[simp] theorem Mod.setCrec_dbg (i : Nat) (f : CRec → CRec) : (m.setCrec i f).dbg = m.dbg := rfl
@[simp] theorem Mod.setCrec_nv (i : Nat) (f : CRec → CRec) : (m.setCrec i f).nv = m.nv := rfl
@[simp] theorem Mod.setCrec_nv2 (i : Nat) (f : CRec → CRec) : (m.setCrec i f).nv2 = m.nv2 := rfl
@[simp] theorem Mod.setCrec_out (i : Nat) (f : CRec → CRec) : (m.setCrec i f).out = m.out := rfl
@[simp] theorem Mod.setCrec_cry_slots (i : Nat) (f : CRec → CRec) : (m.setCrec i f).cry.slots = m.cry.slots := rfl
@[simp] theorem Mod.setCrec_cry_linger (i : Nat) (f : CRec → CRec) : (m.setCrec i f).cry.linger = m.cry.linger := rfl
@[simp] theorem Mod.setCrec_cry_pend (i : Nat) (f : CRec → CRec) : (m.setCrec i f).cry.pend = m.cry.pend := rfl
@[simp] theorem Mod.setCrec_cry_seams (i : Nat) (f : CRec → CRec) : (m.setCrec i f).cry.seams = m.cry.seams := rfl
@[simp] theorem Mod.setCrec_cry_erased (i : Nat) (f : CRec → CRec) : (m.setCrec i f).cry.erased = m.cry.erased := rfl

/-! ### `Mod.setSlot` -/

@[simp] theorem Mod.setSlot_time (n : Nat) (s : Option Slot) : (m.setSlot n s).time = m.time := rfl
@[simp] theorem Mod.setSlot_cfg (n : Nat) (s : Option Slot) : (m.setSlot n s).cfg = m.cfg := rfl
@[simp] theorem Mod.setSlot_path (n : Nat) (s : Option Slot) : (m.setSlot n s).path = m.path := rfl
@[simp] theorem Mod.setSlot_host (n : Nat) (s : Option Slot) : (m.setSlot n s).host = m.host := rfl
@[simp] theorem Mod.setSlot_hop (n : Nat) (s : Option Slot) : (m.setSlot n s).hop = m.hop := rfl
@[simp] theorem Mod.setSlot_med (n : Nat) (s : Option Slot) : (m.setSlot n s).med = m.med := rfl
@[simp] theorem Mod.setSlot_upk (n : Nat) (s : Option Slot) : (m.setSlot n s).upk = m.upk := rfl
@[simp] theorem Mod.setSlot_fb (n : Nat) (s : Option Slot) : (m.setSlot n s).fb = m.fb := rfl
@[simp] theorem Mod.setSlot_per (n : Nat) (s : Option Slot) : (m.setSlot n s).per = m.per := rfl
@[simp] theorem Mod.setSlot_rep (n : Nat) (s : Option Slot) : (m.setSlot n s).rep = m.rep := rfl
@[simp] theorem Mod.setSlot_twin (n : Nat) (s : Option Slot) : (m.setSlot n s).twin = m.twin := rfl
@[simp] theorem Mod.setSlot_tx (n : Nat) (s : Option Slot) : (m.setSlot n s).tx = m.tx := rfl
@[simp] theorem Mod.setSlot_pwr (n : Nat) (s : Option Slot) : (m.setSlot n s).pwr = m.pwr := rfl
@[simp] theorem Mod.setSlot_th (n : Nat) (s : Option Slot) : (m.setSlot n s).th = m.th := rfl
@[simp] theorem Mod.setSlot_perf (n : Nat) (s : Option Slot) : (m.setSlot n s).perf = m.perf := rfl
@[simp] theorem Mod.setSlot_tly (n : Nat) (s : Option Slot) : (m.setSlot n s).tly = m.tly := rfl
@[simp] theorem Mod.setSlot_seed (n : Nat) (s : Option Slot) : (m.setSlot n s).seed = m.seed := rfl
@[simp] theorem Mod.setSlot_fore (n : Nat) (s : Option Slot) : (m.setSlot n s).fore = m.fore := rfl
@[simp] theorem Mod.setSlot_evt (n : Nat) (s : Option Slot) : (m.setSlot n s).evt = m.evt := rfl
@[simp] theorem Mod.setSlot_dbg (n : Nat) (s : Option Slot) : (m.setSlot n s).dbg = m.dbg := rfl
@[simp] theorem Mod.setSlot_nv (n : Nat) (s : Option Slot) : (m.setSlot n s).nv = m.nv := rfl
@[simp] theorem Mod.setSlot_nv2 (n : Nat) (s : Option Slot) : (m.setSlot n s).nv2 = m.nv2 := rfl
@[simp] theorem Mod.setSlot_out (n : Nat) (s : Option Slot) : (m.setSlot n s).out = m.out := rfl
@[simp] theorem Mod.setSlot_cry_linger (n : Nat) (s : Option Slot) : (m.setSlot n s).cry.linger = m.cry.linger := rfl
@[simp] theorem Mod.setSlot_cry_recs (n : Nat) (s : Option Slot) : (m.setSlot n s).cry.recs = m.cry.recs := rfl
@[simp] theorem Mod.setSlot_cry_pend (n : Nat) (s : Option Slot) : (m.setSlot n s).cry.pend = m.cry.pend := rfl
@[simp] theorem Mod.setSlot_cry_seams (n : Nat) (s : Option Slot) : (m.setSlot n s).cry.seams = m.cry.seams := rfl
@[simp] theorem Mod.setSlot_cry_erased (n : Nat) (s : Option Slot) : (m.setSlot n s).cry.erased = m.cry.erased := rfl

/-! ### `Mod.setSeam` -/

@[simp] theorem Mod.setSeam_time (i : Nat) (f : Seam → Seam) : (m.setSeam i f).time = m.time := rfl
@[simp] theorem Mod.setSeam_cfg (i : Nat) (f : Seam → Seam) : (m.setSeam i f).cfg = m.cfg := rfl
@[simp] theorem Mod.setSeam_path (i : Nat) (f : Seam → Seam) : (m.setSeam i f).path = m.path := rfl
@[simp] theorem Mod.setSeam_host (i : Nat) (f : Seam → Seam) : (m.setSeam i f).host = m.host := rfl
@[simp] theorem Mod.setSeam_hop (i : Nat) (f : Seam → Seam) : (m.setSeam i f).hop = m.hop := rfl
@[simp] theorem Mod.setSeam_med (i : Nat) (f : Seam → Seam) : (m.setSeam i f).med = m.med := rfl
@[simp] theorem Mod.setSeam_upk (i : Nat) (f : Seam → Seam) : (m.setSeam i f).upk = m.upk := rfl
@[simp] theorem Mod.setSeam_fb (i : Nat) (f : Seam → Seam) : (m.setSeam i f).fb = m.fb := rfl
@[simp] theorem Mod.setSeam_per (i : Nat) (f : Seam → Seam) : (m.setSeam i f).per = m.per := rfl
@[simp] theorem Mod.setSeam_rep (i : Nat) (f : Seam → Seam) : (m.setSeam i f).rep = m.rep := rfl
@[simp] theorem Mod.setSeam_twin (i : Nat) (f : Seam → Seam) : (m.setSeam i f).twin = m.twin := rfl
@[simp] theorem Mod.setSeam_tx (i : Nat) (f : Seam → Seam) : (m.setSeam i f).tx = m.tx := rfl
@[simp] theorem Mod.setSeam_pwr (i : Nat) (f : Seam → Seam) : (m.setSeam i f).pwr = m.pwr := rfl
@[simp] theorem Mod.setSeam_th (i : Nat) (f : Seam → Seam) : (m.setSeam i f).th = m.th := rfl
@[simp] theorem Mod.setSeam_perf (i : Nat) (f : Seam → Seam) : (m.setSeam i f).perf = m.perf := rfl
@[simp] theorem Mod.setSeam_tly (i : Nat) (f : Seam → Seam) : (m.setSeam i f).tly = m.tly := rfl
@[simp] theorem Mod.setSeam_seed (i : Nat) (f : Seam → Seam) : (m.setSeam i f).seed = m.seed := rfl
@[simp] theorem Mod.setSeam_fore (i : Nat) (f : Seam → Seam) : (m.setSeam i f).fore = m.fore := rfl
@[simp] theorem Mod.setSeam_evt (i : Nat) (f : Seam → Seam) : (m.setSeam i f).evt = m.evt := rfl
@[simp] theorem Mod.setSeam_dbg (i : Nat) (f : Seam → Seam) : (m.setSeam i f).dbg = m.dbg := rfl
@[simp] theorem Mod.setSeam_nv (i : Nat) (f : Seam → Seam) : (m.setSeam i f).nv = m.nv := rfl
@[simp] theorem Mod.setSeam_nv2 (i : Nat) (f : Seam → Seam) : (m.setSeam i f).nv2 = m.nv2 := rfl
@[simp] theorem Mod.setSeam_out (i : Nat) (f : Seam → Seam) : (m.setSeam i f).out = m.out := rfl
@[simp] theorem Mod.setSeam_cry_slots (i : Nat) (f : Seam → Seam) : (m.setSeam i f).cry.slots = m.cry.slots := rfl
@[simp] theorem Mod.setSeam_cry_linger (i : Nat) (f : Seam → Seam) : (m.setSeam i f).cry.linger = m.cry.linger := rfl
@[simp] theorem Mod.setSeam_cry_recs (i : Nat) (f : Seam → Seam) : (m.setSeam i f).cry.recs = m.cry.recs := rfl
@[simp] theorem Mod.setSeam_cry_pend (i : Nat) (f : Seam → Seam) : (m.setSeam i f).cry.pend = m.cry.pend := rfl
@[simp] theorem Mod.setSeam_cry_erased (i : Nat) (f : Seam → Seam) : (m.setSeam i f).cry.erased = m.cry.erased := rfl

/-! ### `Mod.setPlate` -/

@[simp] theorem Mod.setPlate_time (k : Nat) (v : Word) : (m.setPlate k v).time = m.time := rfl
@[simp] theorem Mod.setPlate_path (k : Nat) (v : Word) : (m.setPlate k v).path = m.path := rfl
@[simp] theorem Mod.setPlate_host (k : Nat) (v : Word) : (m.setPlate k v).host = m.host := rfl
@[simp] theorem Mod.setPlate_hop (k : Nat) (v : Word) : (m.setPlate k v).hop = m.hop := rfl
@[simp] theorem Mod.setPlate_med (k : Nat) (v : Word) : (m.setPlate k v).med = m.med := rfl
@[simp] theorem Mod.setPlate_upk (k : Nat) (v : Word) : (m.setPlate k v).upk = m.upk := rfl
@[simp] theorem Mod.setPlate_fb (k : Nat) (v : Word) : (m.setPlate k v).fb = m.fb := rfl
@[simp] theorem Mod.setPlate_per (k : Nat) (v : Word) : (m.setPlate k v).per = m.per := rfl
@[simp] theorem Mod.setPlate_rep (k : Nat) (v : Word) : (m.setPlate k v).rep = m.rep := rfl
@[simp] theorem Mod.setPlate_twin (k : Nat) (v : Word) : (m.setPlate k v).twin = m.twin := rfl
@[simp] theorem Mod.setPlate_tx (k : Nat) (v : Word) : (m.setPlate k v).tx = m.tx := rfl
@[simp] theorem Mod.setPlate_cry (k : Nat) (v : Word) : (m.setPlate k v).cry = m.cry := rfl
@[simp] theorem Mod.setPlate_pwr (k : Nat) (v : Word) : (m.setPlate k v).pwr = m.pwr := rfl
@[simp] theorem Mod.setPlate_th (k : Nat) (v : Word) : (m.setPlate k v).th = m.th := rfl
@[simp] theorem Mod.setPlate_perf (k : Nat) (v : Word) : (m.setPlate k v).perf = m.perf := rfl
@[simp] theorem Mod.setPlate_tly (k : Nat) (v : Word) : (m.setPlate k v).tly = m.tly := rfl
@[simp] theorem Mod.setPlate_seed (k : Nat) (v : Word) : (m.setPlate k v).seed = m.seed := rfl
@[simp] theorem Mod.setPlate_fore (k : Nat) (v : Word) : (m.setPlate k v).fore = m.fore := rfl
@[simp] theorem Mod.setPlate_evt (k : Nat) (v : Word) : (m.setPlate k v).evt = m.evt := rfl
@[simp] theorem Mod.setPlate_dbg (k : Nat) (v : Word) : (m.setPlate k v).dbg = m.dbg := rfl
@[simp] theorem Mod.setPlate_nv (k : Nat) (v : Word) : (m.setPlate k v).nv = m.nv := rfl
@[simp] theorem Mod.setPlate_nv2 (k : Nat) (v : Word) : (m.setPlate k v).nv2 = m.nv2 := rfl
@[simp] theorem Mod.setPlate_out (k : Nat) (v : Word) : (m.setPlate k v).out = m.out := rfl
@[simp] theorem Mod.setPlate_cfg_prev (k : Nat) (v : Word) : (m.setPlate k v).cfg.prev = m.cfg.prev := rfl

/-! ### `Mod.setW` -/

@[simp] theorem Mod.setW_time (i off : Nat) (v : Word) : (m.setW i off v).time = m.time := rfl
@[simp] theorem Mod.setW_path (i off : Nat) (v : Word) : (m.setW i off v).path = m.path := rfl
@[simp] theorem Mod.setW_host (i off : Nat) (v : Word) : (m.setW i off v).host = m.host := rfl
@[simp] theorem Mod.setW_hop (i off : Nat) (v : Word) : (m.setW i off v).hop = m.hop := rfl
@[simp] theorem Mod.setW_med (i off : Nat) (v : Word) : (m.setW i off v).med = m.med := rfl
@[simp] theorem Mod.setW_upk (i off : Nat) (v : Word) : (m.setW i off v).upk = m.upk := rfl
@[simp] theorem Mod.setW_fb (i off : Nat) (v : Word) : (m.setW i off v).fb = m.fb := rfl
@[simp] theorem Mod.setW_per (i off : Nat) (v : Word) : (m.setW i off v).per = m.per := rfl
@[simp] theorem Mod.setW_rep (i off : Nat) (v : Word) : (m.setW i off v).rep = m.rep := rfl
@[simp] theorem Mod.setW_twin (i off : Nat) (v : Word) : (m.setW i off v).twin = m.twin := rfl
@[simp] theorem Mod.setW_tx (i off : Nat) (v : Word) : (m.setW i off v).tx = m.tx := rfl
@[simp] theorem Mod.setW_cry (i off : Nat) (v : Word) : (m.setW i off v).cry = m.cry := rfl
@[simp] theorem Mod.setW_pwr (i off : Nat) (v : Word) : (m.setW i off v).pwr = m.pwr := rfl
@[simp] theorem Mod.setW_th (i off : Nat) (v : Word) : (m.setW i off v).th = m.th := rfl
@[simp] theorem Mod.setW_perf (i off : Nat) (v : Word) : (m.setW i off v).perf = m.perf := rfl
@[simp] theorem Mod.setW_tly (i off : Nat) (v : Word) : (m.setW i off v).tly = m.tly := rfl
@[simp] theorem Mod.setW_seed (i off : Nat) (v : Word) : (m.setW i off v).seed = m.seed := rfl
@[simp] theorem Mod.setW_fore (i off : Nat) (v : Word) : (m.setW i off v).fore = m.fore := rfl
@[simp] theorem Mod.setW_evt (i off : Nat) (v : Word) : (m.setW i off v).evt = m.evt := rfl
@[simp] theorem Mod.setW_dbg (i off : Nat) (v : Word) : (m.setW i off v).dbg = m.dbg := rfl
@[simp] theorem Mod.setW_nv (i off : Nat) (v : Word) : (m.setW i off v).nv = m.nv := rfl
@[simp] theorem Mod.setW_nv2 (i off : Nat) (v : Word) : (m.setW i off v).nv2 = m.nv2 := rfl
@[simp] theorem Mod.setW_out (i off : Nat) (v : Word) : (m.setW i off v).out = m.out := rfl
@[simp] theorem Mod.setW_cfg_prev (i off : Nat) (v : Word) : (m.setW i off v).cfg.prev = m.cfg.prev := rfl

/-! ### `Mod.emit` -/

@[simp] theorem Mod.emit_time (o : Out) : (m.emit o).time = m.time := rfl
@[simp] theorem Mod.emit_cfg (o : Out) : (m.emit o).cfg = m.cfg := rfl
@[simp] theorem Mod.emit_path (o : Out) : (m.emit o).path = m.path := rfl
@[simp] theorem Mod.emit_host (o : Out) : (m.emit o).host = m.host := rfl
@[simp] theorem Mod.emit_hop (o : Out) : (m.emit o).hop = m.hop := rfl
@[simp] theorem Mod.emit_med (o : Out) : (m.emit o).med = m.med := rfl
@[simp] theorem Mod.emit_upk (o : Out) : (m.emit o).upk = m.upk := rfl
@[simp] theorem Mod.emit_fb (o : Out) : (m.emit o).fb = m.fb := rfl
@[simp] theorem Mod.emit_per (o : Out) : (m.emit o).per = m.per := rfl
@[simp] theorem Mod.emit_rep (o : Out) : (m.emit o).rep = m.rep := rfl
@[simp] theorem Mod.emit_twin (o : Out) : (m.emit o).twin = m.twin := rfl
@[simp] theorem Mod.emit_tx (o : Out) : (m.emit o).tx = m.tx := rfl
@[simp] theorem Mod.emit_cry (o : Out) : (m.emit o).cry = m.cry := rfl
@[simp] theorem Mod.emit_pwr (o : Out) : (m.emit o).pwr = m.pwr := rfl
@[simp] theorem Mod.emit_th (o : Out) : (m.emit o).th = m.th := rfl
@[simp] theorem Mod.emit_perf (o : Out) : (m.emit o).perf = m.perf := rfl
@[simp] theorem Mod.emit_tly (o : Out) : (m.emit o).tly = m.tly := rfl
@[simp] theorem Mod.emit_seed (o : Out) : (m.emit o).seed = m.seed := rfl
@[simp] theorem Mod.emit_fore (o : Out) : (m.emit o).fore = m.fore := rfl
@[simp] theorem Mod.emit_evt (o : Out) : (m.emit o).evt = m.evt := rfl
@[simp] theorem Mod.emit_dbg (o : Out) : (m.emit o).dbg = m.dbg := rfl
@[simp] theorem Mod.emit_nv (o : Out) : (m.emit o).nv = m.nv := rfl
@[simp] theorem Mod.emit_nv2 (o : Out) : (m.emit o).nv2 = m.nv2 := rfl

/-! ### Readers after updates -/

theorem Mod.setIsl_isl_other (i j : Nat) (f : Isl → Isl) (h : j ≠ i) : (m.setIsl i f).isl j = m.isl j :=
  tget_tput_other _ _ _ _ _ h
theorem Mod.setIsl_isl_ne (i : Nat) (f : Isl → Isl) (h : f (m.isl i) ≠ {}) : (m.setIsl i f).isl i = f (m.isl i) :=
  tget_tput_self_ne _ _ _ _ h
theorem Mod.setIsl_isl_wf (i : Nat) (f : Isl → Isl) (h : twf ({} : Isl) m.time.isl) : (m.setIsl i f).isl i = f (m.isl i) :=
  tget_tput_self _ _ _ _ h
theorem Mod.setPort_port_other (i j : Nat) (f : Port → Port) (h : j ≠ i) : (m.setPort i f).port j = m.port j :=
  tget_tput_other _ _ _ _ _ h
theorem Mod.setPort_port_ne (i : Nat) (f : Port → Port) (h : f (m.port i) ≠ {}) : (m.setPort i f).port i = f (m.port i) :=
  tget_tput_self_ne _ _ _ _ h
theorem Mod.setPort_port_wf (i : Nat) (f : Port → Port) (h : twf ({} : Port) m.host.ports) : (m.setPort i f).port i = f (m.port i) :=
  tget_tput_self _ _ _ _ h
theorem Mod.setLp_lp_other (i j : Nat) (f : Lp → Lp) (h : j ≠ i) : (m.setLp i f).lp j = m.lp j :=
  tget_tput_other _ _ _ _ _ h
theorem Mod.setLp_lp_ne (i : Nat) (f : Lp → Lp) (h : f (m.lp i) ≠ {}) : (m.setLp i f).lp i = f (m.lp i) :=
  tget_tput_self_ne _ _ _ _ h
theorem Mod.setLp_lp_wf (i : Nat) (f : Lp → Lp) (h : twf ({} : Lp) m.host.lps) : (m.setLp i f).lp i = f (m.lp i) :=
  tget_tput_self _ _ _ _ h
theorem Mod.setAux_aux_other (i j : Nat) (f : LpAux → LpAux) (h : j ≠ i) : (m.setAux i f).aux j = m.aux j :=
  tget_tput_other _ _ _ _ _ h
theorem Mod.setAux_aux_ne (i : Nat) (f : LpAux → LpAux) (h : f (m.aux i) ≠ {}) : (m.setAux i f).aux i = f (m.aux i) :=
  tget_tput_self_ne _ _ _ _ h
theorem Mod.setAux_aux_wf (i : Nat) (f : LpAux → LpAux) (h : twf ({} : LpAux) m.host.aux) : (m.setAux i f).aux i = f (m.aux i) :=
  tget_tput_self _ _ _ _ h
theorem Mod.setFrame_frame_other (i j : Nat) (f : Frame → Frame) (h : j ≠ i) : (m.setFrame i f).frame j = m.frame j :=
  tget_tput_other _ _ _ _ _ h
theorem Mod.setFrame_frame_ne (i : Nat) (f : Frame → Frame) (h : f (m.frame i) ≠ {}) : (m.setFrame i f).frame i = f (m.frame i) :=
  tget_tput_self_ne _ _ _ _ h
theorem Mod.setFrame_frame_wf (i : Nat) (f : Frame → Frame) (h : twf ({} : Frame) m.hop.frames) : (m.setFrame i f).frame i = f (m.frame i) :=
  tget_tput_self _ _ _ _ h
theorem Mod.setHch_hch_other (i j : Nat) (f : HopCh → HopCh) (h : j ≠ i) : (m.setHch i f).hch j = m.hch j :=
  tget_tput_other _ _ _ _ _ h
theorem Mod.setHch_hch_ne (i : Nat) (f : HopCh → HopCh) (h : f (m.hch i) ≠ {}) : (m.setHch i f).hch i = f (m.hch i) :=
  tget_tput_self_ne _ _ _ _ h
theorem Mod.setHch_hch_wf (i : Nat) (f : HopCh → HopCh) (h : twf ({} : HopCh) m.hop.chans) : (m.setHch i f).hch i = f (m.hch i) :=
  tget_tput_self _ _ _ _ h
theorem Mod.setMch_mch_other (i j : Nat) (f : MedCh → MedCh) (h : j ≠ i) : (m.setMch i f).mch j = m.mch j :=
  tget_tput_other _ _ _ _ _ h
theorem Mod.setMch_mch_ne (i : Nat) (f : MedCh → MedCh) (h : f (m.mch i) ≠ {}) : (m.setMch i f).mch i = f (m.mch i) :=
  tget_tput_self_ne _ _ _ _ h
theorem Mod.setMch_mch_wf (i : Nat) (f : MedCh → MedCh) (h : twf ({} : MedCh) m.med.chans) : (m.setMch i f).mch i = f (m.mch i) :=
  tget_tput_self _ _ _ _ h
theorem Mod.setDie_die_other (i j : Nat) (f : Die → Die) (h : j ≠ i) : (m.setDie i f).die j = m.die j :=
  tget_tput_other _ _ _ _ _ h
theorem Mod.setDie_die_ne (i : Nat) (f : Die → Die) (h : f (m.die i) ≠ {}) : (m.setDie i f).die i = f (m.die i) :=
  tget_tput_self_ne _ _ _ _ h
theorem Mod.setDie_die_wf (i : Nat) (f : Die → Die) (h : twf ({} : Die) m.med.dies) : (m.setDie i f).die i = f (m.die i) :=
  tget_tput_self _ _ _ _ h
theorem Mod.setBlk_blk_other (i j : Nat) (f : Blk → Blk) (h : j ≠ i) : (m.setBlk i f).blk j = m.blk j :=
  tget_tput_other _ _ _ _ _ h
theorem Mod.setBlk_blk_ne (i : Nat) (f : Blk → Blk) (h : f (m.blk i) ≠ {}) : (m.setBlk i f).blk i = f (m.blk i) :=
  tget_tput_self_ne _ _ _ _ h
theorem Mod.setBlk_blk_wf (i : Nat) (f : Blk → Blk) (h : twf ({} : Blk) m.upk.blks) : (m.setBlk i f).blk i = f (m.blk i) :=
  tget_tput_self _ _ _ _ h
theorem Mod.setMaster_master_other (i j : Nat) (f : Master → Master) (h : j ≠ i) : (m.setMaster i f).master j = m.master j :=
  tget_tput_other _ _ _ _ _ h
theorem Mod.setMaster_master_ne (i : Nat) (f : Master → Master) (h : f (m.master i) ≠ {}) : (m.setMaster i f).master i = f (m.master i) :=
  tget_tput_self_ne _ _ _ _ h
theorem Mod.setMaster_master_wf (i : Nat) (f : Master → Master) (h : twf ({} : Master) m.path.masters) : (m.setMaster i f).master i = f (m.master i) :=
  tget_tput_self _ _ _ _ h
theorem Mod.setPathQ_pathQ_other (i j : Nat) (f : PathQ → PathQ) (h : j ≠ i) : (m.setPathQ i f).pathQ j = m.pathQ j :=
  tget_tput_other _ _ _ _ _ h
theorem Mod.setPathQ_pathQ_ne (i : Nat) (f : PathQ → PathQ) (h : f (m.pathQ i) ≠ {}) : (m.setPathQ i f).pathQ i = f (m.pathQ i) :=
  tget_tput_self_ne _ _ _ _ h
theorem Mod.setPathQ_pathQ_wf (i : Nat) (f : PathQ → PathQ) (h : twf ({} : PathQ) m.path.queues) : (m.setPathQ i f).pathQ i = f (m.pathQ i) :=
  tget_tput_self _ _ _ _ h
theorem Mod.setFm_fm_other (i j : Nat) (f : Foreman → Foreman) (h : j ≠ i) : (m.setFm i f).fm j = m.fm j :=
  tget_tput_other _ _ _ _ _ h
theorem Mod.setFm_fm_ne (i : Nat) (f : Foreman → Foreman) (h : f (m.fm i) ≠ {}) : (m.setFm i f).fm i = f (m.fm i) :=
  tget_tput_self_ne _ _ _ _ h
theorem Mod.setFm_fm_wf (i : Nat) (f : Foreman → Foreman) (h : twf ({} : Foreman) m.fore.fm) : (m.setFm i f).fm i = f (m.fm i) :=
  tget_tput_self _ _ _ _ h
theorem Mod.setQueue_queue_other (i j : Nat) (f : Queue → Queue) (h : j ≠ i) : (m.setQueue i f).queue j = m.queue j :=
  tget_tput_other _ _ _ _ _ h
theorem Mod.setQueue_queue_ne (i : Nat) (f : Queue → Queue) (h : f (m.queue i) ≠ {}) : (m.setQueue i f).queue i = f (m.queue i) :=
  tget_tput_self_ne _ _ _ _ h
theorem Mod.setQueue_queue_wf (i : Nat) (f : Queue → Queue) (h : twf ({} : Queue) m.fore.qs) : (m.setQueue i f).queue i = f (m.queue i) :=
  tget_tput_self _ _ _ _ h
theorem Mod.setHook_hook_other (i j : Nat) (f : Hook → Hook) (h : j ≠ i) : (m.setHook i f).hook j = m.hook j :=
  tget_tput_other _ _ _ _ _ h
theorem Mod.setHook_hook_ne (i : Nat) (f : Hook → Hook) (h : f (m.hook i) ≠ {}) : (m.setHook i f).hook i = f (m.hook i) :=
  tget_tput_self_ne _ _ _ _ h
theorem Mod.setHook_hook_wf (i : Nat) (f : Hook → Hook) (h : twf ({} : Hook) m.fore.hooks) : (m.setHook i f).hook i = f (m.hook i) :=
  tget_tput_self _ _ _ _ h
theorem Mod.setSrc_src_other (i j : Nat) (f : Src → Src) (h : j ≠ i) : (m.setSrc i f).src j = m.src j :=
  tget_tput_other _ _ _ _ _ h
theorem Mod.setSrc_src_ne (i : Nat) (f : Src → Src) (h : f (m.src i) ≠ {}) : (m.setSrc i f).src i = f (m.src i) :=
  tget_tput_self_ne _ _ _ _ h
theorem Mod.setSrc_src_wf (i : Nat) (f : Src → Src) (h : twf ({} : Src) m.evt.srcs) : (m.setSrc i f).src i = f (m.src i) :=
  tget_tput_self _ _ _ _ h
theorem Mod.setRail_rail_other (i j : Nat) (f : Rail → Rail) (h : j ≠ i) : (m.setRail i f).rail j = m.rail j :=
  tget_tput_other _ _ _ _ _ h
theorem Mod.setRail_rail_ne (i : Nat) (f : Rail → Rail) (h : f (m.rail i) ≠ {}) : (m.setRail i f).rail i = f (m.rail i) :=
  tget_tput_self_ne _ _ _ _ h
theorem Mod.setRail_rail_wf (i : Nat) (f : Rail → Rail) (h : twf ({} : Rail) m.pwr.rails) : (m.setRail i f).rail i = f (m.rail i) :=
  tget_tput_self _ _ _ _ h
theorem Mod.setTherm_therm_other (i j : Nat) (f : Therm → Therm) (h : j ≠ i) : (m.setTherm i f).therm j = m.therm j :=
  tget_tput_other _ _ _ _ _ h
theorem Mod.setTherm_therm_ne (i : Nat) (f : Therm → Therm) (h : f (m.therm i) ≠ {}) : (m.setTherm i f).therm i = f (m.therm i) :=
  tget_tput_self_ne _ _ _ _ h
theorem Mod.setTherm_therm_wf (i : Nat) (f : Therm → Therm) (h : twf ({} : Therm) m.th.t) : (m.setTherm i f).therm i = f (m.therm i) :=
  tget_tput_self _ _ _ _ h
theorem Mod.setCu_cu_other (i j : Nat) (f : Cu → Cu) (h : j ≠ i) : (m.setCu i f).cu j = m.cu j :=
  tget_tput_other _ _ _ _ _ h
theorem Mod.setCu_cu_ne (i : Nat) (f : Cu → Cu) (h : f (m.cu i) ≠ {}) : (m.setCu i f).cu i = f (m.cu i) :=
  tget_tput_self_ne _ _ _ _ h
theorem Mod.setCu_cu_wf (i : Nat) (f : Cu → Cu) (h : twf ({} : Cu) m.perf.cus) : (m.setCu i f).cu i = f (m.cu i) :=
  tget_tput_self _ _ _ _ h
theorem Mod.setScr_scr_other (i j : Nat) (f : Scr → Scr) (h : j ≠ i) : (m.setScr i f).scr j = m.scr j :=
  tget_tput_other _ _ _ _ _ h
theorem Mod.setScr_scr_ne (i : Nat) (f : Scr → Scr) (h : f (m.scr i) ≠ {}) : (m.setScr i f).scr i = f (m.scr i) :=
  tget_tput_self_ne _ _ _ _ h
theorem Mod.setScr_scr_wf (i : Nat) (f : Scr → Scr) (h : twf ({} : Scr) m.perf.scr) : (m.setScr i f).scr i = f (m.scr i) :=
  tget_tput_self _ _ _ _ h
theorem Mod.setTwr_twr_other (i j : Nat) (f : TwReg → TwReg) (h : j ≠ i) : (m.setTwr i f).twr j = m.twr j :=
  tget_tput_other _ _ _ _ _ h
theorem Mod.setTwr_twr_ne (i : Nat) (f : TwReg → TwReg) (h : f (m.twr i) ≠ {}) : (m.setTwr i f).twr i = f (m.twr i) :=
  tget_tput_self_ne _ _ _ _ h
theorem Mod.setTwr_twr_wf (i : Nat) (f : TwReg → TwReg) (h : twf ({} : TwReg) m.twin.regs) : (m.setTwr i f).twr i = f (m.twr i) :=
  tget_tput_self _ _ _ _ h
theorem Mod.setCrec_crec_other (i j : Nat) (f : CRec → CRec) (h : j ≠ i) : (m.setCrec i f).crec j = m.crec j :=
  tget_tput_other _ _ _ _ _ h
theorem Mod.setCrec_crec_ne (i : Nat) (f : CRec → CRec) (h : f (m.crec i) ≠ {}) : (m.setCrec i f).crec i = f (m.crec i) :=
  tget_tput_self_ne _ _ _ _ h
theorem Mod.setCrec_crec_wf (i : Nat) (f : CRec → CRec) (h : twf ({} : CRec) m.cry.recs) : (m.setCrec i f).crec i = f (m.crec i) :=
  tget_tput_self _ _ _ _ h
theorem Mod.setSeam_seam_other (i j : Nat) (f : Seam → Seam) (h : j ≠ i) : (m.setSeam i f).seam j = m.seam j :=
  tget_tput_other _ _ _ _ _ h
theorem Mod.setSeam_seam_ne (i : Nat) (f : Seam → Seam) (h : f (m.seam i) ≠ {}) : (m.setSeam i f).seam i = f (m.seam i) :=
  tget_tput_self_ne _ _ _ _ h
theorem Mod.setSeam_seam_wf (i : Nat) (f : Seam → Seam) (h : twf ({} : Seam) m.cry.seams) : (m.setSeam i f).seam i = f (m.seam i) :=
  tget_tput_self _ _ _ _ h

end Sys2Proof.Machine
end

