-- ==== Sys2Proof/Laws/Ops.lean ====
section
/-!
SUPPORT. The shared operations that commands go through, each said once: a step and its queue, a command's frame, a register access on a
path, a mailbox command, the causes of an Evacuate, the end of the pair, and the tables behind the module's named updates.
-/

namespace Sys2Proof.Machine

/-! ### A step -/

theorem run_answers (s : State) (op : Mod → Mod) : run s op = answers s (op s.m) := rfl

theorem step_front (s : State) (c : Instr) (rest : List Instr) (h : s.pending = c :: rest) :
    step s = exec c { s with pending := rest } := by
  unfold step; rw [h]

theorem step_empty (s : State) (h : s.pending = []) : step s = .next (idleTick s) := by
  unfold step; rw [h]

theorem answers_pending (s : State) (m : Mod) (t : State) (h : answers s m = .next t) : t.pending = s.pending := by
  unfold answers at h
  generalize Mod.fin s.m m = x at h
  injection h with h
  rw [← h]

/-! ### Register accesses on a path (R290, R298) -/

/-- A write that the path takes joins its queue, and all that can leave the queue leaves it. -/
theorem Mod.pathWrite_takes (m : Mod) (p : Path) (off : Nat) (v : Word) (ok : Bool) (h : pathTakes m p off) :
    m.pathWrite p off v ok = wrote m p off v ok := by
  obtain ⟨h1, h2, h3⟩ := h
  simp [Mod.pathWrite, wrote, h1, h2, h3]

/-- A full queue: the management path answers Busy, the other paths hold the write back (R298). -/
theorem Mod.pathWrite_full (m : Mod) (p : Path) (off : Nat) (v : Word) (ok : Bool) (h1 : m.pathOk p true off = true)
    (h2 : m.reaches off = true) (h3 : m.pathFull (pathNum p) = true) :
    m.pathWrite p off v ok =
      if p = .mgmt then m.emit (.mailbox .mctp 6 []) else m.stall (pathNum p) (.write { idx := off / 4, val := v, ok }) := by
  simp [Mod.pathWrite, h1, h2, h3]

/-- A path that does not exist, or has not the rights, takes no write. -/
theorem Mod.pathWrite_none (m : Mod) (p : Path) (off : Nat) (v : Word) (ok : Bool) (h : m.pathOk p true off = false) :
    m.pathWrite p off v ok = m := by
  simp [Mod.pathWrite, h]

/-- A read that the path gives returns the word, with what the read does. -/
theorem Mod.pathRead_gives (m : Mod) (p : Path) (off : Nat) (h : pathGives m p off) : m.pathRead p off = gave m p off := by
  obtain ⟨h1, h2, h3, h4, h5⟩ := h
  simp [Mod.pathRead, Mod.readNow, gave, h1, h2, h3, h4, h5]

/-! ### Mailboxes (R59, R60) -/

/-- A mailbox command does one of four things: nothing without a link, Unsupported, Busy, or its own effect. -/
theorem Mod.mbox_cases (m : Mod) (b : Mbox) (o : Bool) (w : When) (f : Mod → Mod) :
    (m.mboxUp b = false ∧ m.mbox b o w f = m) ∨
    (m.mboxUp b = true ∧ o = false ∧ m.mbox b o w f = m.emit (.mailbox b 3 [])) ∨
    (m.mboxUp b = true ∧ o = true ∧ m.mboxBusy w = true ∧ m.mbox b o w f = m.emit (.mailbox b 6 [])) ∨
    (m.mboxUp b = true ∧ o = true ∧ m.mboxBusy w = false ∧ m.mbox b o w f = f m) := by
  cases h1 : m.mboxUp b <;> cases o <;> cases h3 : m.mboxBusy w <;> simp [Mod.mbox, h1, h3, Mod.reply]

@[simp] theorem Mod.mboxBusy_early (m : Mod) : m.mboxBusy .early = false := rfl

theorem Mod.mboxBusy_ready (m : Mod) (h : m.fore.ready = true) : m.mboxBusy .ready = false := by simp [Mod.mboxBusy, h]

theorem Mod.mboxBusy_phase4 (m : Mod) (h : m.fore.ready = true) (hp : 4 ≤ m.pwr.phase) : m.mboxBusy .phase4 = false := by
  simp [Mod.mboxBusy, h]; omega

/-! ### What leaves the module -/

@[simp] theorem Mod.emit_out (m : Mod) (o : Out) : (m.emit o).out = m.out ++ [o] := rfl

/-! ### Evacuate, the pair -/

/-- A cause of R196 begins the Evacuate, powers the module down where ARMED was never written, or meets one that runs. -/
theorem Mod.evacCommit_cases (m : Mod) (c : Nat) :
    ((m.per.evac.isSome = true ∨ m.pwr.phase = 0 ∨ m.pwr.aonReset = true) ∧ m.evacCommit c = m) ∨
    (m.per.evac = none ∧ m.pwr.phase ≠ 0 ∧ m.pwr.aonReset = false ∧ m.per.everBudget = true ∧ m.evacCommit c = m.evacStart c) ∨
    (m.per.evac = none ∧ m.pwr.phase ≠ 0 ∧ m.pwr.aonReset = false ∧ m.per.everBudget = false ∧
      m.evacCommit c = m.powerDown (m.pwr.down.getD .m4)) := by
  unfold Mod.evacCommit
  by_cases h1 : m.per.evac = none <;> by_cases h2 : m.pwr.phase = 0 <;> cases h3 : m.pwr.aonReset <;> cases h4 : m.per.everBudget <;>
    simp_all [Option.isSome_iff_ne_none]

/-- A break changes only a pair that stands. -/
theorem Mod.breakPair_other (m : Mod) (c : Nat) (h : m.twin.pair ≠ .paired) : m.breakPair c = m := by simp [Mod.breakPair, h]

/-! ### Counts (R300, R384) -/

/-- Counting an event of the counters changes the counters alone. -/
@[simp] theorem Mod.ctrsAdd_perf_only (m : Mod) (l : List Nat) (n : Nat) :
    (m.ctrsAdd l n).host = m.host ∧ (m.ctrsAdd l n).hop = m.hop ∧ (m.ctrsAdd l n).med = m.med ∧ (m.ctrsAdd l n).evt = m.evt := by
  refine ⟨rfl, rfl, rfl, rfl⟩

/-! ### Updates and their readers -/

theorem Mod.port_setPort_other (m : Mod) (p q : Nat) (f : Port → Port) (h : q ≠ p) : (m.setPort p f).port q = m.port q := by
  unfold Mod.setPort Mod.port tmod; exact tget_tput_other _ _ _ _ _ h

theorem Mod.port_setPort_self (m : Mod) (p : Nat) (f : Port → Port) (h : twf {} m.host.ports = true) :
    (m.setPort p f).port p = f (m.port p) := by
  unfold Mod.setPort Mod.port tmod; exact tget_tput_self _ _ _ _ h

theorem Mod.lp_setLp_other (m : Mod) (p q : Nat) (f : Lp → Lp) (h : q ≠ p) : (m.setLp p f).lp q = m.lp q := by
  unfold Mod.setLp Mod.lp tmod; exact tget_tput_other _ _ _ _ _ h

theorem Mod.frame_setFrame_other (m : Mod) (p q : Nat) (f : Frame → Frame) (h : q ≠ p) : (m.setFrame p f).frame q = m.frame q := by
  unfold Mod.setFrame Mod.frame tmod; exact tget_tput_other _ _ _ _ _ h

theorem Mod.frame_setFrame_self (m : Mod) (p : Nat) (f : Frame → Frame) (h : twf {} m.hop.frames = true) :
    (m.setFrame p f).frame p = f (m.frame p) := by
  unfold Mod.setFrame Mod.frame tmod; exact tget_tput_self _ _ _ _ h

theorem Mod.fm_setFm_other (m : Mod) (p q : Nat) (f : Foreman → Foreman) (h : q ≠ p) : (m.setFm p f).fm q = m.fm q := by
  unfold Mod.setFm Mod.fm tmod; exact tget_tput_other _ _ _ _ _ h

theorem Mod.fm_setFm_self (m : Mod) (p : Nat) (f : Foreman → Foreman) (h : twf {} m.fore.fm = true) :
    (m.setFm p f).fm p = f (m.fm p) := by
  unfold Mod.setFm Mod.fm tmod; exact tget_tput_self _ _ _ _ h

end Sys2Proof.Machine
end

