-- ==== Sys2Proof/Laws/PlateRows.lean ====
section
/-!
SUPPORT. What a row that stands for plate values does, said once: the lemma that gives `rowDone` for a validated row, and for every plate
that is a command what its write makes the module do.
-/

namespace Sys2Proof.Machine

set_option maxRecDepth 2000

theorem Mod.hookOrigin_low (m : Mod) (o : Origin) (w : PWrite) (h : keyIdx w.key < 0x103000) : m.hookOrigin o w = m := by
  have h' : ¬ (0x103000 ≤ keyIdx w.key) := by omega
  simp [Mod.hookOrigin, h']

theorem Mod.hookOrigin_fold (o : Origin) (l : List PWrite) (h : ∀ w ∈ l, keyIdx w.key < 0x103000) (m : Mod) :
    l.foldl (fun m w => m.hookOrigin o w) m = m := by
  induction l with
  | nil => rfl
  | cons w t ih =>
    rw [List.foldl_cons, Mod.hookOrigin_low m o w (h w (by simp)), ih (fun x hx => h x (by simp [hx]))]

/-- A validated row whose writes name no hook ends as `rowDone`, with the effect its commands have. -/
theorem Mod.plateTx_done (m : Mod) (ws : List (Nat × Nat × Word)) (eff : Mod → Mod) (h1 : m.coreOn = true) (h2 : m.fore.ready = true)
    (h3 : m.validate (rowTx ws) = none) (h4 : ∀ w ∈ (rowTx ws).writes, keyIdx w.key < 0x103000)
    (h5 : let m' : Mod := { m.rowFrame with cfg := { m.rowFrame.cfg with plates := writePlates m.rowFrame.cfg.plates (rowTx ws).writes } }
      (rowTx ws).writes.foldl (fun m w => m.plateCmd (rowTx ws).writes w) m' = eff m') :
    m.plateTx ws = m.rowDone ws eff := by
  unfold Mod.plateTx
  rw [if_neg (by simp [h1, h2]), h3]
  show (m.rowFrame).applyTx _ = _
  unfold Mod.rowDone
  generalize m.rowFrame = b at h5 ⊢
  unfold Mod.applyTx Mod.applyWrites
  dsimp only at h5 ⊢
  rw [Mod.hookOrigin_fold _ _ h4]
  exact congrArg (fun x => Mod.txApplied x _) h5

theorem Mod.plateTx_failed (m : Mod) (ws : List (Nat × Nat × Word)) (f : Fail) (h1 : m.coreOn = true) (h2 : m.fore.ready = true)
    (h3 : m.validate (rowTx ws) = some f) : m.plateTx ws = m.txFailed (rowTx ws) f := by
  simp [Mod.plateTx, h1, h2, h3]

theorem Mod.plateCmd_discardFirst (m : Mod) (ws : List PWrite) (i : Nat) (v : Word) : m.plateCmd ws ⟨0x18029, i, v⟩ = m := by
  simp [Mod.plateCmd, keyIdx, isKeyIdx]
theorem Mod.plateCmd_discardCount (m : Mod) (ws : List PWrite) (i : Nat) (v : Word) : m.plateCmd ws ⟨0x1802A, i, v⟩ = m := by
  simp [Mod.plateCmd, keyIdx, isKeyIdx]
theorem Mod.plateCmd_discard (m : Mod) (ws : List PWrite) (i : Nat) (v : Word) : m.plateCmd ws ⟨0x18028, i, v⟩ =
    if bits v 31 30 = 0 then m else m.dStart (bits v 31 30) (bits v 11 0) (m.w 0 0x600A4).toNat (m.w 0 0x600A8).toNat := by
  simp [Mod.plateCmd, keyIdx, isKeyIdx]
theorem Mod.plateCmd_capTest (m : Mod) (ws : List PWrite) (i : Nat) (v : Word) :
    m.plateCmd ws ⟨0x1C004, i, v⟩ = if bit v 8 then m.capStart else m := by
  simp [Mod.plateCmd, keyIdx, isKeyIdx]
theorem Mod.plateCmd_shut (m : Mod) (ws : List PWrite) (i : Nat) (v : Word) :
    m.plateCmd ws ⟨0x1C00F, i, v⟩ = if bits v 1 0 = 1 then m.orderlyStart 1 else m := by
  simp [Mod.plateCmd, keyIdx, isKeyIdx]
theorem Mod.plateCmd_pcmd (m : Mod) (ws : List PWrite) (i : Nat) (v : Word) : m.plateCmd ws ⟨0x28041, i, v⟩ = m.pcmd (bits v 2 0) := by
  simp [Mod.plateCmd, keyIdx, isKeyIdx]
theorem Mod.plateCmd_tw1 (m : Mod) (ws : List PWrite) (i : Nat) (v : Word) (h : bits v 31 28 = 1) :
    m.plateCmd ws ⟨0x20015, i, v⟩ = m.twAttach := by
  simp [Mod.plateCmd, keyIdx, isKeyIdx, h]
theorem Mod.plateCmd_tw2 (m : Mod) (ws : List PWrite) (i : Nat) (v : Word) (h : bits v 31 28 = 2) :
    m.plateCmd ws ⟨0x20015, i, v⟩ = m.twDetach := by
  simp [Mod.plateCmd, keyIdx, isKeyIdx, h]
theorem Mod.plateCmd_tw4 (m : Mod) (ws : List PWrite) (i : Nat) (v : Word) (h : bits v 31 28 = 4) :
    m.plateCmd ws ⟨0x20015, i, v⟩ = m.twRepair (bits v 11 0) (bit v 27) := by
  simp [Mod.plateCmd, keyIdx, isKeyIdx, h]

end Sys2Proof.Machine
end

