-- ==== Sys2Proof/Laws/Program.lean ====
section
/-!
SUPPORT. A foreman before and after its step is counted, and what a foreman that stands before an instruction does: the lemmas through
which every statement about a Bauri instruction goes.
-/

namespace Sys2Proof.Machine

/-- Counting a step changes the step count alone; the count of a foreman that has counted one is in its table. -/
@[simp] theorem Mod.countStep_fm (m : Mod) (f : Nat) : (m.countStep f).fm f = { m.fm f with steps := (m.fm f).steps + 1 } := by
  unfold Mod.countStep Mod.setFm Mod.fm tmod
  exact tget_tput_self_ne _ _ _ _ (fun h => by have h := congrArg Foreman.steps h; simp at h)

@[simp] theorem Foreman.val_steps (x : Foreman) (n : Nat) (r : BitVec 5) : Foreman.val { x with steps := n } r = x.val r := rfl
@[simp] theorem Foreman.reg_steps (x : Foreman) (n r : Nat) : Foreman.reg { x with steps := n } r = x.reg r := rfl
@[simp] theorem Foreman.dbeIn_steps (x : Foreman) (n a k : Nat) : Foreman.dbeIn { x with steps := n } a k = x.dbeIn a k := rfl
@[simp] theorem Foreman.bytes_steps (x : Foreman) (n a k : Nat) : Foreman.bytes { x with steps := n } a k = x.bytes a k := rfl
@[simp] theorem Foreman.plateIdx_steps (x : Foreman) (n : Nat) (e : Bool) (i : BitVec 20) :
    Foreman.plateIdx { x with steps := n } e i = x.plateIdx e i := rfl
@[simp] theorem Foreman.evSrc_steps (x : Foreman) (n : Nat) (r : BitVec 5) (i : BitVec 14) :
    Foreman.evSrc { x with steps := n } r i = x.evSrc r i := rfl
@[simp] theorem Foreman.depth_steps (x : Foreman) (n : Nat) : Foreman.depth { x with steps := n } = x.depth := rfl

/-- A foreman that stands before an instruction executes it: the step is counted, then its effect, then a halt that was asked for. -/
theorem Mod.bauri_stands (m : Mod) (f : Nat) (b : BOp) (h : Stands m f b) :
    m.bauri f b = ((m.countStep f).bexec f b).haltHold f := by
  obtain ⟨h1, h2, h3⟩ := h
  simp [Mod.bauri, h1, h2, h3]

/-- A foreman that does not stand before it is not changed by an instruction's command, but for a spent budget. -/
theorem Mod.bauri_other (m : Mod) (f : Nat) (b : BOp) (h : (m.fm f).spent = false) (hb : (m.fetch f).bind bdecode ≠ some b) :
    m.bauri f b = m := by
  simp [Mod.bauri, h, hb]

end Sys2Proof.Machine
end

