-- ==== Sys2Proof/Tests/Slice0.lean ====
section
/-!
SUPPORT. Tests of the model. The smoke tests of well-formedness; the words of R288's worked example; single steps whose expected results
stand in the spec; and, for each statement of Sys2Proof/Certificates/Slice0/Obligations.lean that has hypotheses, one theorem with a
concrete state and operands that meet the hypotheses of each of its clauses.
-/

namespace Sys2Proof.Tests

open Sys2Proof.Machine

set_option maxRecDepth 100000
set_option exponentiation.threshold 2100

/-! ### Small modules -/

/-- A running module: every rail in window, PHASE 5, M0, programs accepted, port 0 in L0 with a credit of each kind. -/
def up : Mod := {
  pwr := { vinOn := true, aonReset := false, phase := 5, rails := (List.range 12).map (fun k => (k, { st := .inWindow })) }
  fore := { ready := true }
  host := { ports := [(0, { link := .l0, reqCr := 1, rwdCr := 1 })], lps := [(0, { enabled := true })] } }

/-- Only AON runs. -/
def aon : Mod := { pwr := { vinOn := true, aonReset := false, pstate := 4 } }

/-- The running module as a state. -/
def upS : State := { m := up }

/-- Foreman 0 stands before an instruction, with `g` in its registers. -/
def before (b : BOp) (g : Tbl Dword) : Mod := { up with
  fore := { up.fore with
    store := [(0xA0000, bencode b)]
    fm := [(0, { prog := some { org := {}, base := 0xA0000, size := 4, q := none, budget := 100 }, pc := 0xA0000, g := g })] } }

/-- A module paired over a Twin Link that runs. -/
def pairedM : Mod := { up with twin := { up.twin with pair := .paired, trained := true, helloed := true } }

/-- A module that attaches. -/
def attachM : Mod := { up with twin := { up.twin with pair := .attaching, trained := true, helloed := true } }

/-- A module in Evacuate, at a step. -/
def evacAt (n : Nat) : Mod := { up with per := { up.per with evac := some { step := n, cause := 1 }, everBudget := true } }

/-- The running module with region 0 over device granule 0, its key loaded, and LP 0's first gibibyte at host address 0x10000000 mapped to
it; `w` is added to the region's word 0. -/
def mapped (w : Word) : Mod := { up with
  cfg := { plates := [(0x80000, 0x80000000 ||| w), (0x80001, 0x10000), (0x90000, 0x80000000), (0x90001, 1)] }
  cry := { slots := [(0, some ⟨1, 2, 3⟩)] }
  host := { up.host with lps := [(0, { enabled := true, static := 1, dcLen := 4, hdm := [(0, some ⟨0x10000000, 0x40000000, 1, 256, 0, 0⟩)] })] } }

/-! ### Well-formedness refuses -/

theorem test_wf_request : Instr.wf (.memRd 0 1 ⟨0, {}⟩) = false ∧ Instr.wf (.memWr 0 (2 ^ 52) 0 0 false) = false ∧ Instr.wf (.memRd 0 64 ⟨0, {}⟩) = true := by
  decide

theorem test_wf_key : Instr.wf (.keyLoad 0 [0, 1]) = false ∧ Instr.wf (.seamStart 0 0 []) = false ∧
    Instr.wf (.keyLoad 0 (List.replicate 16 0)) = true := by decide

theorem test_wf_thermal : Instr.wf (.thermalModelUpdate [] [] [] 0 [] 0) = false ∧ Instr.wf (.railFault 3 .under []) = false := by decide

theorem test_wf_range : Instr.wf (.readRegisters 0 0) = false ∧ Instr.wf (.writeRegisters 0 []) = false ∧
    Instr.wf (.registerWrite .bar 0x200000 0x0F [0]) = false ∧ Instr.wf (.setTimestamp .mctp (2 ^ 64)) = false ∧
    Instr.wf (.readRegisters 0 1) = true := by decide

/-! ### Single steps with results from the spec -/

/-- R15, R22: a frame boundary stands at a multiple of 1,000 ns. -/
theorem test_frame_boundary : (({ m := { aon with time := { dtc := 1001 } }, pending := [.frameBoundary] } : State) |> step |> fun o =>
    match o with | .next t => t.m.time.dtc | _ => 0) = 2000 := by decide

/-- R340: above 24 V the module makes no claim; 24 V itself is inside the ratings. -/
theorem test_overvoltage : step { m := up, pending := [.vinOvervoltage 24001] } = .fault .outsideRatings ∧
    (∃ t, step { m := aon, pending := [.vinOvervoltage 24000] } = .next t) := ⟨rfl, ⟨_, rfl⟩⟩

/-- R267: a taken branch goes forward from the next word. -/
theorem test_branch : ((exec (.j 0 2) { m := before (.j 2) [] }) |> fun o =>
    match o with | .next t => (t.m.fm 0).pc | _ => 0) = 0xA0003 := by decide

/-- R264: a quotient by zero is all ones. -/
theorem test_divide_by_zero : ((exec (.divu 0 1 2 3) { m := before (.alu .divu 1 2 3) [(2, 7)] }) |> fun o =>
    match o with | .next t => (t.m.fm 0).reg 1 | _ => 0) = 0xFFFFFFFFFFFFFFFF := by decide

/-- R59: a host LD's mailbox does not offer Set Timestamp. -/
theorem test_unsupported : ((exec (.setTimestamp (.ld 0) 5) upS) |> fun o =>
    match o with | .next t => t.m.out | _ => []) = [.mailbox (.ld 0) 3 []] := by decide

/-- R288: words of the worked example, and the word of zeros, which is no instruction. -/
theorem test_example_words : bdecode 0x24A00108 = some (.li 5 0x108) ∧ bdecode 0x28B46488 = some (.lih 5 0x146488) ∧
    bdecode 0x6400D803 = some (.loopi 54 3) ∧ bdecode 0x84C10000 = some (.pst 6 false 0x10000) ∧
    bdecode 0x50E04007 = some (.br 7 0 2 7) ∧ bdecode 0x89040043 = some (.pwait 8 false 0x40043) ∧ bdecode 0 = none := by decide

/-- The worked example of spec/04_hopper.md: frame 14,938,261, line 13. -/
theorem test_hopper_place : up.hopLoc 14938261 13 =
    { ch := 25, slot := 276634, bank := 10, row := 34578, col := 832, ckBank := 2, ckRow := 62576, ckByte := 616 } := by decide

/-- R446: H3-D17 is HL7_RXP[0], T-B9 is TW_TXN[8], and the segments hold 1,688 contacts. -/
theorem test_connector : laneOfH 3 17 = (7, 0) ∧ laneWire 3 = .rxp ∧ laneOfT 9 = 8 ∧ laneWire 1 = .txn ∧ contactCount = 1688 := by decide

/-- R125: 0x80 doubled leaves the polynomial x^4 + x^3 + x^2 + 1, and g^8 is the same. -/
theorem test_galois_double : gfTwice 0x80 = 0x1D ∧ gfPow 8 = 0x1D := by decide

/-! ### The statements' hypotheses are met -/

theorem wit_StepTakesTheFrontCommand : ({ pending := [.recallEnd, .dtcSave] } : State).pending = .recallEnd :: [.dtcSave] ∧
    State.reset.pending = [] := by decide

theorem wit_StepLeavesTheQueuesRest : ∃ t, step { pending := [.recallEnd] } = .next t ∧ t.pending = [] := ⟨_, rfl, rfl⟩

theorem wit_AlertLineFollowsItsRule : State.reset.m.evt.alert = alertRule State.reset.m ∧
    ∃ t, step { pending := [.recallEnd] } = .next t := ⟨by decide, ⟨_, rfl⟩⟩

theorem wit_TimeAndClockCommandsAnswer : up.pwr.aonReset = false ∧ up.pwr.phase ≠ 0 ∧ (up.isl 40).suspect = false ∧
    ((up.isl 40).missed = 0 ∧ (-2 : Int) ≤ -2 ∧ (2 : Int) ≤ 2) ∧ (up.isl 40).stalled = false ∧ (evacAt 3).per.evac.isSome = true ∧
    (∀ b ∈ [false, true],
      let m : Mod := { up with per := { up.per with everBudget := b } }
      m.per.evac = none ∧ (m.isl 40).stalled = false ∧
        ((((m.setIsl 40 (fun x => { x with stalled := true })).bump cTime).timeRec 40 2 0).evacCommit 4).per.evac.isSome = b) ∧
    up.time.lastAdj = none ∧
    ({ up with time := { dtc := 1000005, lastAdj := some 5 } } : Mod).time.lastAdj = some 5 ∧ 5 + 1000000 ≤ 1000005 ∧ 1000004 < 5 + 1000000 ∧
    ([((4097, 3, ⟨0, 0, 0⟩) : Nat × Nat × Slot)].find? (fun x => x.1 = 4097)) = some (4097, 3, ⟨0, 0, 0⟩) ∧
    up.host.reqs = [] ∧ up.hop.merge = [] ∧
    up.coreOn = true ∧ bits (up.w 15 0x120004) 6 0 ≠ 0 ∧ (up.scr 15).next + 1 ≠ scrRegions 15 ∧ (up.scr 15).failed = false := by decide

/-- A request of LP 0 for line 0, waiting for an ACK or not. -/
def req0 (id : Nat) (w : Option Nat) : Req := {
  id, lp := 0, op := .read, htag := 0, line := 0, region := 0, cls := .standard, demoted := false, free := true, stamp := 0, deadline := 0,
  mirror := 0, security := 0, key := none, step := 0, answer := none, waitMsn := w, data := 0, mask := 0, wpoison := false }

/-- The port in a link state. -/
def linkAt (l : LinkState) (r : Bool) : Mod := { up with host := { up.host with ports := [(0, { link := l, perst := r })] } }

theorem wit_HostPortCommandsAnswer :
    ((linkAt .training false).linksOn = true ∧ ((linkAt .training false).port 0).perst = false ∧
      ((linkAt .training false).port 0).link = .training) ∧
    (up.port 0).link = .l0 ∧ ((linkAt .recovery false).port 0).link = .recovery ∧ (linkAt .recovery false).pwr.pstate ≠ 2 ∧
    (linkAt .recovery false).linksOn = true ∧
    (∀ r ∈ up.host.reqs, r.lp / 16 ≠ 0) ∧ (∀ h ∈ up.host.held, h.req.lp / 16 ≠ 0) ∧
    (((linkAt .l1 false).port 0).link = .l1 ∧ (linkAt .l1 false).pwr.pstate ≠ 2) ∧
    (let m : Mod := { linkAt .l1 false with pwr := { up.pwr with pstate := 2 } }
     (m.port 0).link = .l1 ∧ m.pwr.pstate = 2) ∧
    (up.linkDown 15).path.ctlPort ≠ 15 ∧
    (((linkAt .down true).port 0).perst = true ∧ (linkAt .down true).linksOn = true) ∧
    ((up.port (15 / 16)).link = .l0 ∧ (up.lp 15).enabled = false ∧ (up.src 15).pending = false) ∧
    (let m : Mod := { up with evt := { srcs := [(15, { pending := true })] } }
     (m.port (15 / 16)).link = .l0 ∧ (m.lp 15).enabled = false ∧ (m.src 15).pending = true ∧ (m.src 15).done.testBit 0 = false) ∧
    (7 < 2 ^ 3 ∧ 0x10000000 % 0x10000000 = 0 ∧ 0x80000000 % (0x10000000 * 2 ^ 3) = 0) ∧
    (let h : Held := ⟨req0 9 none, none⟩
     let m : Mod := { up with time := { dtc := 1 }, host := { up.host with held := [h] } }
     m.host.held.find? (fun h => h.req.id = 9) = some h ∧ h.req.deadline < m.time.dtc) ∧
    (let h : Held := ⟨{ req0 9 none with deadline := 998 }, none⟩
     let m : Mod := { up with time := { dtc := 998 }, host := { up.host with held := [h] } }
     m.pwr.aonReset = false ∧ m.host.held = [h] ∧ m.host.reqs = [] ∧ m.lineAskers = [] ∧ m.cry.linger = [] ∧ m.twin.recs = [] ∧
       m.med.reads = [] ∧ m.time.dtc ≤ h.req.deadline ∧ h.req.deadline + 1 < m.nextB) ∧
    ({ up with per := { budget := 1 } } : Mod).per.budget ≠ 0 ∧ up.per.budget = 0 ∧
    (let m : Mod := { up with host := { up.host with ports := [(0, { link := .l0, gpfWait := true })] } }
     (m.port 0).gpfWait = true ∧ (∀ e ∈ m.hop.frames, e.2.d = false ∨ e.2.imgHeld = true) ∧ m.hop.pwq = [] ∧
       (∀ e ∈ m.hop.merge, e.acked = false)) := by decide

theorem wit_UnmappedRequestsAreAnswered : up.canStamp 0 = true ∧ (up.takeCredit 0 false).decodeHpa 0 0 = none ∧
    (up.takeCredit 0 true).decodeHpa 0 0 = none ∧ aon.canStamp 0 = false ∧
    (let m : Mod := { mapped 0 with tx := { up.tx with takeNext := [0] } }
     m.canStamp 0 = true ∧ (m.takeCredit 0 false).decodeHpa 0 0x10000040 = some 1 ∧
       (m.takeCredit 0 false).notHome ((m.takeCredit 0 false).regOfLine 1) = true ∧ (m.takeCredit 0 true).decodeHpa 0 0x10000040 = some 1 ∧
       (m.takeCredit 0 true).notHome ((m.takeCredit 0 true).regOfLine 1) = true) := by decide

theorem wit_MappedRequestsAreServed : (mapped 0).canStamp 0 = true ∧
    ((mapped 0).takeCredit 0 false).decodeHpa 0 0x10000040 = some 1 ∧ ((mapped 0).takeCredit 0 true).decodeHpa 0 0x4FFFFFC0 = some 16777215 ∧
    ((mapped 0).takeCredit 0 false).notHome (((mapped 0).takeCredit 0 false).regOfLine 1) = false ∧
    ((mapped 0).takeCredit 0 true).notHome (((mapped 0).takeCredit 0 true).regOfLine 16777215) = false ∧
    ({ dir := .double } : Checks).dir = .double := by decide

/-- A read finds line 0 in frame 0, which does not fill; a write is taken; a write of a class that bars it, and one behind another. -/
theorem wit_MappedRequestForms :
    (let c := ({ mapped 0 with hop := { frames := [(0, { v := true, valid := 1 })] } } : Mod).takeCredit 0 false
     let x := c.stampReq 0 .read 0 0 (c.regOfLine 0) 0 0 false
     let r : Req := { x.1.1 with mask := 0, data := 0, cell := none }
     let m := (x.2.setReq r.id (fun _ => r)).happen 0x06 1
     x.2.laid 0 = (0, 0) ∧ x.1.1.security < 2 ∧ x.2.wayOf (0 / 64) = some 0 ∧ (x.2.frame 0).f = false ∧ m.poisonAhead 0 r.id = false ∧
       m.findLine (0 / 64) (0 % 64) = some 0) ∧
    (let c := (mapped 0).takeCredit 0 true
     let x := c.stampReq 0 .ptl 0 0 (c.regOfLine 0) 0 0 false
     let m := x.2.happen 0x07 1
     x.2.wayOf (0 / 64) = none ∧ m.discardWhy x.1.1 = none ∧ m.fullAhead 0 x.1.1.id = false ∧ m.poisoned 0 = false) ∧
    (let w : Req := { req0 0 none with op := .write, free := false, key := some ⟨1, 2, 3, 1⟩ }
     let c := ({ mapped 0 with host := { (mapped 0).host with reqs := [w], nextReq := 1 } } : Mod).takeCredit 0 true
     let x := c.stampReq 0 .ptl 0 0 (c.regOfLine 0) 0 0 false
     let m := x.2.happen 0x07 1
     m.discardWhy x.1.1 = none ∧ m.fullAhead 0 x.1.1.id = true) ∧
    (let c := ({ mapped 0 with upk := { (mapped 0).upk with ronly := true } } : Mod).takeCredit 0 true
     let x := c.stampReq 0 .write 0 0 (c.regOfLine 0) 0 (~~~ 0) false
     let m := x.2.happen 0x07 1
     (m.discardWhy x.1.1).isSome = true) := by decide

theorem wit_LateRequestCommandsAnswer :
    (let m : Mod := { pairedM with host := { up.host with reqs := [req0 1 none, req0 2 (some 7)] } }
     m.reqById 1 = some (req0 1 none) ∧ (req0 1 none).waitMsn = none ∧
     m.reqById 2 = some (req0 2 (some 7)) ∧ (req0 2 (some 7)).waitMsn.isSome = true ∧ m.twin.pair = .paired) ∧
    (let r : Req := { req0 1 none with deadline := 999 }
     let m : Mod := { up with time := { dtc := 978 }, host := { up.host with reqs := [r] } }
     m.pwr.aonReset = false ∧ m.reqById 1 = some r ∧ m.host.reqs = [r] ∧ r.id = 1 ∧ r.op = .read ∧ r.waitMsn = none ∧ m.host.held = [] ∧
       m.lineAskers = [] ∧ m.cry.linger = [] ∧ m.twin.recs = [] ∧ m.med.reads = [] ∧ m.time.dtc + 20 < r.deadline ∧ r.deadline < m.nextB) ∧
    ReqOp.ptl.isWrite = true := by decide

theorem wit_MailboxRefusalCodesAreReturned : up.mboxUp (.ld 15) = true ∧ up.mboxUp .mctp = true ∧ isLd (.fmld 0) = false ∧
    up.mboxUp (.fmld 0) = true ∧ ({ up with fore := {} } : Mod).fore.ready = false ∧
    ({ up with fore := {} } : Mod).mboxUp (.ld 0) = true := by decide

theorem wit_InformationMailboxCommandsAnswer : up.mboxUp (.ld 0) = true ∧ up.fore.ready = true ∧ up.mboxUp (.fmld 0) = true ∧
    4 ≤ up.pwr.phase := by decide

theorem wit_PoisonMailboxCommandsAnswer :
    (let m : Mod := mapped 0
     m.mboxUp (.ld 0) = true ∧ m.fore.ready = true ∧ 4 ≤ m.pwr.phase ∧ bit (m.w 0 0x10048) 0 = false ∧ m.dpaLine 0 64 = some 1 ∧
     m.writeBar (m.regionOfPage (1 / 64)) (m.secOf (m.regionOfPage (1 / 64))) = none ∧
     (m.keyFor (m.regionOfPage (1 / 64)) 1).isSome = true ∧
     (m.place (1 / 64) (1 % 64) {} false (m.tagged (m.regionOfPage (1 / 64)))).isSome = true) := by decide

/-- A line without a key; a line whose frame finds no place; a class that bars the write. -/
theorem wit_PoisonClearForms :
    ({ mapped 0 with cry := {} } : Mod).keyFor 0 1 = none ∧
    (let m : Mod := { mapped 0 with
      hop := { frames := [(0, { v := true, p := true })], chans := (List.range 54).map (fun c => (c, { failed := true })) } }
     (m.place (1 / 64) (1 % 64) {} false (m.tagged 0)).isNone = true) ∧
    (let m : Mod := { mapped 0 with upk := { (mapped 0).upk with ronly := true } }
     (m.writeBar 0 (m.secOf 0)).isSome = true) := by decide

theorem wit_InjectionIsEnabled :
    (let m : Mod := { mapped 0 with cfg := { plates := tput 0 (mapped 0).cfg.plates (pkey 0 (0x10048 / 4)) 1 } }
     bit (m.w 0 0x10048) 0 = true ∧ m.dpaLine 0 64 = some 1) := by decide

theorem wit_DynamicCapacityCommandsAnswer :
    (let m : Mod := { mapped 0 with
      cfg := { plates := [(0x80000, 0x80000000), (0x80001, 0x40000), (0x90080, 0x80010000), (0x90081, 1)] }
      host := { up.host with lps := [(0, { enabled := true, static := 1, dcLen := 3, offers := [⟨2, 1, 1⟩] })] } }
     m.mboxUp (.ld 0) = true ∧ m.fore.ready = true ∧ (m.lp 0).offers.find? (fun x => x.dpa = 2) = some ⟨2, 1, 1⟩ ∧
     m.extentLies 0 ⟨2, 1, 1⟩ = true ∧ m.extentLies 0 ⟨7, 1, 1⟩ = false ∧
     m.holdsExtent 0 1 = true ∧ m.mboxUp (.fmld 0) = true ∧ (0 : Fin 16).val = (0 : Fin 256).val / 16 ∧ m.extentOk 0 ⟨3, 3, 1⟩ = true) := by
  decide

theorem wit_PortManagementCommandsAnswer : up.mboxUp (.fmld 0) = true ∧ up.fore.ready = true ∧
    up.allocOk (16 * 0 + 15) 16384 0 = true := by decide

theorem wit_FirmwareCommandsFollowTheSlots : up.mboxUp (.fmld 0) = true ∧ up.path.ctlPort = 0 ∧ up.fore.ready = true ∧
    ((2 : Fin 3).val = 2 ∧ (0 : Fin 3).val ≠ 2 ∧ (0 : Fin 3).val ≠ up.nv2.fwRun) ∧
    (let m : Mod := { up with nv2 := { fwRun := 1, fwBad := [0] } }
     (1 : Fin 3).val = m.nv2.fwRun ∧ (0 : Fin 3).val ∈ m.nv2.fwBad ∧ (1 : Fin 3).val ∉ m.nv2.fwBad) := by decide

theorem wit_VendorControlCommandsAnswer : up.pwr.aonReset = false ∧ up.fore.ready = true ∧ (up.queue 0).ok = true ∧
    ([0] : List Word) ≠ [] ∧ (List.replicate 2044 (0 : Word)).length ≤ 2044 ∧ (10000000 : Word).toNat ≤ 10000000 ∧ up.per.evac = none ∧
    (up.queue 0).resetting = false ∧ (up.queue 0).count < 64 ∧ up.readWaits 1 (4 * (0xFFFFFFFF : Word).toNat) = false ∧ (up.pathQ 1).wait = [] ∧
    ((up.port 0).link ≠ .down ∧ (up.port 0).link ≠ .training) ∧ 16 ≤ 16 ∧ (up.port 15).link = .down ∧
    (let m : Mod := { up with twin := { up.twin with regs := [(5, { held := true })] }, cfg := { plates := [(0x80014, 0x82000000), (0x80015, 0x10000)] } }
     m.takeoverOk 0 5 1 = true) := by decide

theorem wit_VendorQueryAndManagementCommandsAnswer : up.mboxUp (.ld 0) = true ∧ up.fore.ready = true ∧ up.pwr.aonReset = false ∧
    windowRange 0x1FFFFC 2 = false ∧ windowRange 0x1FFFFC 1 = true ∧ (∀ i < 1, up.readWaits 1 (0x1FFFFC + 4 * i) = false) ∧
    ([0] : List Word).length + (up.pathQ 1).q.length ≤ 64 ∧ (up.pathQ 1).wait = [] ∧ ({ up with evt := { alert := true } } : Mod).evt.alert = true ∧
    up.evt.alert = false := by decide

/-- Frame 0 holds page 0 with every line; its flags are given. -/
def frm (x : Frame) : Mod := { mapped 0 with hop := { (mapped 0).hop with frames := [(0, x)] } }

theorem wit_HopperCommandsAnswer :
    (let a : Access := { id := 4, who := .req 1, ch := 0, frame := 0, lineNo := 0, cell := {}, cached := false }
     let m : Mod := { up with host := { up.host with reqs := [req0 1 none] }, hop := { up.hop with access := [a] } }
     m.hop.access.find? (fun x => x.id = a.id) = some a ∧ a.who = .req 1 ∧ a.cell.flip = 0 ∧ m.hopServes a.who = true ∧ m.arbServes a = true ∧ m.reqById 1 = some (req0 1 none)) ∧
    (let m : Mod := { frm { v := true } with hop := { (frm { v := true, valid := 1 }).hop with chans := [(53, { rewriteQ := [(0, 1)], starve := 128 })] } }
     m.hopRuns = true ∧ (m.hch 53).rewriteQ = (0, 1) :: [] ∧ (m.frame 0).valid.getLsbD 1 = false ∧ (m.hch 53).starve.testBit 7 = true) ∧
    (let m : Mod := { frm { v := true } with hop := { (frm { v := true, valid := 2 }).hop with chans := [(0, { rewriteQ := [(0, 1)] })] } }
     (m.hch 0).rewriteQ = (0, 1) :: [] ∧ (m.frame 0).valid.getLsbD 1 = true ∧ m.queued 0 1 = none) ∧
    up.hopRuns = true ∧ (up.hch 53).failed = false ∧ (up.hch 53).starve.testBit 7 = false ∧ up.starveTh 53 0 ≠ 0 ∧ up.coreOn = true ∧
    (let e : Pwe := { ch := 0, tightPool := false, frame := 0, line := 0, cell := {}, page := 0 }
     let m : Mod := { frm { v := true } with hop := { (frm { v := true }).hop with pwq := [e] } }
     m.hopRuns = true ∧ (m.hch 0).failed = false ∧ m.arbPick 0 = some (some 1, .post) ∧ m.pweLive e = true ∧ m.hop.pwq.find? (fun e => e.ch = (0 : Fin 54).val) = some e) ∧
    (let e : Mbe := { share := .host, lineNo := 63, region := 0, mask := 0, data := 0, wpoison := false, acked := false, waiting := [],
                      tight := false, stamp := 0, fore := none, msn := 0 }
     let m : Mod := { up with hop := { up.hop with merge := [e] } }
     m.hop.merge.find? (fun e => e.lineNo = 0 * 64 + (63 : Fin 64).val && e.waiting.isEmpty) = some e) ∧
    up.nextClean = none ∧
    (let m : Mod := { frm { v := true, d := true, valid := ~~~ 0, dirty := 1 } with
       hop := { (frm { v := true, d := true, valid := ~~~ 0, dirty := 1 }).hop with flushQ := [0] } }
     4 ≤ m.pwr.phase ∧ m.per.evac = none ∧ m.nextClean = some 0) ∧
    ((frm { v := true }).frame 0).cleaning = false ∧
    (let m := frm { v := true, d := true, valid := 1, copied := 1, cleaning := true }
     (m.frame 0).cleaning = true ∧ ((m.cleanDone 0).frame 0).cleaning = false) ∧
    4294967295 < 2 ^ 32 ∧ 4294967295 ∉ up.hop.badMap := by decide

theorem wit_ScrubCorrectsOneLane :
    (let m := frm { v := true, valid := 1 }
     m.hopRuns = true ∧ bits (m.w 0 0x40110) 23 0 ≠ 0 ∧ 0 < m.mapBase ∧ 0 < m.posEnd ∧ (m.hch (m.chanOf 0)).failed = false ∧ m.hop.scrubAt ≤ 0 ∧
     (m.frame 0).valid.getLsbD 0 = true ∧ m.queued 0 0 = none ∧ laneCount ((0 : BitVec 16) ||| 0) = 0 ∧ laneCount ((0 : BitVec 16) ||| 0x8000) = 1 ∧
     laneCount ((1 : BitVec 16) ||| 0x8000) = 2) := by decide

/-- A media read of page 0 that has a Tight booking. -/
def mread0 : MRead := {
  id := 3, who := .req 1, page := 0, cw := 0, loc := 0x10, book := some (0, 9), rebuild := false, got := 0, bad := 0, stamp := 0 }

theorem wit_FillAndTransferCommandsAnswer :
    (let m : Mod := { mapped 0 with med := { (mapped 0).med with reads := [mread0] } }
     m.med.reads.find? (fun q => q.id = mread0.id) = some mread0 ∧ m.mediaRuns = true ∧
     m.wants (m.tagged (m.regionOfPage mread0.page)) mread0 9 = true ∧ mread0.book = some (0, 9)) ∧
    (let r : MRead := { mread0 with book := none, rebuild := true }
     let m : Mod := { mapped 0 with time := { dtc := 60 }, med := { (mapped 0).med with reads := [r] } }
     m.med.reads.find? (fun q => q.id = r.id) = some r ∧ m.mediaRuns = true ∧ m.wants (m.tagged (m.regionOfPage r.page)) r 9 = true ∧
       r.book = none ∧ m.medServes (mcOf (enSg r.loc) 9) r = true ∧ m.openSlot (mcOf (enSg r.loc) 9) + 30 ≤ m.time.dtc) ∧
    (let m : Mod := { mapped 0 with time := { dtc := 59 }, med := { (mapped 0).med with reads := [mread0] } }
     9 + 30 ≤ m.time.dtc ∧ 9 + 50 ≤ m.time.dtc ∧ mread0.done = false ∧ mread0.decoded < 8) ∧
    (let m := frm { v := true, f := true }
     (m.frame 0).v = true ∧ (m.frame 0).f = true ∧ m.per.evac = none ∧ m.entryBad (m.frame 0).page (m.regionOfPage (m.frame 0).page) = false) ∧
    (let m : Mod := { up with hop := { up.hop with pinLoad := some (4095, 0, false) } }
     m.hop.pinLoad = some ((4095 : Fin 4096).val, 0, false) ∧ m.per.evac = none ∧
       Mod.pinPages ((List.range (regPages (m.rw1 4095) - 0)).map (fun i => regPage0 (m.rw1 4095) + 0 + i)) m = some m) := by decide

theorem wit_MediumAndPatrolCommandsAnswer :
    (let r : Row := { id := 1, wr := .clean, setB := false, sg := 0, blk := 5, wl := 0, tagged := false, pages := [], started := true,
                      since := 0, verified := 0, seq := 0 }
     let m : Mod := { up with med := { up.med with rows := [r], dies := [(90, { op := some { reset := false, key := 1, at_ := 0 } })] } }
     m.med.rows.find? (fun q => q.id = r.id) = some r ∧
       (m.die (dieOf r.sg (9 : Fin 10))).op.any (fun o => !o.reset && o.key = r.id) = true ∧ r.dead = false) ∧
    (let r : Row := { id := 1, wr := .clean, setB := false, sg := 0, blk := 5, wl := 0, tagged := false, pages := [⟨0, 0, none, []⟩],
                      started := false, since := 5, verified := 0, seq := 0 }
     let m : Mod := { up with time := { dtc := 5 + 1000 * 16383 }, med := { up.med with rows := [r] } }
     m.med.rows.find? (fun q => q.id = r.id) = some r ∧ r.started = false ∧ r.pages ≠ [] ∧ m.per.evac = none ∧
       r.since + 1000 * bits (m.w 0 0x50104) 13 0 ≤ m.time.dtc) ∧
    (let e : JRec × Nat := (⟨0, 0, 0, 0⟩, 0)
     let m : Mod := { up with med := { up.med with staged := [e] } }
     m.med.staged = e :: []) ∧
    up.coreOn = true ∧ up.med.staged = [] ∧ 4 ≤ up.pwr.phase ∧ up.per.evac = none ∧
    (let m : Mod := { up with med := { up.med with dies := [(199, { op := some { reset := true, key := bkey 19 16383, at_ := 0 } })] } }
     (m.die (dieOf 19 (9 : Fin 10))).op.any (fun o => o.reset && o.key = bkey 19 16383) = true) ∧
    ({ up with time := { dtc := 10000 }, upk := { up.upk with blks := [(bkey 19 16383, { st := .full })] } } : Mod).canPend (bkey 19 16383) = true ∧
    (up.die 199).failed = false ∧ (up.mch 19).failed = false ∧ up.pwr.aonReset = false ∧
    (let m : Mod := { up with time := { dtc := 1000000000 } }
     m.fb.aged < m.time.dtc / 1000000000) ∧ up.time.dtc / 1000000000 ≤ up.fb.aged ∧
    (let m : Mod := { up with th := { up.th with t := [(64 + 199, { temp := 160 })] } }
     100 * ((m.die 199).tbucket : Int) + 160 ≤ (m.therm (64 + 199)).temp) ∧
    (let m : Mod := { up with th := { up.th with t := [(64 + 199, { temp := 159 })] } }
     100 * ((m.die 199).tbucket : Int) + 40 ≤ (m.therm (64 + 199)).temp ∧
       (m.therm (64 + 199)).temp < 100 * ((m.die 199).tbucket : Int) + 160) ∧
    aon.patrolRuns = false ∧
    (let m : Mod := { up with
       fb := { up.fb with passTotal := 1, refq := [⟨0, 5, some 0, false⟩] }
       upk := { up.upk with blks := [(5, { st := .full, nextWl := 512 })] } }
     m.patrolRuns = true ∧ m.fb.passTotal ≠ 0 ∧ (m.blk (bkey 0 5)).patrolled = true ∧
       (511 : Fin 512).val < (m.blk (bkey 0 5)).wordlines ∧ m.dieFailed (dieOf 0 9) = false ∧ (m.therm (64 + dieOf 0 9)).level ≠ 2 ∧
       m.dieBusy (dieOf 0 9) = false ∧ tget 0 m.fb.visited (visitKey (bkey 0 5) 9 511) < 64 ∧ m.fb.behind = []) ∧
    (up.patrolRuns = true ∧ up.fb.passTotal = 0) ∧
    (let m : Mod := { up with
       fb := { up.fb with refq := [⟨0, 5, none, false⟩], w := [(0, 255 * 86400 * 2 ^ 32)] }
       upk := { up.upk with blks := [(5, { st := .full, ms := [(0, 0, 0)] })] } }
     m.fb.refq.any (fun q => q.sg = (0 : Fin 20).val && q.blk = (5 : Fin 16384).val && !q.overdue) = true ∧
       m.horizon ≤ m.oldest (bkey 0 5)) := by decide

theorem wit_PlateAndPairCommandsTakeEffect :
    (up.coreOn = true ∧ up.fore.ready = true ∧ up.validate (rowTx [(0, 0x1C00F, 1)]) = none) ∧
    up.validate (rowTx [(0, 0x28041, 3)]) = none ∧ up.validate (rowTx [(0, 0x28041, 4)]) = none ∧ up.pwr.pstate < 3 ∧
    (let m := mapped 0
     m.coreOn = true ∧ m.fore.ready = true ∧
     m.validate (rowTx [(0, 0x18029, 0), (0, 0x1802A, 1), (0, 0x18028, fld 30 1 ||| fld 0 0)]) = none ∧
     m.validate (rowTx [(0, 0x18028, fld 30 1 ||| fld 0 0)]) = none) ∧
    ({ up with cfg := { plates := [(0x80000, 0x80000000), (0x80001, 0x10000)] } } : Mod).validate
      (rowTx [(0, 0x18028, fld 30 2 ||| fld 0 0)]) = none ∧
    up.validate (rowTx [(0, 0x1C004, up.w 0 0x70010 ||| flag 8 true)]) = none ∧
    (let m : Mod := { up with pwr := { up.pwr with pstate := 3 } }
     m.coreOn = true ∧ m.validate (rowTx [(0, 0x28041, 0)]) = none ∧ m.validate (rowTx [(0, 0x28041, 4)]) = none) ∧
    (aon.coreOn = false ∧ aon.pwr.pstate = 4 ∧ aon.aonOnly = true) ∧
    (up.validate (rowTx [(0, 0x20015, fld 28 1)]) = none ∧ up.twin.pair = .unpaired ∧ up.expectId = 0) ∧
    (let m : Mod := { up with cfg := { plates := [(0x20006, 1)] } }
     m.validate (rowTx [(0, 0x20015, fld 28 1)]) = none ∧ m.expectId ≠ 0) ∧
    (pairedM.validate (rowTx [(0, 0x20015, fld 28 2)]) = none ∧ pairedM.twin.pair = .paired) := by decide

/-- The boundary to which time passes finds the states that the rows act on. -/
theorem wit_RowFrames : up.rowFrame.pwr.pstate < 3 ∧ (up.rowFrame.twin.pair = .unpaired ∧ up.rowFrame.expectId = 0) ∧
    ({ up with pwr := { up.pwr with pstate := 3 } } : Mod).rowFrame.pwr.pstate = 3 ∧
    ({ up with cfg := { plates := [(0x20006, 1)] } } : Mod).rowFrame.expectId ≠ 0 ∧
    pairedM.rowFrame.twin.pair = .paired := by decide

theorem wit_RepairIsValid :
    (let m : Mod := { mapped 0x03000000 with twin := pairedM.twin }
     m.coreOn = true ∧ m.fore.ready = true ∧ m.validate (rowTx [(0, 0x20015, fld 28 4 ||| flag 27 true ||| fld 0 0)]) = none) := by decide

theorem wit_KeyCommandsTakeEffect :
    (let m : Mod := { mapped 0 with cry := {} }
     m.coreOn = true ∧ m.fore.ready = true ∧ m.validate (rowTx (slotWrites 0 [1, 0, 0, 0, 0, 0, 0, 0, 2, 0, 0, 0, 0, 0, 0, 0] 1)) = none) ∧
    (mapped 0).validate (rowTx (slotWrites 0 [] 2)) = none ∧ (mapped 0).validate (rowTx (slotWrites 0 [] 3)) = none ∧ 4097 < 4098 ∧
    (∀ m : Mod, (id m).cfg = m.cfg) := by
  refine ⟨by decide, by decide, by decide, by decide, fun _ => rfl⟩

theorem wit_SeamStartIsValid :
    (mapped 0).validate (rowTx (slotWrites (4096 + (0 : Fin 2)) [1, 0, 0, 0, 0, 0, 0, 0, 2, 0, 0, 0, 0, 0, 0, 0] 1 ++
      [((0 : Fin 2).val, 0x24041, 0 ||| flag 31 true)])) = none := by decide

theorem wit_SeamAndFailedRowsAnswer :
    (let m : Mod := { mapped 0 with cry := { (mapped 0).cry with seams := [(1, { st := .running })] } }
     m.evacRunning = false ∧ 4 ≤ m.pwr.phase ∧ (m.seam (1 : Fin 2)).st = .running ∧ m.seamMapped (m.lineAt 0 0 / 64) = false) ∧
    (let m : Mod := { mapped 0 with
       cry := { (mapped 0).cry with seams := [(1, { st := .running })] }
       hop := { (mapped 0).hop with map := [(0, mkEntry 0 0 0 0)] }
       per := { up.per with budget := 2 ^ 40 } }
     m.seamMapped (m.lineAt 0 0 / 64) = true ∧ (m.seam (1 : Fin 2)).ptr / 64 < (m.seam (1 : Fin 2)).durable + 256 ∧
       m.poisoned (m.lineAt 0 0) = false ∧ m.dt + 4096 ≤ m.budget) ∧
    (let m : Mod := { mapped 0 with
       cry := { (mapped 0).cry with seams := [(1, { st := .running })] }
       hop := { (mapped 0).hop with map := [(0, mkEntry 0 0 0 0)], poison := [(0, { mask := 1 })] } }
     m.poisoned (m.lineAt 0 0) = true) ∧
    ((up.validate (rowTx [(0, 0x28041, 0)])).isSome = true ∧ up.coreOn = true ∧ up.fore.ready = true) := by decide

theorem wit_HoldupAndPowerFailCommandsAnswer :
    (up.per.debounce = none ∧ up.per.evac = none ∧ up.per.testing = false ∧ up.pwr.phase ≠ 0 ∧ up.per.tested = false ∧ up.pwr.aonReset = false) ∧
    (let m : Mod := { up with per := { tested := true, testWait := 5 }, time := { dtc := 2 ^ 60 } }
     m.per.testWait ≤ m.time.dtc ∧ m.per.testAt + bits (m.w 0 0x70010) 4 0 * 3600000000000 ≤ m.time.dtc ∧ m.per.tested = true ∧ m.per.testFailed = false ∧ m.budgetAt 30000 < m.dt ∧ 4 ≤ m.pwr.phase ∧ m.per.testPending = none) ∧
    (let m : Mod := { up with per := { tested := true, cap := 4000, esr := 500 } }
     m.dt ≤ m.budgetAt 30000) ∧
    ({ up with per := { testing := true } } : Mod).per.testing = true ∧ 2200 ≤ 2200 ∧ 2000 ≤ 2000 ∧ 2199 < 2200 ∧ 2000 < 2001 ∧
    (let m : Mod := { up with per := { testPending := some 0 } }
     m.per.testPending = some 0 ∧ 0 ≤ m.time.dtc ∧ m.budgetAt 30000 < m.dt) ∧
    (let m : Mod := { up with per := { tested := true, testPending := some 0 } }
     4 ≤ m.pwr.phase ∧ m.per.tested = true ∧ m.per.testFailed = false ∧ m.per.testPending.isSome = true) ∧
    aon.pwr.phase < 4 ∧
    (let m : Mod := { up with per := { tested := true, testFailed := true } }
     4 ≤ m.pwr.phase ∧ m.per.tested = true ∧ m.per.testFailed = true) ∧
    bit (up.w 0 0x7002C) 16 = true ∧ up.drivesPwrfail = false ∧
    bit (({ up with cfg := { plates := [(0x7002C / 4, 4200)] } } : Mod).w 0 0x7002C) 16 = false ∧
    21000 < 21001 ∧ 24000 ≤ 24000 ∧ 21000 ≤ 21000 ∧ ({ up with per := { debounce := some 5 } } : Mod).per.debounce = some 5 ∧
    (let m : Mod := { up with per := { debounce := some 5 }, time := { dtc := 40005 } }
     (m.passUntil (5 + 40000)).per.debounce.isSome = true) ∧
    (true && false) = false := by decide

theorem wit_EvacuateCommandsAnswer :
    ((8 : Fin 9).val ≠ 0 ∧ up.per.evac = none ∧ up.pwr.phase ≠ 0 ∧ up.pwr.aonReset = false ∧ up.per.everBudget = false) ∧
    ({ up with per := { everBudget := true } } : Mod).per.everBudget = true ∧
    (∀ n < 9, (evacAt n).per.evac = some { step := n, cause := 1 }) ∧ (evacAt 4).linkUp = false ∧
    (let ev : EvacSt := { step := 7, cause := 1, noManifest := true }
     ({ up with per := { up.per with evac := some ev } } : Mod).per.evac = some ev ∧ ev.noManifest = true ∧ ev.step = 7) ∧
    (let ev : EvacSt := { step := 8, cause := 1 }
     8 ≤ ev.step ∧ (evacAt 8).evacDown ev = .m4 ∧ ev.cause ≠ 3 ∧ (evacAt 8).pwr.aonReset = false ∧ (evacAt 8).pwr.tripDown = false) ∧
    (let m : Mod := { up with pwr := { up.pwr with down := some .m4 } }
     m.per.evac = none ∧ m.pwr.down = some .m4 ∧ m.pwr.aonReset = false ∧ m.pwr.tripDown = false) := by decide

theorem wit_RollAndRecoveryCommandsAnswer :
    pathTakes up .bar 0x70038 ∧ pathTakes up .mgmt 0x70064 ∧ up.rollRuns = true ∧
    (let m : Mod := { up with pwr := { up.pwr with phase := 3 }, fore := {} }
     m.pwr.phase = 3 ∧ m.fore.ready = false ∧ (m.recover ⟨false, false, none, [], [], [], false, false, [], none, true, []⟩).fore.ready = true) := by
  unfold pathTakes; decide

theorem wit_MirrorRecordCommandsAnswer :
    (pairedM.twin.pair = .paired ∧ pairedM.twin.trained = true ∧ pairedM.msnNext 2 = false ∧ pairedM.msnNext 1 = true ∧
      (pairedM.twr 0).held = false) ∧
    (let m : Mod := { mapped 0x03000000 with twin := { pairedM.twin with regs := [(0, { held := true, st := .mirrored })] } }
     m.twin.pair = .paired ∧ m.twin.trained = true ∧ m.msnNext 1 = true ∧ (m.twr 0).held = true ∧ m.regionOf (granOfLine 0) = some (0 : Fin 4096).val ∧
       (m.storeLine 0 0 0 false).isSome = true ∧ m.poisoned 0 = false) ∧
    (let e : Mbe := { share := .host, lineNo := 0, region := 0, mask := 0, data := 0, wpoison := false, acked := false, waiting := [],
                      tight := false, stamp := 0, fore := none, msn := 0 }
     ({ up with hop := { up.hop with merge := [e] } } : Mod).hop.merge.find? (fun e => e.lineNo = 0) = some e) := by decide

/-- Pages open for resync, with line 0 live since and without. -/
def resyncM (l : List (Nat × Dword × Nat)) : Mod :=
  { mapped 0x03000000 with twin := { pairedM.twin with regs := [(0, { held := true })], rsopen := l } }

theorem wit_ResyncLines :
    (((resyncM [(0, 1, 0)]).genSeen 0 0 1).twin.rsopen.find? (fun e => e.1 = 0 / 64) = some (0, 1, 0) ∧
      ((resyncM [(0, 1, 0)]).twr 0).held = true) ∧
    ((resyncM [(0, 0, 0)]).genSeen 0 0 1).twin.rsopen.find? (fun e => e.1 = 0 / 64) = some (0, 0, 0) ∧
    ((resyncM []).genSeen 0 0 1).twin.rsopen.find? (fun e => e.1 = 0 / 64) = none := by decide

theorem wit_ResyncLineIsStored : ((resyncM [(0, 0, 0)]).msnNext 1 = true) ∧
    (((resyncM [(0, 0, 0)]).genSeen 0 0 1).storeLine 0 0 0 false).isSome = true := by decide

theorem wit_RecordWithoutRoom :
    (let m : Mod := { mapped 0x03000000 with
       twin := { pairedM.twin with regs := [(0, { held := true })] }
       hop := { frames := [(0, { v := true, valid := ~~~ 0 })], chans := (List.range 54).map (fun c => (c, { failed := true })) } }
     m.msnNext 1 = true ∧ (m.twr 0).held = true ∧ m.regionOf (granOfLine 0) = some (0 : Fin 4096).val ∧ m.storeLine 0 0 0 false = none) := by
  decide

theorem wit_TwinStreamAndLivenessCommandsAnswer :
    (let m : Mod := { pairedM with twin := { pairedM.twin with txmsn := 3 } }
     m.twin.pair = .paired ∧ m.twin.ackmsn < 3 ∧ 3 ≤ m.twin.txmsn ∧ (0 ≤ m.twin.ackmsn ∧ m.twin.txmsn < 4) ∧ m.twin.trained = true ∧
       m.epochNow = 0 ∧ 1 ≠ m.epochNow ∧ (m.tx.flitTx + 65535 - (65535 : BitVec 16).toNat) % 65536 ≤ m.tx.flitTx - m.tx.flitAck) ∧
    (let m : Mod := { pairedM with cfg := { plates := [(0x80004 / 4, 3)] }, tx := { pairedM.tx with sbLive := true } }
     bit (m.w 0 0x80004) 0 = true ∧ m.pwr.pstate < 4 ∧ m.pwr.aonReset = false ∧ m.pwr.phase ≠ 0 ∧ m.tx.sbLive = true) ∧
    (let m : Mod := { pairedM with tx := { pairedM.tx with sbLive := true, sbAt := 0, goodAt := 0 }, time := { dtc := 300000 } }
     m.tx.sbAt + 300000 ≤ m.time.dtc ∧ m.tx.goodAt + 100000 ≤ m.time.dtc ∧ m.twin.trained = true) ∧
    pairedM.lagNow < 20000 ∧
    (let r : TwRec := { msn := 1, region := 0, lineNo := 0, gen := 1, ct := 0, poison := false, sync := false, sidecar := false, part := none,
                        sent := true, ackedAt := some 0, req := none }
     20000 ≤ ({ pairedM with time := { dtc := 20000 }, twin := { pairedM.twin with recs := [r] } } : Mod).lagNow) ∧
    (let m : Mod := { attachM with cfg := { plates := [(0x80004 / 4, 3)] }, twin := { attachM.twin with trained := false } }
     bit (m.w 0 0x80004) 0 = true ∧ m.linksOn = true ∧ m.twin.trained = false ∧ m.twin.pair = .attaching ∧ bit (m.w 0 0x80004) 1 = true ∧
       (0 : Fin 2).val = m.twin.side ∧ (1 : Fin 2).val ≠ m.twin.side) ∧
    (let m : Mod := { up with cfg := { plates := [(0x80004 / 4, 3)] } }
     bit (m.w 0 0x80004) 0 = true ∧ m.linksOn = true ∧ m.twin.trained = false ∧ m.twin.pair ≠ .attaching ∧ m.nv.paired = none) := by decide

theorem wit_HandshakeCommandsAnswer :
    (attachM.twin.trained = true ∧ attachM.twin.pair = .attaching ∧ attachM.expectId ≠ 1 ∧ attachM.linkUp = true ∧ attachM.twin.side = 0 ∧
      attachM.tx.commitWait = none) ∧
    (let m : Mod := { attachM with twin := { attachM.twin with side := 1 } }
     m.expectId = 0 ∧ m.twin.helloed = true ∧ bit (m.w 0 0x80004) 1 = false ∧ m.twin.side = 1) ∧
    (pairedM.twin.pair = .paired ∧ 1 ≠ pairedM.epochNow) ∧
    (let m : Mod := { attachM with tx := { attachM.tx with proposed := some 4 } }
     m.tx.proposed = some 4 ∧ m.linkUp = true ∧ m.twin.side = 0 ∧ m.tx.commitWait = none) ∧
    (let m : Mod := { attachM with nv := { attachM.nv with epoch := 4, paired := some 1 } }
     m.linkUp = true ∧ m.twin.side = 0 ∧ m.nv.epoch = 4 ∧ m.nv.paired.isSome = true ∧ (4 = m.epochNow ∨ 4 = m.epochNow + 1)) := by decide

theorem wit_HandshakeSides : ({ attachM with twin := { attachM.twin with side := 1 } } : Mod).sideBy 0 = 1 := by simp [Mod.sideBy]

theorem wit_RegionMessageCommandsAnswer :
    (pairedM.twin.pair = .paired ∧ pairedM.twin.trained = true ∧ pairedM.linkUp = true ∧ pairedM.homeHere 4095 = false ∧
      (pairedM.twr 4095).held = false ∧ pairedM.epochNow < 1) ∧
    (let m : Mod := { mapped 0x02000000 with twin := pairedM.twin }
     m.homeHere 0 = true ∧ 0 ≤ m.epochNow) ∧
    (let m : Mod := { pairedM with twin := { pairedM.twin with regs := [(0, { held := true, st := .mirrored })] } }
     (m.twr 0).held = true ∧ (m.twr 0).st = .mirrored ∧ m.twin.rsopen.length < 256 ∧ m.tx.adopt = false) := by decide

theorem wit_ImmediateArithmeticCommandsAnswer :
    ∀ b ∈ ([.alui .addi 31 1 0x3FFF, .alui .andi 31 1 0x3FFF, .alui .ori 0 1 1, .alui .xori 31 1 0, .alui .slti 31 1 0x2000,
      .alui .sltiu 31 1 0x2000, .shift .slli 1 1 63, .shift .srli 1 1 0, .shift .srai 1 1 63, .li 31 0x1FFFFF, .lih 31 0x1FFFFF] : List BOp),
      Stands (before b [(1, 5)]) 0 b := by unfold Stands; decide

theorem wit_AluGroupComputesItsTable :
    (∀ o ∈ ([.add, .sub, .and, .or, .xor, .sll, .srl, .sra, .slt, .sltu, .mul, .mulhu, .divu, .remu, .minu, .maxu] : List Alu),
      Stands (before (.alu o 31 1 0) [(1, 5)]) 0 (.alu o 31 1 0)) ∧
    Stands (before (.alu .add 0 0 0) []) 0 (.alu .add 0 0 0) ∧ twf 0 ((before (.alu .add 0 0 0) [(1, 5)]).fm 0).g = true := by
  unfold Stands; decide

/-- Foreman 0 with one change before an instruction. -/
def beforeWith (b : BOp) (g : Tbl Dword) (f : Foreman → Foreman) : Mod := (before b g).setFm 0 f

theorem wit_ScratchCommandsAnswer :
    (∀ w ∈ ([.w8, .w16, .w32, .w64] : List Width), Stands (before (.ld w 2 1 0) [(1, 0x3FFF8)]) 0 (.ld w 2 1 0) ∧
      Stands (before (.st w 2 1 0) [(1, 0x3FFF8)]) 0 (.st w 2 1 0)) ∧
    (0x3FFF8 % 8 = 0 ∧ 0x3FFF8 < 0x40000 ∧ ((before (.ld .w64 2 1 0) [(1, 0x3FFF8)]).fm 0).dbeIn 0x3FFF8 8 = false) ∧
    (Stands (before (.ld .w64 2 1 1) []) 0 (.ld .w64 2 1 1) ∧ ((0 : Dword) + (1 : BitVec 14).signExtend 64).toNat % 8 ≠ 0) ∧ Ecc.single ≠ .double ∧ Ecc.clean ≠ .double ∧
    (Stands (before (.st .w32 2 1 0) [(1, 0x40000)]) 0 (.st .w32 2 1 0) ∧ 0x40000 % 4 = 0) ∧
    (let m := beforeWith (.ld .w8 2 1 0) [(1, 0x3FFFF)] (fun x => { x with dbe := [0x7FFF] })
     Stands m 0 (.ld .w8 2 1 0) ∧ 0x3FFFF < 0x40000 ∧ (m.fm 0).dbeIn 0x3FFFF 1 = true) := by unfold Stands; decide

theorem wit_ControlFlowCommandsAnswer :
    (Stands (before (.br 1 0 0 1023) []) 0 (.br 1 0 0 1023) ∧ brCond 0 0 0 = true ∧ brCond 1 0 0 = false) ∧
    Stands (before (.j 0x1FFFFF) []) 0 (.j 0x1FFFFF) ∧
    (let m := beforeWith (.call 2) [] (fun x => { x with calls := List.replicate 7 (0xA0001, 0) })
     Stands m 0 (.call 2) ∧ (m.fm 0).prog.isSome = true ∧ (m.fm 0).calls.length < 8) ∧
    (let m := beforeWith (.call 2) [] (fun x => { x with calls := List.replicate 8 (0xA0001, 0) })
     Stands m 0 (.call 2) ∧ 8 ≤ (m.fm 0).calls.length) ∧
    (let m := beforeWith .ret [(31, 0xA0001)] (fun x => { x with calls := [(0xA0001, 0)] })
     Stands m 0 .ret ∧ (m.fm 0).calls = (0xA0001, 0) :: [] ∧ (m.fm 0).reg 31 = BitVec.ofNat 64 0xA0001) ∧
    (let m := beforeWith .ret [] (fun x => { x with calls := [(0xA0001, 0)] })
     Stands m 0 .ret ∧ (m.fm 0).reg 31 ≠ BitVec.ofNat 64 0xA0001) ∧
    (Stands (before .ret []) 0 .ret ∧ ((before .ret []).fm 0).calls = []) ∧
    (let m := beforeWith (.loop 1 1) [(1, 2)] (fun x => { x with loops := List.replicate 7 ⟨0xA0001, 0xA0002, 1, 0⟩ })
     Stands m 0 (.loop 1 1) ∧ (m.fm 0).loops.length < 8) ∧
    (let m := beforeWith (.loopi 2047 1023) [] (fun x => { x with loops := List.replicate 8 ⟨0xA0001, 0xA0002, 1, 0⟩ })
     Stands m 0 (.loopi 2047 1023) ∧ 8 ≤ (m.fm 0).loops.length) ∧
    Stands (before (.loopi 0 0) []) 0 (.loopi 0 0) ∧
    (let m := beforeWith .lend [] (fun x => { x with loops := [⟨0xA0000, 0xA0000, 1, 0⟩] })
     Stands m 0 .lend ∧ (m.fm 0).loops = ⟨0xA0000, 0xA0000, 1, 0⟩ :: [] ∧ 0xA0000 = (m.fm 0).pc ∧ 0 = (m.fm 0).calls.length) ∧
    (Stands (before .lend []) 0 .lend ∧ ((before .lend []).fm 0).loops = []) := by unfold Stands; decide

theorem wit_PlateAndWaitCommandsAnswer :
    (Stands (before (.pld 2 false 0xFFFFF) []) 0 (.pld 2 false 0xFFFFF) ∧ plateKind 0xFFFFF ≠ .unassigned) ∧
    (Stands (before (.pld 2 true 0x40) [(30, 0x100000)]) 0 (.pld 2 true 0x40) ∧ plateKind 0x100040 = .unassigned ∧
      ((before (.pld 2 true 0x40) [(30, 0x100000)]).fm 0).plateIdx true 0x40 = 0x100040) ∧
    (plateKind 0 = .ro ∧ Stands (before (.pst 2 false 0) []) 0 (.pst 2 false 0)) ∧
    (plateKind 0x80000 = .staged ∧ plateKind (0xA0104 / 4) = .staged) ∧
    plateKind (0x10000 / 4) = .select ∧
    plateKind (0x10014 / 4) = .immediate ∧
    (let m := before (.pwait 28 false 0) [(29, 0x500000003)]
     Stands m 0 (.pwait 28 false 0) ∧ ((m.fm 0).reg 29).toNat % 2 ^ 32 < 4 ∧ ((m.fm 0).reg 29).toNat / 2 ^ 32 ≠ 0 ∧
       pwaitCond 0 5 5 ≠ pwaitCond 0 5 6) ∧
    (let m := beforeWith (.pwait 28 false 0) [] (fun x => { x with wait := .plate 28 0 0 0 7 })
     (m.fm 0).wait = .plate 28 0 0 0 7 ∧ (m.fm 0).halted = false ∧ (m.fm 0).stopped = false ∧ m.time.dtc < 7 ∧ 0 ≤ m.time.dtc) ∧
    Stands (before (.yield 1023) []) 0 (.yield 1023) ∧
    ((beforeWith (.yield 1) [] (fun x => { x with wait := .frames 0 })).fm 0).wait = .frames 0 ∧
    (let m : Mod := { before (.evwait 2 1 575) [(2, 9)] with evt := { srcs := [(575, { pending := true })] } }
     Stands m 0 (.evwait 2 1 575) ∧ (m.fm 0).evSrc 1 575 < 576 ∧ (m.src ((m.fm 0).evSrc 1 575)).pending = true) ∧
    (let m := before (.evwait 2 1 575) [(2, 9)]
     Stands m 0 (.evwait 2 1 575) ∧ (m.src ((m.fm 0).evSrc 1 575)).pending = false ∧ ((m.fm 0).val 2).toNat % 2 ^ 32 ≠ 0) ∧
    (Stands (before (.evwait 2 1 576) []) 0 (.evwait 2 1 576) ∧ 576 ≤ ((before (.evwait 2 1 576) []).fm 0).evSrc 1 576) ∧
    (let m := beforeWith (.evwait 2 1 575) [] (fun x => { x with wait := .event 575 2 0 })
     (m.fm 0).wait = .event 575 2 0 ∧ (m.src 575).pending = false ∧ 0 ≤ m.time.dtc ∧ (m.fm 0).halted = false ∧ (m.fm 0).stopped = false) := by
  unfold Stands; decide

theorem wit_LineAndCheckUnitCommandsAnswer :
    (∀ k ∈ ([.lrd, .lrdx, .lwr] : List LineK), Stands (before (.line k 1 2 3) [(2, 64), (3, 0x3FF80)]) 0 (.line k 1 2 3) ∧
      (before (.line k 1 2 3) [(2, 64), (3, 0x3FF80)]).lineTrap 0 k 64 0x3FF80 = none) ∧
    (∀ k ∈ ([.lzero, .lflush, .lpin, .lunpin] : List LineK), Stands (before (.line k 1 2 0) [(2, 64)]) 0 (.line k 1 2 0) ∧
      (before (.line k 1 2 0) [(2, 64)]).lineTrap 0 k 64 0 = none) ∧
    (Stands (before (.line .lwr 1 2 3) [(2, 1)]) 0 (.line .lwr 1 2 3) ∧
      (before (.line .lwr 1 2 3) [(2, 1)]).lineTrap 0 .lwr 1 0 = some 0x82) ∧
    (let o : LineOp := { kind := 0, rd := 1, line := 1, scratch := 0, bound := 9, status := some 0 }
     ((beforeWith (.line .lrd 1 2 3) [] (fun x => { x with wait := .line o })).fm 0).wait = .line o ∧ o.status = some 0) ∧
    (let o : LineOp := { kind := 0, rd := 1, line := 1, scratch := 0, bound := 9 }
     (beforeWith (.line .lrd 1 2 3) [] (fun x => { x with wait := .line o })).lineOp (.foreman 0) = some o ∧ o.status = none ∧
       o.bound ≤ ({ beforeWith (.line .lrd 1 2 3) [] id with time := { dtc := 9 } } : Mod).time.dtc) ∧
    (Stands (before (.cusel 1 2) [(2, 3)]) 0 (.cusel 1 2) ∧ 3 < 4 ∧ Stands (before (.cusel 1 2) [(2, 4)]) 0 (.cusel 1 2) ∧ 4 ≤ 4) ∧
    (let m : Mod := { before (.cufeed 1 2) [(1, 0x3F000), (2, 4096)] with perf := { cus := [(3, { held := some 0 })] } }
     Stands m 0 (.cufeed 1 2) ∧ 0x3F000 + 4096 ≤ 0x40000 ∧ (m.fm 0).dbeIn 0x3F000 4096 = false ∧ m.cuOf 0 = some 3) ∧
    (let m : Mod := { before (.cuget 1) [] with perf := { cus := [(3, { held := some 0 })] } }
     Stands m 0 (.cuget 1) ∧ m.cuOf 0 = some 3) ∧
    (let m : Mod := { before (.cuput 1) [] with perf := { cus := [(0, { held := some 0 })] } }
     Stands m 0 (.cuput 1) ∧ m.cuOf 0 = some 0) ∧
    (Stands (before (.cuput 1) []) 0 (.cuput 1) ∧ (before (.cuput 1) []).cuOf 0 = none) := by unfold Stands; decide

theorem wit_TransactionAndEndCommandsAnswer :
    (∀ b ∈ ([.txb, .txc 1, .txa, .evsig 1 255, .time 1, .halt, .trap 0x7F] : List BOp), Stands (before b []) 0 b ∧
      ((before b []).fm 0).prog.isSome = true ∧ ((before b []).fm 0).tx = none) ∧
    (let m := beforeWith .txb [] (fun x => { x with tx := some {} })
     Stands m 0 .txb ∧ (m.fm 0).tx.isSome = true) ∧
    (let m := beforeWith (.txc 1) [] (fun x => { x with tx := some {} })
     Stands m 0 (.txc 1) ∧ (m.fm 0).tx = some {}) ∧
    (let m := before (.evack 1 0 575) []
     Stands m 0 (.evack 1 0 575) ∧ (m.fm 0).evSrc 0 575 < 576) ∧
    hasCnt 0 = true ∧ hasCnt 575 = false ∧
    (let m := beforeWith .halt [] (fun x => { x with steps := 100 })
     (m.fm 0).ready = true ∧ (m.fm 0).spent = true) ∧
    (let m : Mod := { before .halt [] with fore := { (before .halt []).fore with store := [(0xA0000, 1)] } }
     (m.fm 0).ready = true ∧ (m.fm 0).spent = false ∧ m.fetch 0 = some 1 ∧ bdecode 1 = none) ∧
    (let m := beforeWith .halt [] (fun x => { x with pc := 0xA0004 })
     (m.fm 0).ready = true ∧ (m.fm 0).spent = false ∧ m.fetch 0 = none) ∧
    (let t : Tx := rowTx [(0, 0x1C00F, 1)]
     let m : Mod := { up with fore := { up.fore with commitQ := [t] } }
     m.fore.commitQ = t :: [] ∧ m.coreOn = true ∧ m.fore.ready = true ∧ m.canStage t = true ∧ m.validate t = none ∧
       (m.validate (rowTx [(0, 0x28041, 0)])).isSome = true) ∧
    up.fore.commitQ = [] := by unfold Stands; decide

/-- The debug path has level 3. -/
def debugM : Mod := { up with dbg := { up.dbg with level := 3, req := 3 } }

theorem wit_RegisterWriteCommandsAnswer :
    (∀ off ∈ ([0, 0x1FFFFC, 0x11000C, 0x40030, 0xC0028, 0xD0004, 0xD0014, 0xD0044, 0xE000C, 0xF0004, 0xF0008, 0x10013C, 0xA001C] : List Nat),
      pathTakes up .bar off ∧ pathTakes up .mgmt off ∧ pathTakes debugM .dbg off) ∧
    (0x1FFFFC + 4 ≤ 0x200000 ∧ 0x1FFFFC % 4 = 0 ∧ 0x1FFFF8 + 8 ≤ 0x200000 ∧ 0x1FFFF8 % 8 = 0) ∧
    pathTakes up .bar 0x1FFFF8 ∧ pathTakes (wrote up .bar 0x1FFFF8 0 true) .bar 0x1FFFFC ∧
    ((0xF0 : BitVec 8) ≠ 0x0F ∧ up.pathOk .bar true 0 = true) ∧ (ackKey 0x13000C 0).isSome = true := by
  unfold pathTakes; decide

theorem wit_RegisterReadAndEndCommandsAnswer :
    (isRl 28 = true ∧ pathGives up .bar 28 ∧ pathGives up .mgmt 28 ∧ pathGives debugM .dbg 28) ∧ 29 % 4 ≠ 0 ∧ up.pathOk .bar false 29 = true ∧
    (isPeak 0xB0010 = true ∧ pathGives up .bar 0xB0010) ∧ pathGives up .bar 0xF0004 ∧ pathGives up .mgmt 0x10013C := by
  unfold pathGives; decide

theorem wit_RegisterEndCommandsAnswer :
    (let m : Mod := { up with evt := { srcs := [(0, { deferred := true }), (575, { pending := true, deferred := true })] } }
     (m.src 575).deferred = true ∧ (m.src 575).pending = true ∧ (m.src 0).deferred = true ∧ (m.src 0).pending = false ∧ m.pwr.aonReset = false ∧ (m.src 0).lastAt = none ∧
       (m.src 575).lastAt = none) ∧
    (let m : Mod := { up with evt := { srcs := [(575, { deferred := true, lastAt := some 0 })] }, time := { dtc := 2 ^ 40 } }
     (m.src 575).lastAt = some 0 ∧ 0 + m.holdNs ≤ m.time.dtc) ∧
    (up.cu 3).state ≠ 1 ∧
    (let m : Mod := { mapped 0 with perf := { cus := [(3, { state := 1, rawRun := true })] } }
     (m.cu 3).state = 1 ∧ (m.cu 3).rawRun = true ∧ m.scanRefuse (m.cu 3) = none ∧
       ((m.filterCount 2 none 5 false (m.cu 3).cur 64).scanCell (m.cu 3).cur []).1 matches .zero) ∧
    (let m : Mod := { mapped 0 with
       perf := { cus := [(3, { state := 1, rawRun := true })] }
       hop := { frames := [(0, { v := true, valid := 1 })] } }
     m.scanRefuse (m.cu 3) = none ∧ ((m.filterCount 2 none 5 false (m.cu 3).cur 64).scanCell (m.cu 3).cur []).1 matches .cell _) ∧
    (let m : Mod := { mapped 0 with
       perf := { cus := [(3, { state := 1, rawRun := true })] }
       hop := { frames := [(0, { v := true, valid := 1, lines := [(0, { flip := 3 })] })] } }
     m.scanRefuse (m.cu 3) = none ∧ ((m.filterCount 2 none 5 false (m.cu 3).cur 64).scanCell (m.cu 3).cur []).1 matches .bad) ∧
    (let m : Mod := { up with perf := { cus := [(3, { state := 1 })] } }
     m.scanRefuse (m.cu 3) = some 4) ∧
    (let m : Mod := { up with time := { dtc := 1023000000 }, tly := { running := true, staged := 1, head := 1 } }
     m.coreOn = true ∧ m.tly.running = true ∧ m.tly.staged ≠ 0 ∧ m.tly.oldestAt + bits (m.w 0 0xE0128) 9 0 * 1000000 ≤ m.time.dtc) ∧
    up.recalling = false ∧ ({ up with seed := { up.seed with recallUntil := some 1 }, nv := { up.nv with compat := true } } : Mod).recalling = true ∧
    tget 0 up.seed.lockout 7 ≤ up.time.dtc ∧
    (let m : Mod := { up with seed := { up.seed with lockout := [(7, 1)] } }
     m.time.dtc < tget 0 m.seed.lockout 7) ∧
    (let j : SeedJob := .dtc 5 0
     let m : Mod := { up with seed := { up.seed with running := some j } }
     m.seed.running = some j ∧ m.spareLeft j.page = true ∧
       (((Mod.seedApply (m.setSpage j.page (fun x => x.written j.data)) j).spage j.page).cur.map (fun c => decide (c.writes < 100000))) = some true) := by decide

/-- AON with rail `k` in a state. -/
def railAt (k : Nat) (r : Rail) : Mod := { aon with pwr := { aon.pwr with rails := [(k, r)] } }

theorem wit_RailCommandsAnswer :
    (State.reset.m.pwr.aonReset = true ∧ bits (State.reset.m.w 0 0x7002C) 12 0 + 200 < 4401 ∧ 4400 ≤ bits (State.reset.m.w 0 0x7002C) 12 0 + 200) ∧
    (let m : Mod := { pwr := { vinOn := true } }
     m.pwr.vinOn = true ∧ m.pwr.aonReset = true) ∧ State.reset.m.pwr.vinOn = false ∧
    (((railAt 11 { st := .ramping }).rail 11).st = .ramping ∧ 3 ≤ 11 ∧ 11 ≠ 3 ∧ lget railGroup 11 ≠ 2 ∧ 0 < 3 ∧ lget railGroup 0 ≠ 2 ∧
      ((railAt 11 { st := .ramping }).rail 11).attempts < 2) ∧
    (let m : Mod := { railAt 11 { st := .ramping } with time := { dtc := 5000000 } }
     (m.rail 11).since + 5000000 ≤ m.time.dtc) ∧ (railAt 11 { st := .ramping }).time.dtc < ((railAt 11 { st := .ramping }).rail 11).since + 5000000 ∧
    2 ≤ ((railAt 4 { st := .ramping, attempts := 2 }).rail 4).attempts ∧ (up.rail 4).st ≠ .ramping ∧
    (let m : Mod := { up with pwr := { up.pwr with falling := some 11 } }
     m.pwr.falling = some (11 : Fin 12).val ∧ m.railDown.pwr.falling.isSome = true) ∧ up.pwr.falling ≠ some 11 ∧
    ((up.rail 1).st = .inWindow ∧ up.pwr.aonReset = false ∧ (1 ≠ 1 ∨ (up.per.testing = false ∧ up.per.recharge = false)) ∧
      up.per.evac = none) ∧
    (let m : Mod := { railAt 4 { st := .retrying } with time := { dtc := 10000000 } }
     (m.rail 4).st = .retrying ∧ (m.rail 4).since + 10000000 ≤ m.time.dtc) := by decide

theorem wit_PowerStateCommandsAnswer :
    (let m : Mod := { up with
       pwr := { up.pwr with pstate := 1 }, per := { up.per with budget := 2 ^ 40 }, time := { dtc := 65535000000 } }
     m.pwr.pstate = 1 ∧ bit (m.w 0 0xA0108) 31 = true ∧ m.dozeBlocked = false ∧
       m.pwr.m1At + bits (m.w 0 0xA0108) 15 0 * 1000000 ≤ m.time.dtc) ∧
    bit (({ up with cfg := { plates := [(0xA0108 / 4, 20)] } } : Mod).w 0 0xA0108) 31 = false ∧
    (let m : Mod := { up with pwr := { up.pwr with pstate := 2, waking := true } }
     m.pwr.pstate = 2 ∧ m.pwr.waking = true) ∧
    aon.pwr.aonReset = false ∧ State.reset.m.pwr.aonReset = true ∧
    (let m : Mod := { aon with pwr := { aon.pwr with tripDown := true }, th := { coolSince := some 0 }, time := { dtc := 60000000000 } }
     m.aonOnly = true ∧ m.pwr.tripDown = true ∧ bit (m.w 0 0xB0130) 0 = true ∧
       m.th.restarts.countP (fun x => m.time.dtc < x + 3600000000000) < bits (m.w 0 0xB0130) 7 4 ∧ m.th.coolSince = some 0 ∧
       0 + 60000000000 ≤ m.time.dtc) ∧
    up.pwr.tripDown = false ∧
    (let m : Mod := { up with pwr := { up.pwr with phase := 2 }, nv2 := { fwNext := 1, fwBad := [] } }
     m.pwr.imgLoaded = false ∧ m.pwr.phase = 2 ∧ m.nv2.fwNext = 1 ∧ m.nv2.fwBad.contains 1 = false ∧ m.pwr.trainOk = false ∧ m.hop.chans = []) ∧
    ({ up with pwr := { up.pwr with imgLoaded := true } } : Mod).pwr.imgLoaded = true ∧ up.pwr.phase ≠ 2 := by decide

theorem wit_TapCommandsAnswer :
    (aon.pwr.aonReset = false ∧ aon.pwr.startWait = false ∧ aon.tapOpen = true) ∧ (up.tapOpen = false ∧ up.pwr.startWait = false) ∧
    aon.accRefused false (4 * (0 : BitVec 19).toNat) = some 3 ∧
    debugM.accRefused false (4 * (0x7FFFF : BitVec 19).toNat) = none ∧ debugM.reaches (4 * (0x7FFFF : BitVec 19).toNat) = true := by decide

theorem wit_DebugBlockCommandsAnswer :
    (∀ off ∈ ([0x130010, 0x130014, 0x13001C, 0x130048, 0x130148, 0x13014C, 0x130150] : List Nat), pathTakes debugM .dbg off) ∧
    pathGives debugM .dbg 0x13001C ∧
    (let o : LineOp := { kind := 0, rd := 0, line := 1, scratch := 0, bound := 9, status := some 0 }
     let m : Mod := { debugM with dbg := { debugM.dbg with mcmd := some o } }
     m.dbg.mcmd = some o ∧ o.status = some 0 ∧ m.pwr.pstate ≠ 3) ∧
    (let m : Mod := { debugM with time := { dtc := 4 }, dbg := { debugM.dbg with mediaHold := some 4 }, pwr := { debugM.pwr with pstate := 3 } }
     4 ≤ m.time.dtc ∧ m.dbg.mediaHold = some 4 ∧ m.pwr.pstate = 3 ∧ m.dbg.mcmd = none ∧ m.pwr.m3Exit = false) := by
  unfold pathTakes pathGives; decide

theorem wit_Bauri : (BOp.trap 0x7F).wf = true ∧ (BOp.pwait 29 true 0xFFFFF).wf = true ∧ bdecode 0x24A00108 = some (.li 5 0x108) := by decide

theorem wit_CountersWrapAndSaturate : (2 ^ 64 - 1 < 2 ^ 64 ∧ 255 ≤ 255 ∧ 2 ^ 64 - 1 + 0 < 2 ^ 64 ∧ 2 ^ 64 ≤ 2 ^ 64 - 1 + 1) ∧
    bit 1 0 = true ∧ twf {} ([(0, { val := 1 })] : Tbl Ctr) = true := by decide

theorem wit_AcknowledgeClearsCountedCauses : twf {} ({ up with evt := { occ := [(0, { cnt := 1 })] } } : Mod).evt.occ = true ∧
    (1 : Word) ≠ BitVec.ofNat 32 (up.srcCnt 0) := by decide

theorem wit_SeedWritesKeepTheirOrder :
    ([SeedJob.evacuating 1, .dtc 1 0, .zclear 128 true 0].Pairwise (fun a b =>
      (if a.isEvac then 0 else if a.isModule then 1 else 2) ≤ (if b.isEvac then 0 else if b.isModule then 1 else 2))) ∧
    ({ up with seed := { running := some (.dtc 1 0) } } : Mod).seed.running = some (.dtc 1 0) ∧
    (up.seed.running = none ∧ up.seed.queue = [] ∧ up.staleJob (.dtc 1 0) = none) := by decide

theorem wit_MapEntriesKeepTheirFields : (19 < 20 ∧ 9 < 10 ∧ 16383 < 16384 ∧ 2047 < 2048) ∧ enForm (3 * 2 ^ 38) = 3 ∧ enForm 0 = 0 ∧ enForm (2 ^ 39) = 2 := by
  decide

theorem wit_AllocationTakesTheFirstReplaceableWay :
    ((up.frame 0).v = false ∧ (up.frame 0).detached = false) ∧ (up.pickWay 0 false).isSome = true ∧ (up.pickWay 0 true).isSome = true ∧
    (let m := frm { v := true }
     (m.frame 0).v = true ∧ (m.frame 0).lpin = false ∧ (m.frame 0).cleaning = false) ∧
    (let m : Mod := { up with hop := { frames := (List.range 8).map (fun f => (8 * setOf 0 + f, { v := true, d := true })) } }
     m.pickWay 0 false = none) := by decide

theorem wit_PoisonMarksAreKept : twf {} up.hop.poison = true ∧ up.hop.poison.length < poisonCap ∧ (up.psn 0).mask = 0 ∧
    (let m : Mod := { up with hop := { up.hop with poison := [(0, { mask := 2 })] } }
     twf {} m.hop.poison = true ∧ (m.psn 0).mask ≠ 0) := by decide

theorem wit_FullPoisonTable : poisonCap ≤ ((List.range poisonCap).map (fun p => (p + 1, ({ mask := 1 } : Psn)))).length := by simp

theorem wit_CreditsNeverPassTheAllowances : (up.port 0).link = .l0 ∧ (up.port 0).reqCr + up.usedCr 0 false ≤ up.credits 0 := by decide

theorem wit_KeyWordsReadZero : isKeyIdx 0xE0000 = true ∧ isKeyIdx 0x10003F = true ∧ keyIdx (⟨0xE0000, 0xE0000, 5⟩ : PWrite).key = 0xE0000 := by
  decide

theorem wit_ImmediateWritesActAtOnce : Path.mgmt ≠ .dbg ∧ up.pathQ (pathNum .mgmt) = {} ∧ plateAcc (0x10014 / 4) = some .rw ∧
    (let x := ((up.setPathQ 1 (fun _ => { q := [{ idx := 0x10014 / 4, val := 1, ok := true }] })).setPathQ 1 (fun _ => {})).immWrite 1 (0x10014 / 4) 1 true
     (x.pathQ 1).wait = []) ∧
    plateAcc (0x10000 / 4) = some .sel ∧ (plateAcc (0xC0028 / 4) = some .wo ∧ 0xC0028 / 4 < 0x80000) := by decide

theorem wit_InM4NothingElseFollows : aon.pwr.pstate = 4 ∧ aon.pwr.phase = 0 ∧ aon.fore.ready = false ∧ aon.hop.frames = [] ∧ aon.hop.chans = [] ∧
    aon.med.chans = [] ∧ aon.host.reqs = [] ∧ aon.lineAskers = [] ∧ (∀ e : Nat, e < 2 → (aon.seam e).st = .idle) ∧ aon.tx.commitWait = none ∧
    aon.per.orderly = none ∧ aon.pwr.m3Exit = false ∧ aon.dbg.stepGo = none ∧ (∀ p : Nat, p < 3 → (aon.pathQ p).q = [] ∧ (aon.pathQ p).wait = []) ∧
    aon.dbg.accRead = none ∧ aon.dbg.accStatus ≠ 1 ∧ aon.per.everBudget = false := by decide

end Sys2Proof.Tests
end

section
/-! Stripe groups and their dies (R122, R123): a die's number gives back its channel and its slot, and a stripe group has one channel index for each
channel of its set. -/
namespace Sys2Proof.Machine

/-- R122: the tens of a die's number are its channel. -/
@[simp] theorem dieOf_div_ten (g x : Nat) : dieOf g x / 10 = mcOf g x := by
  have hslot : g % 10 < 10 := Nat.mod_lt g (by decide)
  rw [dieOf, mcOf, Nat.mul_add_div (by decide), Nat.div_eq_of_lt hslot, Nat.add_zero]

/-- R123: the channel index is the channel's number less ten times the group's set. -/
theorem mcOf_eq_iff {g c : Nat} (hset : c / 10 = g / 10) (x : Nat) : mcOf g x = c ↔ x = c - 10 * (g / 10) := by
  have hle : 10 * (g / 10) ≤ c := hset ▸ Nat.mul_div_le c 10
  rw [mcOf, eq_tsub_iff_add_eq_of_le hle]

/-- The index of a channel of the group's set is one of ten. -/
theorem channelIndex_lt_ten {g c : Nat} (hset : c / 10 = g / 10) : c - 10 * (g / 10) < 10 := by
  omega

/-- A group of the first set (SG0–SG9) takes its own slot of MC0–MC9. -/
theorem dieOf_of_lt_ten {g : Nat} (hg : g < 10) (x : Nat) : dieOf g x = 10 * x + g := by
  have hset : g / 10 = 0 := Nat.div_eq_of_lt hg
  simp [dieOf, hset, Nat.mod_eq_of_lt hg]

/-- A group of the second set (SG10–SG19) takes the slot ten below its number, of MC10–MC19. -/
theorem dieOf_of_ten_le {g : Nat} (hlo : 10 ≤ g) (hhi : g < 20) (x : Nat) : dieOf g x = 10 * (10 + x) + (g - 10) := by
  have hset : g / 10 = 1 := by omega
  have hslot : g % 10 = g - 10 := by omega
  rw [dieOf, hset, hslot, Nat.mul_one, Nat.add_comm x 10]

/-- Settles O52: the die's number gives back its channel, so the group's die on a channel is the one at that channel's index. -/
theorem stripeGroupsTakeOneDiePerChannel : Obligations.StripeGroupsTakeOneDiePerChannel := by
  refine ⟨fun g x hg _ => dieOf_of_lt_ten hg x, fun g x hlo hhi _ => dieOf_of_ten_le hlo hhi x, fun g c _ hset => ?_⟩
  refine ⟨channelIndex_lt_ten hset, ?_, fun x _ hx => ?_⟩
  · rw [dieOf_div_ten, mcOf_eq_iff hset]
  · rwa [dieOf_div_ten, mcOf_eq_iff hset] at hx

end Sys2Proof.Machine
end

section
/-! The ALU group (R260, R262–R264): the operation that fn names is read back from its word, each operation's result is the one of R264's
table, and a foreman that stands before one writes that result to rd and to no other register. -/
namespace Sys2Proof.Machine

/-! ### The fields of a format A word (R262) -/

section
open BitVec (extractLsb'_append_eq_of_le extractLsb'_append_eq_left extractLsb'_append_eq_right)

variable (op : BitVec 6) (rd ra rb : BitVec 5) (fn : BitVec 11)

theorem fmtA_fn : (fmtA op rd ra rb fn).extractLsb' 0 11 = fn := extractLsb'_append_eq_right

theorem fmtA_rb : (fmtA op rd ra rb fn).extractLsb' 11 5 = rb :=
  (extractLsb'_append_eq_of_le (by decide)).trans extractLsb'_append_eq_right

theorem fmtA_ra : (fmtA op rd ra rb fn).extractLsb' 16 5 = ra :=
  (extractLsb'_append_eq_of_le (by decide)).trans <|
    (extractLsb'_append_eq_of_le (by decide)).trans extractLsb'_append_eq_right

theorem fmtA_rd : (fmtA op rd ra rb fn).extractLsb' 21 5 = rd :=
  (extractLsb'_append_eq_of_le (by decide)).trans <| (extractLsb'_append_eq_of_le (by decide)).trans <|
    (extractLsb'_append_eq_of_le (by decide)).trans extractLsb'_append_eq_right

theorem fmtA_op : (fmtA op rd ra rb fn).extractLsb' 26 6 = op :=
  (extractLsb'_append_eq_of_le (by decide)).trans <| (extractLsb'_append_eq_of_le (by decide)).trans <|
    (extractLsb'_append_eq_of_le (by decide)).trans extractLsb'_append_eq_left

end

theorem aluOf_fn (o : Alu) : aluOf o.fn = some o := by cases o <;> rfl

/-- R263, R264: the word of opcode 0x01 with an operation's fn is that operation. -/
theorem bdecode_fmtA_alu (o : Alu) (rd ra rb : BitVec 5) : bdecode (fmtA 0x01 rd ra rb o.fn) = some (.alu o rd ra rb) := by
  have hop : (0x01 : BitVec 6).toNat = 1 := rfl
  simp only [bdecode, fmtA_op, hop, fmtA_fn, fmtA_rb, fmtA_ra, fmtA_rd, aluOf_fn, Option.map_some]

/-! ### The results of R264's table -/

namespace Alu

theorem eval_slt (a b : Dword) : slt.eval a b = if a.toInt < b.toInt then 1 else 0 := by
  simp [eval, b2d, BitVec.slt]

theorem eval_sltu (a b : Dword) : sltu.eval a b = if a.toNat < b.toNat then 1 else 0 := by
  simp [eval, b2d, BitVec.ult]

theorem eval_mul (a b : Dword) : mul.eval a b = BitVec.ofNat 64 (a.toNat * b.toNat % 2 ^ 64) := by
  apply BitVec.eq_of_toNat_eq
  rw [eval, BitVec.toNat_mul, BitVec.toNat_ofNat, Nat.mod_mod]

/-- A division by 0 gives all ones, which the model writes as the complement of 0. -/
theorem eval_divu (a b : Dword) :
    divu.eval a b = if b = 0 then BitVec.ofNat 64 (2 ^ 64 - 1) else BitVec.ofNat 64 (a.toNat / b.toNat) := by
  have hones : ~~~ (0 : Dword) = BitVec.ofNat 64 (2 ^ 64 - 1) := rfl
  rw [eval, hones, ← BitVec.toNat_udiv, BitVec.ofNat_toNat, BitVec.setWidth_eq]

theorem eval_remu (a b : Dword) : remu.eval a b = if b = 0 then a else BitVec.ofNat 64 (a.toNat % b.toNat) := by
  rw [eval, ← BitVec.toNat_umod, BitVec.ofNat_toNat, BitVec.setWidth_eq]

theorem eval_minu (a b : Dword) : minu.eval a b = BitVec.ofNat 64 (min a.toNat b.toNat) := by
  by_cases h : b.toNat < a.toNat
  · simp [eval, BitVec.ult, h, min_eq_right h.le]
  · simp [eval, BitVec.ult, h, min_eq_left (le_of_not_gt h)]

theorem eval_maxu (a b : Dword) : maxu.eval a b = BitVec.ofNat 64 (max a.toNat b.toNat) := by
  by_cases h : a.toNat < b.toNat
  · simp [eval, BitVec.ult, h, max_eq_right h.le]
  · simp [eval, BitVec.ult, h, max_eq_left (le_of_not_gt h)]

end Alu

/-! ### A foreman's registers (R260) -/

namespace Foreman

theorem setG_zero (x : Foreman) (v : Dword) : x.setG 0 v = x := rfl

theorem setG_of_ne {r : Nat} (hr : r ≠ 0) (x : Foreman) (v : Dword) : x.setG r v = { x with g := tput 0 x.g r v } := if_neg hr

/-- R260: the register that is written holds the value, but for g0, and every other one is as it was. -/
theorem reg_setG (x : Foreman) (r : Nat) (v : Dword) (j : Nat) (hg : twf 0 x.g = true) :
    (x.setG r v).reg j = if j = r ∧ j ≠ 0 then v else x.reg j := by
  by_cases hj : j = 0
  · simp [reg, hj]
  by_cases hjr : j = r
  · subst hjr
    rw [setG_of_ne hj, if_pos ⟨rfl, hj⟩, reg, if_neg hj, tget_tput_self _ _ _ _ hg]
  rw [if_neg (fun h => hjr h.1)]
  by_cases hr : r = 0
  · rw [hr, setG_zero]
  · rw [setG_of_ne hr, reg, tget_tput_other _ _ _ _ _ hjr, ← reg]

theorem setG_twf (x : Foreman) (r : Nat) (v : Dword) (hg : twf 0 x.g = true) : twf 0 (x.setG r v).g = true := by
  by_cases hr : r = 0
  · rwa [hr, setG_zero]
  · rw [setG_of_ne hr]
    exact tput_twf _ _ _ _ hg

/-- A write to g0 only goes on to the next word. -/
theorem put_zero (x : Foreman) (v : Dword) : x.put 0 v = { x with pc := x.pc + 1 } := rfl

end Foreman

/-! ### The commands of the group -/

/-- The command of an operation of the group. -/
def Alu.instr (o : Alu) (f : Fin 8) (rd ra rb : BitVec 5) : Instr :=
  match o with
  | .add => .add f rd ra rb | .sub => .sub f rd ra rb | .and => .and f rd ra rb | .or => .or f rd ra rb
  | .xor => .xor f rd ra rb | .sll => .sll f rd ra rb | .srl => .srl f rd ra rb | .sra => .sra f rd ra rb
  | .slt => .slt f rd ra rb | .sltu => .sltu f rd ra rb | .mul => .mul f rd ra rb | .mulhu => .mulhu f rd ra rb
  | .divu => .divu f rd ra rb | .remu => .remu f rd ra rb | .minu => .minu f rd ra rb | .maxu => .maxu f rd ra rb

/-- Each command of the group has its foreman execute the instruction of its operation. -/
theorem exec_aluInstr (o : Alu) (f : Fin 8) (rd ra rb : BitVec 5) (s : State) :
    exec (o.instr f rd ra rb) s = run s (fun m => m.bauri f (.alu o rd ra rb)) := by
  cases o <;> rfl

/-- A foreman that stands before an operation changes its own state by `g`, which is the write of the operation's result to rd. -/
theorem exec_aluInstr_stands {s : State} {f : Fin 8} {rd ra rb : BitVec 5} (o : Alu) {g : Foreman → Foreman}
    (hg : ∀ x : Foreman, x.put rd (o.eval (x.val ra) (x.val rb)) = g x) (h : Stands s.m f (.alu o rd ra rb)) :
    exec (o.instr f rd ra rb) s = answers s (fmDoes s.m f g) := by
  rw [exec_aluInstr, run_answers, Mod.bauri_stands _ _ _ h]
  simp only [Mod.bexec, fmDoes, hg]

/-- Settles O48: `exec_aluInstr_stands` for each row of the table, where the model computes the table's result by definition (`rfl`) or by
its `Alu.eval` lemma; the no-operation is the row of ADD whose write `Foreman.put_zero` discards. -/
theorem aluGroupComputesItsTable : Obligations.AluGroupComputesItsTable := by
  intro s f rd ra rb
  refine ⟨bdecode_fmtA_alu .add rd ra rb, bdecode_fmtA_alu .sub rd ra rb, bdecode_fmtA_alu .and rd ra rb,
    bdecode_fmtA_alu .or rd ra rb, bdecode_fmtA_alu .xor rd ra rb, bdecode_fmtA_alu .sll rd ra rb,
    bdecode_fmtA_alu .srl rd ra rb, bdecode_fmtA_alu .sra rd ra rb, bdecode_fmtA_alu .slt rd ra rb,
    bdecode_fmtA_alu .sltu rd ra rb, bdecode_fmtA_alu .mul rd ra rb, bdecode_fmtA_alu .mulhu rd ra rb,
    bdecode_fmtA_alu .divu rd ra rb, bdecode_fmtA_alu .remu rd ra rb, bdecode_fmtA_alu .minu rd ra rb,
    bdecode_fmtA_alu .maxu rd ra rb,
    exec_aluInstr_stands .add fun _ => rfl, exec_aluInstr_stands .sub fun _ => rfl,
    exec_aluInstr_stands .and fun _ => rfl, exec_aluInstr_stands .or fun _ => rfl,
    exec_aluInstr_stands .xor fun _ => rfl, exec_aluInstr_stands .sll fun _ => rfl,
    exec_aluInstr_stands .srl fun _ => rfl, exec_aluInstr_stands .sra fun _ => rfl,
    exec_aluInstr_stands .slt fun x => congrArg (x.put rd) (Alu.eval_slt _ _),
    exec_aluInstr_stands .sltu fun x => congrArg (x.put rd) (Alu.eval_sltu _ _),
    exec_aluInstr_stands .mul fun x => congrArg (x.put rd) (Alu.eval_mul _ _),
    exec_aluInstr_stands .mulhu fun _ => rfl,
    exec_aluInstr_stands .divu fun x => congrArg (x.put rd) (Alu.eval_divu _ _),
    exec_aluInstr_stands .remu fun x => congrArg (x.put rd) (Alu.eval_remu _ _),
    exec_aluInstr_stands .minu fun x => congrArg (x.put rd) (Alu.eval_minu _ _),
    exec_aluInstr_stands .maxu fun x => congrArg (x.put rd) (Alu.eval_maxu _ _),
    fun x v r hg => Foreman.reg_setG x rd.toNat v r hg, fun x v hg => Foreman.setG_twf x rd.toNat v hg,
    bdecode_fmtA_alu .add 0 0 0, exec_aluInstr_stands .add fun x => Foreman.put_zero x _⟩

end Sys2Proof.Machine
end

section
/-! The general counters (R384): what counting does to a value and its WRAPS, the overflow flag that CNT_STAT shows, and the immediate clear. -/
namespace Sys2Proof.Machine

/-! ### Counting -/

/-- Short of 2^64, counting leaves WRAPS as it is. -/
theorem ctrAdd_of_lt {c : Ctr} {n : Nat} (hwraps : c.wraps ≤ 255) (hlt : c.val + n < 2 ^ 64) :
    ctrAdd c n = { val := c.val + n, wraps := c.wraps } := by
  rw [ctrAdd, Nat.mod_eq_of_lt hlt, Nat.div_eq_of_lt hlt, Nat.add_zero, min_eq_right hwraps]

/-- A value and an increment below 2^64 pass it at most once, so WRAPS goes up by one, saturating. -/
theorem ctrAdd_of_le {c : Ctr} {n : Nat} (hval : c.val < 2 ^ 64) (hn : n < 2 ^ 64) (hle : 2 ^ 64 ≤ c.val + n) :
    ctrAdd c n = { val := c.val + n - 2 ^ 64, wraps := min 255 (c.wraps + 1) } := by
  have honce : (c.val + n) / 2 ^ 64 = 1 := Nat.div_eq_of_lt_le (by omega) (by omega)
  have hrest : (c.val + n) % 2 ^ 64 = c.val + n - 2 ^ 64 := by
    rw [Nat.mod_eq_sub_mod hle, Nat.mod_eq_of_lt (by omega)]
  rw [ctrAdd, honce, hrest]

/-! ### The bits of a word's fields -/

@[simp] theorem bit_or (v w : Word) (i : Nat) : bit (v ||| w) i = (bit v i || bit w i) := BitVec.getLsbD_or

theorem bit_fld (lo v i : Nat) : bit (fld lo v) i = (decide (i < 32) && (decide (lo ≤ i) && v.testBit (i - lo))) := by
  rw [bit, fld, BitVec.getLsbD_ofNat, Nat.testBit_shiftLeft]

/-- A one-bit field shows its flag. -/
theorem bit_flag_self {i : Nat} (hi : i < 32) (b : Bool) : bit (flag i b) i = b := by
  rw [flag, bit_fld, Nat.sub_self, Nat.testBit_zero]
  cases b <;> simp [hi]

/-- A saturating field sets no bit above its width. -/
theorem bit_satFld_of_le {lo wd i : Nat} (hi : lo + wd ≤ i) (v : Nat) : bit (satFld lo wd v) i = false := by
  have hsat : min v (2 ^ wd - 1) < 2 ^ (i - lo) := calc
    min v (2 ^ wd - 1) < 2 ^ wd := Nat.lt_of_le_pred (Nat.two_pow_pos wd) (Nat.min_le_right v _)
    _ ≤ 2 ^ (i - lo) := Nat.pow_le_pow_right (by decide) (by omega)
  rw [satFld, bit_fld, Nat.testBit_lt_two_pow hsat, Bool.and_false, Bool.and_false]

/-! ### CNT_STAT and CNT_CLR -/

/-- CNT_STAT: OVF in bit 31, WRAPS in bits 7:0. -/
theorem perfR_cntStat (m : Mod) (i : Nat) :
    perfR m 0xC0024 i = flag 31 ((tget {} m.perf.ctrs i).wraps != 0) ||| satFld 0 8 (tget {} m.perf.ctrs i).wraps := rfl

/-- OVF is set while WRAPS is not 0: the WRAPS field, which shares the word, does not reach bit 31. -/
theorem bit_perfR_cntStat_ovf (m : Mod) (i : Nat) :
    bit (perfR m 0xC0024 i) 31 = decide ((tget {} m.perf.ctrs i).wraps ≠ 0) := by
  rw [perfR_cntStat, bit_or, bit_flag_self (by decide), bit_satFld_of_le (by decide), Bool.or_false, Bool.eq_iff_iff, bne_iff_ne,
    decide_eq_true_iff]

/-- A write of CNT_CLR.CLEAR puts the counter to its default at once and changes nothing else. -/
theorem Mod.wordWrite_cntClr (m : Mod) (who i mask : Nat) {v : Word} (ok : Bool) (hclear : bit v 0 = true) :
    m.wordWrite who i 0xC0028 v mask ok = { m with perf := { m.perf with ctrs := tput {} m.perf.ctrs i {} } } := by
  have harm : m.wordWrite who i 0xC0028 v mask ok =
      if bit v 0 then { m with perf := { m.perf with ctrs := tput {} m.perf.ctrs i {} } } else m := rfl
  rw [harm, if_pos hclear]

/-- Settles O49: counting below and past 2^64, OVF as a bit of CNT_STAT, the clear and what then reads back, and the frame of counting
(`Mod.ctrsAdd_perf_only`). -/
theorem countersWrapAndSaturate : Obligations.CountersWrapAndSaturate := by
  refine ⟨fun c n _ hwraps hlt => ctrAdd_of_lt hwraps hlt, fun c n hval hn hle => ctrAdd_of_le hval hn hle,
    bit_perfR_cntStat_ovf, fun m who i mask v ok hclear => m.wordWrite_cntClr who i mask ok hclear,
    fun t i ht => tget_tput_self _ t i _ ht, fun m l n => ?_⟩
  obtain ⟨-, -, -, hevt⟩ := m.ctrsAdd_perf_only l n
  exact hevt

end Sys2Proof.Machine
end

section
/-! One step of the block (R312, R340, R429, R453): every command but a supply above the absolute maximum rating answers with a next state that
keeps the queue, and the last thing that follows from it, the dispatch of free foremen, touches nothing the alert line's rule reads. -/
namespace Sys2Proof.Machine

/-! ### The outcome of a command -/

/-- A supply above 24 V is the one command that stops the module. -/
theorem exec_vinOvervoltage_over {mv : Nat} (h : 24000 < mv) (s : State) : exec (.vinOvervoltage mv) s = .fault .outsideRatings := if_pos h

/-- Every other command answers: its own effect, then what follows at once. -/
theorem exec_answers (c : Instr) (s : State) (h : ∀ mv, c = .vinOvervoltage mv → mv ≤ 24000) : ∃ m, exec c s = answers s m := by
  cases c with
  | vinOvervoltage mv => exact ⟨_, if_neg (Nat.not_lt.mpr (h mv rfl))⟩
  | _ => exact ⟨_, rfl⟩

/-- A step on a non-empty queue answers, or meets a supply above 24 V. -/
theorem exec_cases (c : Instr) (s : State) :
    (∃ m, exec c s = answers s m) ∨ ∃ mv, c = .vinOvervoltage mv ∧ 24000 < mv ∧ exec c s = .fault .outsideRatings := by
  by_cases h : ∃ mv, c = .vinOvervoltage mv ∧ 24000 < mv
  · obtain ⟨mv, rfl, hmv⟩ := h
    exact .inr ⟨mv, rfl, hmv, exec_vinOvervoltage_over hmv s⟩
  · exact .inl (exec_answers c s fun mv hc => Nat.not_lt.mp fun hmv => h ⟨mv, hc, hmv⟩)

/-- What one step can do: a next state with the queue's tail and the module that follows from some effect, or the fault of R453. -/
theorem step_cases (s : State) :
    (∃ m, step s = .next { pending := s.pending.tail, m := Mod.fin s.m m }) ∨
      ∃ mv rest, s.pending = .vinOvervoltage mv :: rest ∧ 24000 < mv ∧ step s = .fault .outsideRatings := by
  cases hq : s.pending with
  | nil => 
    refine .inl ⟨s.m.tick, ?_⟩
    rw [step_empty s hq, idleTick, hq]; rfl
  | cons c rest =>
    rw [step_front s c rest hq]
    rcases exec_cases c { s with pending := rest } with ⟨m, h⟩ | ⟨mv, rfl, hmv, h⟩
    · exact .inl ⟨m, h⟩
    · exact .inr ⟨mv, rest, rfl, hmv, h⟩

/-- A step that goes on ends with what follows from some effect, on the queue's tail. -/
theorem step_next {s t : State} (h : step s = .next t) : t.pending = s.pending.tail ∧ ∃ m, t.m = Mod.fin s.m m := by
  rcases step_cases s with ⟨m, hm⟩ | ⟨mv, rest, -, -, hf⟩
  · have ht := Host.Outcome.next.inj (hm.symm.trans h)
    exact ⟨by rw [← ht], m, by rw [← ht]⟩
  · rw [hf] at h
    cases h

/-! ### What the alert line's rule reads -/

/-- What the alert line's rule reads, and the line itself, stay as they were: the power state, AON's reset, the plates and the events. -/
def AlertInputsKept (m m' : Mod) : Prop := m'.pwr = m.pwr ∧ m'.cfg = m.cfg ∧ m'.evt = m.evt

theorem alertRule_of_kept {m m' : Mod} (h : AlertInputsKept m m') : alertRule m' = alertRule m := by
  obtain ⟨hpwr, hcfg, hevt⟩ := h
  simp only [alertRule, routeOf, Mod.w, hpwr, hcfg, hevt]

theorem AlertInputsKept.trans {a b c : Mod} (h : AlertInputsKept a b) (h' : AlertInputsKept b c) : AlertInputsKept a c :=
  ⟨h'.1.trans h.1, h'.2.1.trans h.2.1, h'.2.2.trans h.2.2⟩

/-- Starting a hook's program changes the foremen, the hooks and a master. -/
theorem Mod.startHook_keeps (m : Mod) (f h : Nat) : AlertInputsKept m (m.startHook f h) := by
  unfold Mod.startHook
  split
  · exact ⟨rfl, rfl, rfl⟩
  · exact ⟨rfl, rfl, rfl⟩

/-- Starting a queue's program changes the foremen, the queue and a master. -/
theorem Mod.startQ_keeps (m : Mod) (f q : Nat) : AlertInputsKept m (m.startQ f q) := by
  unfold Mod.startQ
  split
  · exact ⟨rfl, rfl, rfl⟩
  · exact ⟨rfl, rfl, rfl⟩

theorem Mod.dispatchOne_keeps (m : Mod) (f : Nat) : AlertInputsKept m (m.dispatchOne f) := by
  unfold Mod.dispatchOne
  split
  · split
    · exact m.startHook_keeps f _
    · split
      · exact m.startQ_keeps f _
      · exact ⟨rfl, rfl, rfl⟩
  · exact ⟨rfl, rfl, rfl⟩

/-- R246: dispatching free foremen does not touch what the alert line shows. -/
theorem Mod.dispatch_keeps (m : Mod) : AlertInputsKept m m.dispatch := by
  unfold Mod.dispatch
  induction List.range 8 generalizing m with
  | nil => exact ⟨rfl, rfl, rfl⟩
  | cons f l ih => exact (m.dispatchOne_keeps f).trans (ih _)

/-! ### What the records and the sources leave of the power state -/

/-- What every step of a fold keeps, the fold keeps. -/
theorem foldl_keeps {α β : Type} (proj : Mod → β) {f : Mod → α → Mod} (h : ∀ m a, proj (f m a) = proj m) (l : List α) (m : Mod) :
    proj (l.foldl f m) = proj m := by
  induction l generalizing m with
  | nil => rfl
  | cons a l ih => rw [List.foldl_cons, ih, h]

@[simp] theorem Mod.tallyLost_pwr (m : Mod) (lost : Bool) : (m.tallyLost lost).pwr = m.pwr := by
  cases lost <;> rfl

@[simp] theorem Mod.traceOut_pwr (m : Mod) (seq : Nat) : (m.traceOut seq).pwr = m.pwr := by
  unfold Mod.traceOut
  split
  · dsimp only; split <;> rfl
  · rfl

/-- Opening a block changes the blocks' table alone. -/
theorem Mod.withBlk_frame {m m' : Mod} {wr : Writer} {b tagged : Bool} {grp : Option Nat} {k : Nat}
    (h : m.withBlk wr b tagged grp = some (k, m')) : ∃ u, m' = { m with upk := u } := by
  unfold Mod.withBlk at h
  split at h
  · cases h
    exact ⟨_, rfl⟩
  · split at h
    · split at h
      · cases h
      · obtain ⟨n, -, hn⟩ := Option.map_eq_some_iff.mp h
        cases hn
        exact ⟨_, rfl⟩
    · cases h

theorem Mod.rowBlk_frame {m m' : Mod} {wr : Writer} {b tagged : Bool} {grp : Option Nat} {k : Nat}
    (h : m.rowBlk wr b tagged grp = some (k, m')) : ∃ u, m' = { m with upk := u } := by
  unfold Mod.rowBlk at h
  split at h
  · cases h
  · next k1 m1 h1 =>
    obtain ⟨u, rfl⟩ := Mod.withBlk_frame h1
    split at h
    · dsimp only at h
      split at h
      · cases h
        exact ⟨_, rfl⟩
      · obtain ⟨u', rfl⟩ := Mod.withBlk_frame h
        exact ⟨u', rfl⟩
    · cases h
      exact ⟨_, rfl⟩

/-- A row taken changes the blocks and the medium's rows alone. -/
theorem Mod.newRow_frame {m m' : Mod} {wr : Writer} {b tagged : Bool} {seq : Nat} {grp : Option Nat} {r : Row}
    (h : m.newRow wr b tagged seq grp = some (r, m')) : ∃ u d, m' = { m with upk := u, med := d } := by
  obtain ⟨⟨k, m1⟩, h1, h2⟩ := Option.map_eq_some_iff.mp h
  obtain ⟨u, rfl⟩ := Mod.rowBlk_frame h1
  cases h2
  exact ⟨_, _, rfl⟩

/-- A journal-mode page, or a row of metadata, changes the blocks and the medium alone. -/
theorem Mod.writeMeta_frame (m : Mod) (wr : Writer) (seq : Nat) : ∃ u d, m.writeMeta wr seq = { m with upk := u, med := d } := by
  unfold Mod.writeMeta
  split
  · next h =>
    obtain ⟨u, d, rfl⟩ := Mod.newRow_frame h
    split <;> exact ⟨_, _, rfl⟩
  · split
    · next h =>
      obtain ⟨u, d, rfl⟩ := Mod.newRow_frame h
      split <;> exact ⟨_, _, rfl⟩
    · exact ⟨_, _, rfl⟩

@[simp] theorem Mod.tallyPage_pwr (m : Mod) : m.tallyPage.pwr = m.pwr := by
  unfold Mod.tallyPage
  split
  · rfl
  · obtain ⟨u, d, h⟩ := m.writeMeta_frame .tally (m.tly.head + 1 - m.tly.staged)
    simp only [h]

@[simp] theorem Mod.tallyFull_pwr (m : Mod) : m.tallyFull.pwr = m.pwr := by
  unfold Mod.tallyFull
  split
  · exact m.tallyPage_pwr
  · rfl

/-- A Tally record leaves the power state. -/
@[simp] theorem Mod.tally_pwr (m : Mod) (type src island : Nat) (payload : List Byte) : (m.tally type src island payload).pwr = m.pwr := by
  unfold Mod.tally Mod.tallyWith
  split
  · rw [Mod.tallyFull_pwr, Mod.traceOut_pwr]
    exact Mod.tallyLost_pwr _ _
  · rfl

/-- A record in a log leaves the power state. -/
@[simp] theorem Mod.addRec_pwr (m : Mod) (i kind src b count tallySeq data : Nat) :
    (m.addRec i kind src b count tallySeq data).pwr = m.pwr := by
  unfold Mod.addRec
  by_cases hfull : 64 ≤ (m.evLog i).recs.length
  · simp only [if_pos hfull]
  · simp only [if_neg hfull]
    by_cases hmgmt : i = logMgmt
    · simp only [if_pos hmgmt, apply_ite Mod.pwr, Mod.emit_pwr, ite_self]
    · simp only [if_neg hmgmt]
      split <;> rfl

@[simp] theorem Mod.produce_pwr (m : Mod) (s dests : Nat) : (m.produce s dests).pwr = m.pwr := by
  unfold Mod.produce
  simp only [Mod.setSrc_pwr, apply_ite Mod.pwr, Mod.addRec_pwr, Mod.tally_pwr, ite_self]

@[simp] theorem Mod.fireHook_pwr (m : Mod) (h v : Nat) : (m.fireHook h v).pwr = m.pwr := by
  unfold Mod.fireHook
  split <;> rfl

@[simp] theorem Mod.fireSrcHooks_pwr (m : Mod) (s : Nat) : (m.fireSrcHooks s).pwr = m.pwr :=
  foldl_keeps Mod.pwr (fun m h => m.fireHook_pwr h 0) _ m

/-- R309: a source's transition leaves the power state. -/
theorem Mod.settle_pwr (m : Mod) (s : Nat) : (m.settle s).pwr = m.pwr := by
  simp only [Mod.settle, apply_ite Mod.pwr, Mod.setSrc_pwr, Mod.produce_pwr, Mod.fireSrcHooks_pwr, ite_self]

/-- Outside M4 and with AON out of reset the line is driven as the sources, each settled, give it. -/
theorem Mod.settleAll_driven (m : Mod) (h : ¬(m.pwr.pstate = 4 || m.pwr.aonReset) = true) : ∃ l : List Nat, m.settleAll =
    let x := l.foldl Mod.settle m
    let driven := bit (x.w 0 0x110200) 0 && !x.evt.released && x.evt.srcs.any (fun e => e.2.pending && bit (routeOf x e.1) 3)
    { x with evt := { x.evt with alert := driven } } :=
  ⟨_, if_neg h⟩

theorem Mod.settleAll_released (m : Mod) (h : (m.pwr.pstate = 4 || m.pwr.aonReset) = true) :
    m.settleAll = { m with evt := { m.evt with alert := false } } := if_pos h

/-- R312, R429: settling the sources ends with the alert line as its rule gives it. -/
theorem Mod.settleAll_alert (m : Mod) : m.settleAll.evt.alert = alertRule m.settleAll := by
  by_cases h : (m.pwr.pstate = 4 || m.pwr.aonReset) = true
  · rw [m.settleAll_released h]
    exact (if_pos h).symm
  · obtain ⟨l, hl⟩ := m.settleAll_driven h
    rw [hl]
    have hpwr : (l.foldl Mod.settle m).pwr = m.pwr := foldl_keeps Mod.pwr Mod.settle_pwr l m
    generalize l.foldl Mod.settle m = x at hpwr ⊢
    exact (if_neg (hpwr ▸ h)).symm

/-- Whatever a command does, what follows from it ends with the alert line as its rule gives it. -/
theorem Mod.fin_alert (old m : Mod) : (Mod.fin old m).evt.alert = alertRule (Mod.fin old m) := by
  have hlast : ∃ x : Mod, Mod.fin old m = x.settleAll.dispatch := ⟨_, rfl⟩
  obtain ⟨x, hx⟩ := hlast
  have hkept := x.settleAll.dispatch_keeps
  rw [hx, alertRule_of_kept hkept, hkept.2.2, Mod.settleAll_alert]

/-! ### The statements -/

/-- Settles O1, by the two cases of the queue. -/
theorem stepTakesTheFrontCommand : Obligations.StepTakesTheFrontCommand :=
  ⟨step_front, step_empty⟩

/-- Settles O2: `step_next` names the queue after a step. -/
theorem stepLeavesTheQueuesRest : Obligations.StepLeavesTheQueuesRest :=
  fun _ _ h => (step_next h).1

/-- Settles O3: `step_cases` leaves one fault, and the model has no refusal. -/
theorem onlyOverratedSupplyStopsTheModule : Obligations.OnlyOverratedSupplyStopsTheModule := by
  intro s
  rcases step_cases s with ⟨m, hnext⟩ | ⟨mv, rest, hq, hmv, hfault⟩
  · rw [hnext]
    refine ⟨fun r => nofun, fun e => ⟨nofun, ?_⟩⟩
    rintro ⟨-, mv, rest, hq, hmv⟩
    have hf := (step_front s _ rest hq).trans (exec_vinOvervoltage_over hmv _)
    rw [hf] at hnext
    cases hnext
  · rw [hfault]
    refine ⟨fun r => nofun, fun e => ⟨fun he => ?_, fun ⟨he, _⟩ => he ▸ rfl⟩⟩
    cases he
    exact ⟨rfl, mv, rest, hq, hmv⟩

/-- Settles O4: the invariant needs no hypothesis, since every step ends by evaluating the rule. -/
theorem alertLineFollowsItsRule : Obligations.AlertLineFollowsItsRule := by
  intro s t _ h
  obtain ⟨-, m, hm⟩ := step_next h
  rw [hm]
  exact Mod.fin_alert s.m m

/-- Settles O5: the state after reset is a literal. -/
theorem resetStateIsQuiet : Obligations.ResetStateIsQuiet :=
  ⟨rfl, rfl, rfl, rfl, fun _ => rfl, rfl⟩

end Sys2Proof.Machine
end

section
/-! The Bauri encodings (R262, R263): the fields of each format's word, a word as its fields, and the two round trips between instructions and
words. -/
namespace Sys2Proof.Machine

/-! ### The fields of a word of format B, C, D and E -/

section
open BitVec (extractLsb'_append_eq_of_le extractLsb'_append_eq_of_add_le extractLsb'_eq_self)

section
variable (op : BitVec 6) (rd rs : BitVec 5) (sub : BitVec 2) (imm : BitVec 14)

theorem fmtB_op : (fmtB op rd rs sub imm).extractLsb' 26 6 = op := by
  simp (disch := decide) only [fmtB, extractLsb'_append_eq_of_le, Nat.reduceSub, extractLsb'_eq_self]
theorem fmtB_rd : (fmtB op rd rs sub imm).extractLsb' 21 5 = rd := by
  simp (disch := decide) only [fmtB, extractLsb'_append_eq_of_le, extractLsb'_append_eq_of_add_le, Nat.reduceSub, extractLsb'_eq_self]
theorem fmtB_rs : (fmtB op rd rs sub imm).extractLsb' 16 5 = rs := by
  simp (disch := decide) only [fmtB, extractLsb'_append_eq_of_le, extractLsb'_append_eq_of_add_le, Nat.reduceSub, extractLsb'_eq_self]
theorem fmtB_sub : (fmtB op rd rs sub imm).extractLsb' 14 2 = sub := by
  simp (disch := decide) only [fmtB, extractLsb'_append_eq_of_le, extractLsb'_append_eq_of_add_le, Nat.reduceSub, extractLsb'_eq_self]
theorem fmtB_imm : (fmtB op rd rs sub imm).extractLsb' 0 14 = imm := by
  simp (disch := decide) only [fmtB, extractLsb'_append_eq_of_add_le, extractLsb'_eq_self]

/-- The two parts of a shift's immediate. -/
theorem fmtB_shiftHigh (z : BitVec 8) (sh : BitVec 6) : (fmtB op rd rs sub (z ++ sh)).extractLsb' 6 8 = z := by
  simp (disch := decide) only [fmtB, extractLsb'_append_eq_of_le, extractLsb'_append_eq_of_add_le, Nat.reduceSub, extractLsb'_eq_self]
theorem fmtB_shiftAmount (z : BitVec 8) (sh : BitVec 6) : (fmtB op rd rs sub (z ++ sh)).extractLsb' 0 6 = sh := by
  simp (disch := decide) only [fmtB, extractLsb'_append_eq_of_add_le, extractLsb'_eq_self]

/-- The two parts of a signal's immediate. -/
theorem fmtB_signalHigh (z : BitVec 6) (code : BitVec 8) : (fmtB op rd rs sub (z ++ code)).extractLsb' 8 6 = z := by
  simp (disch := decide) only [fmtB, extractLsb'_append_eq_of_le, extractLsb'_append_eq_of_add_le, Nat.reduceSub, extractLsb'_eq_self]
theorem fmtB_signalCode (z : BitVec 6) (code : BitVec 8) : (fmtB op rd rs sub (z ++ code)).extractLsb' 0 8 = code := by
  simp (disch := decide) only [fmtB, extractLsb'_append_eq_of_add_le, extractLsb'_eq_self]

end

section
variable (op : BitVec 6) (ra rb : BitVec 5) (cond z : BitVec 3) (off : BitVec 10)

theorem fmtC_op : (fmtC op ra rb cond z off).extractLsb' 26 6 = op := by
  simp (disch := decide) only [fmtC, extractLsb'_append_eq_of_le, Nat.reduceSub, extractLsb'_eq_self]
theorem fmtC_ra : (fmtC op ra rb cond z off).extractLsb' 21 5 = ra := by
  simp (disch := decide) only [fmtC, extractLsb'_append_eq_of_le, extractLsb'_append_eq_of_add_le, Nat.reduceSub, extractLsb'_eq_self]
theorem fmtC_rb : (fmtC op ra rb cond z off).extractLsb' 16 5 = rb := by
  simp (disch := decide) only [fmtC, extractLsb'_append_eq_of_le, extractLsb'_append_eq_of_add_le, Nat.reduceSub, extractLsb'_eq_self]
theorem fmtC_cond : (fmtC op ra rb cond z off).extractLsb' 13 3 = cond := by
  simp (disch := decide) only [fmtC, extractLsb'_append_eq_of_le, extractLsb'_append_eq_of_add_le, Nat.reduceSub, extractLsb'_eq_self]
theorem fmtC_z : (fmtC op ra rb cond z off).extractLsb' 10 3 = z := by
  simp (disch := decide) only [fmtC, extractLsb'_append_eq_of_le, extractLsb'_append_eq_of_add_le, Nat.reduceSub, extractLsb'_eq_self]
theorem fmtC_off : (fmtC op ra rb cond z off).extractLsb' 0 10 = off := by
  simp (disch := decide) only [fmtC, extractLsb'_append_eq_of_add_le, extractLsb'_eq_self]

end

section
variable (op : BitVec 6) (rd : BitVec 5) (imm : BitVec 21)

theorem fmtD_op : (fmtD op rd imm).extractLsb' 26 6 = op := by
  simp (disch := decide) only [fmtD, extractLsb'_append_eq_of_le, Nat.reduceSub, extractLsb'_eq_self]
theorem fmtD_rd : (fmtD op rd imm).extractLsb' 21 5 = rd := by
  simp (disch := decide) only [fmtD, extractLsb'_append_eq_of_le, extractLsb'_append_eq_of_add_le, Nat.reduceSub, extractLsb'_eq_self]
theorem fmtD_imm : (fmtD op rd imm).extractLsb' 0 21 = imm := by
  simp (disch := decide) only [fmtD, extractLsb'_append_eq_of_add_le, extractLsb'_eq_self]

/-- A loop's count and offset share the immediate of format D. -/
theorem fmtD_count (count : BitVec 11) (off : BitVec 10) : (fmtD op rd (count ++ off)).extractLsb' 10 11 = count := by
  simp (disch := decide) only [fmtD, extractLsb'_append_eq_of_le, extractLsb'_append_eq_of_add_le, Nat.reduceSub, extractLsb'_eq_self]
theorem fmtD_off (count : BitVec 11) (off : BitVec 10) : (fmtD op rd (count ++ off)).extractLsb' 0 10 = off := by
  simp (disch := decide) only [fmtD, extractLsb'_append_eq_of_add_le, extractLsb'_eq_self]

end

section
variable (op : BitVec 6) (r : BitVec 5) (x : Bool) (idx : BitVec 20)

theorem fmtE_op : (fmtE op r x idx).extractLsb' 26 6 = op := by
  simp (disch := decide) only [fmtE, extractLsb'_append_eq_of_le, Nat.reduceSub, extractLsb'_eq_self]
theorem fmtE_r : (fmtE op r x idx).extractLsb' 21 5 = r := by
  simp (disch := decide) only [fmtE, extractLsb'_append_eq_of_le, extractLsb'_append_eq_of_add_le, Nat.reduceSub, extractLsb'_eq_self]
theorem fmtE_idx : (fmtE op r x idx).extractLsb' 0 20 = idx := by
  simp (disch := decide) only [fmtE, extractLsb'_append_eq_of_add_le, extractLsb'_eq_self]
theorem fmtE_x : (fmtE op r x idx)[20] = x := by
  rw [← BitVec.getLsbD_eq_getElem, fmtE, BitVec.getLsbD_append, if_neg (by decide), BitVec.getLsbD_append, if_pos (by decide)]
  exact by simp

end
end

/-! ### The codes of the tables -/

theorem lineOfFn_fn (k : LineK) : lineOfFn k.fn = some k := by cases k <;> rfl

theorem fn_of_aluOf {fn : BitVec 11} {o : Alu} (h : aluOf fn = some o) : o.fn = fn := by
  apply BitVec.eq_of_toNat_eq
  unfold aluOf at h
  split at h <;> cases h <;> exact Eq.symm ‹_›

theorem fn_of_lineOfFn {fn : BitVec 11} {k : LineK} (h : lineOfFn fn = some k) : k.fn = fn := by
  apply BitVec.eq_of_toNat_eq
  unfold lineOfFn at h
  split at h <;> cases h <;> exact Eq.symm ‹_›

/-- A guarded instruction is read exactly if the guard holds. -/
theorem guard1_eq_some {c : Bool} {b x : BOp} : guard1 c b = some x ↔ c = true ∧ b = x := by
  cases c <;> simp [guard1]

theorem keepWf_eq_some {b x : BOp} : keepWf b = some x ↔ b.wf = true ∧ b = x := by
  unfold keepWf
  cases b.wf <;> simp

/-! ### From an instruction to its word and back -/

/-- Settles O45: each constructor's word gives back its fields through the lemmas of its format. -/
theorem bauriDecodeOfEncodeIsTheInstruction : Obligations.BauriDecodeOfEncodeIsTheInstruction := by
  intro b hwf
  cases b with
  | alu o rd ra rb => exact bdecode_fmtA_alu o rd ra rb
  | alui o rd rs imm => cases o <;> simp [bencode, bdecode, AluI.op, fmtB_op, fmtB_rd, fmtB_rs, fmtB_sub, fmtB_imm, guard1]
  | shift o rd rs sh => cases o <;> simp [bencode, bdecode, fmtB_op, fmtB_rd, fmtB_rs, fmtB_sub, fmtB_shiftHigh, fmtB_shiftAmount, Shift.sub]
  | li rd imm => simp [bencode, bdecode, fmtD_op, fmtD_rd, fmtD_imm]
  | lih rd imm => simp [bencode, bdecode, fmtD_op, fmtD_rd, fmtD_imm]
  | ld w rd rs imm => cases w <;> simp [bencode, bdecode, Width.ldOp, fmtB_op, fmtB_rd, fmtB_rs, fmtB_sub, fmtB_imm, guard1]
  | st w rd rs imm => cases w <;> simp [bencode, bdecode, Width.stOp, fmtB_op, fmtB_rd, fmtB_rs, fmtB_sub, fmtB_imm, guard1]
  | br ra rb cond off =>
    have hcond : cond.val % 8 = cond.val := Nat.mod_eq_of_lt (by omega)
    simp [bencode, bdecode, fmtC_op, fmtC_ra, fmtC_rb, fmtC_cond, fmtC_z, fmtC_off, hcond, guard1]
  | j imm => simp [bencode, bdecode, fmtD_op, fmtD_rd, fmtD_imm, guard1]
  | call imm => simp [bencode, bdecode, fmtD_op, fmtD_rd, fmtD_imm, guard1]
  | ret => decide
  | loop ra off => simp [bencode, bdecode, fmtC_op, fmtC_ra, fmtC_rb, fmtC_cond, fmtC_z, fmtC_off, guard1]
  | loopi count off => simp [bencode, bdecode, fmtD_op, fmtD_rd, fmtD_count, fmtD_off, guard1]
  | lend => decide
  | pld r x idx => simp [bencode, bdecode, fmtE_op, fmtE_r, fmtE_x, fmtE_idx]
  | pst r x idx => simp [bencode, bdecode, fmtE_op, fmtE_r, fmtE_x, fmtE_idx]
  | pwait r x idx => simp [bencode, bdecode, fmtE_op, fmtE_r, fmtE_x, fmtE_idx, keepWf, hwf]
  | line k rd ra rb => simp [bencode, bdecode, fmtA_op, fmtA_rd, fmtA_ra, fmtA_rb, fmtA_fn, lineOfFn_fn, keepWf, hwf]
  | cusel rd ra => simp [bencode, bdecode, fmtA_op, fmtA_rd, fmtA_ra, fmtA_rb, fmtA_fn, guard1]
  | cufeed ra rb => simp [bencode, bdecode, fmtA_op, fmtA_rd, fmtA_ra, fmtA_rb, fmtA_fn, guard1]
  | cuget rd => simp [bencode, bdecode, fmtA_op, fmtA_rd, fmtA_ra, fmtA_rb, fmtA_fn, guard1]
  | cuput ra => simp [bencode, bdecode, fmtA_op, fmtA_rd, fmtA_ra, fmtA_rb, fmtA_fn, guard1]
  | txb => decide
  | txc rd => simp [bencode, bdecode, fmtA_op, fmtA_rd, fmtA_ra, fmtA_rb, fmtA_fn, guard1]
  | txa => decide
  | evwait rd rs imm => simp [bencode, bdecode, fmtB_op, fmtB_rd, fmtB_rs, fmtB_sub, fmtB_imm, guard1]
  | evsig rd code => simp [bencode, bdecode, fmtB_op, fmtB_rd, fmtB_rs, fmtB_sub, fmtB_signalHigh, fmtB_signalCode, guard1]
  | evack rd rs imm => simp [bencode, bdecode, fmtB_op, fmtB_rd, fmtB_rs, fmtB_sub, fmtB_imm, guard1]
  | time rd => simp [bencode, bdecode, fmtA_op, fmtA_rd, fmtA_ra, fmtA_rb, fmtA_fn, guard1]
  | halt => decide
  | yield imm => simp [bencode, bdecode, fmtB_op, fmtB_rd, fmtB_rs, fmtB_sub, fmtB_imm, keepWf, hwf]
  | trap imm => simp [bencode, bdecode, fmtB_op, fmtB_rd, fmtB_rs, fmtB_sub, fmtB_imm, keepWf, hwf]

/-- Settles O47: nineteen words and the word 0, each decoded by evaluation. -/
theorem bauriExampleWordsDecode : Obligations.BauriExampleWordsDecode := by
  unfold Obligations.BauriExampleWordsDecode
  decide

/-! ### From a word to its instruction and back -/

section
open BitVec (extractLsb'_append_extractLsb'_eq_extractLsb' extractLsb'_eq_self)

/-- A word is the word of its fields in format A. -/
theorem fmtA_of_fields (w : Word) :
    fmtA (w.extractLsb' 26 6) (w.extractLsb' 21 5) (w.extractLsb' 16 5) (w.extractLsb' 11 5) (w.extractLsb' 0 11) = w := by
  simp only [fmtA]
  rw [extractLsb'_append_extractLsb'_eq_extractLsb' (by decide), extractLsb'_append_extractLsb'_eq_extractLsb' (by decide),
    extractLsb'_append_extractLsb'_eq_extractLsb' (by decide), extractLsb'_append_extractLsb'_eq_extractLsb' (by decide)]
  exact extractLsb'_eq_self

/-- A word is the word of its fields in format B. -/
theorem fmtB_of_fields (w : Word) :
    fmtB (w.extractLsb' 26 6) (w.extractLsb' 21 5) (w.extractLsb' 16 5) (w.extractLsb' 14 2) (w.extractLsb' 0 14) = w := by
  simp only [fmtB]
  rw [extractLsb'_append_extractLsb'_eq_extractLsb' (by decide), extractLsb'_append_extractLsb'_eq_extractLsb' (by decide),
    extractLsb'_append_extractLsb'_eq_extractLsb' (by decide), extractLsb'_append_extractLsb'_eq_extractLsb' (by decide)]
  exact extractLsb'_eq_self

/-- A word is the word of its fields in format C. -/
theorem fmtC_of_fields (w : Word) : fmtC (w.extractLsb' 26 6) (w.extractLsb' 21 5) (w.extractLsb' 16 5) (w.extractLsb' 13 3)
    (w.extractLsb' 10 3) (w.extractLsb' 0 10) = w := by
  simp only [fmtC]
  rw [extractLsb'_append_extractLsb'_eq_extractLsb' (by decide), extractLsb'_append_extractLsb'_eq_extractLsb' (by decide),
    extractLsb'_append_extractLsb'_eq_extractLsb' (by decide), extractLsb'_append_extractLsb'_eq_extractLsb' (by decide),
    extractLsb'_append_extractLsb'_eq_extractLsb' (by decide)]
  exact extractLsb'_eq_self

/-- A word is the word of its fields in format D. -/
theorem fmtD_of_fields (w : Word) : fmtD (w.extractLsb' 26 6) (w.extractLsb' 21 5) (w.extractLsb' 0 21) = w := by
  simp only [fmtD]
  rw [extractLsb'_append_extractLsb'_eq_extractLsb' (by decide), extractLsb'_append_extractLsb'_eq_extractLsb' (by decide)]
  exact extractLsb'_eq_self

theorem ofBool_getLsbD (w : Word) (i : Nat) : BitVec.ofBool (w.getLsbD i) = w.extractLsb' i 1 := by
  ext j hj
  obtain rfl : j = 0 := by omega
  simp

/-- A word is the word of its fields in format E. -/
theorem fmtE_of_fields (w : Word) : fmtE (w.extractLsb' 26 6) (w.extractLsb' 21 5) (w.getLsbD 20) (w.extractLsb' 0 20) = w := by
  simp only [fmtE, ofBool_getLsbD]
  rw [extractLsb'_append_extractLsb'_eq_extractLsb' (by decide), extractLsb'_append_extractLsb'_eq_extractLsb' (by decide),
    extractLsb'_append_extractLsb'_eq_extractLsb' (by decide)]
  exact extractLsb'_eq_self

/-- A loop's count and offset are the immediate of format D. -/
theorem count_append_off (w : Word) : w.extractLsb' 10 11 ++ w.extractLsb' 0 10 = w.extractLsb' 0 21 :=
  extractLsb'_append_extractLsb'_eq_extractLsb' (by decide)

/-- The parts of an immediate of format B. -/
theorem shiftHigh_append (w : Word) : w.extractLsb' 6 8 ++ w.extractLsb' 0 6 = w.extractLsb' 0 14 :=
  extractLsb'_append_extractLsb'_eq_extractLsb' (by decide)
theorem signalHigh_append (w : Word) : w.extractLsb' 8 6 ++ w.extractLsb' 0 8 = w.extractLsb' 0 14 :=
  extractLsb'_append_extractLsb'_eq_extractLsb' (by decide)

end

/-! ### The arms of the decoder -/

theorem field_eq {n k : Nat} {x : BitVec n} (h : x.toNat = k) : x = BitVec.ofNat n k := by
  rw [← h, BitVec.ofNat_toNat, BitVec.setWidth_eq]

theorem of_and_decide {p q : Prop} [Decidable p] [Decidable q] (h : (decide p && decide q) = true) : p ∧ q := by
  simpa using h

theorem of_and_and_decide {p q r : Prop} [Decidable p] [Decidable q] [Decidable r] (h : (decide p && decide q && decide r) = true) :
    p ∧ q ∧ r := by
  simpa [and_assoc] using h

section
variable {w : Word} {k : Nat} {x b : BOp}

/-- An arm that keeps an instruction under a guard `c`: what it reads is well-formed and its word is `w`, if both follow from the guard. -/
theorem reading_of_guard {c : Bool} (h : guard1 c x = some b) (hwf : x.wf = true) (hw : c = true → bencode x = w) :
    b.wf = true ∧ bencode b = w := by
  obtain ⟨hc, rfl⟩ := guard1_eq_some.mp h
  exact ⟨hwf, hw hc⟩

/-- An arm that keeps a well-formed instruction. -/
theorem reading_of_keepWf (h : keepWf x = some b) (hw : bencode x = w) : b.wf = true ∧ bencode b = w := by
  obtain ⟨hwf, rfl⟩ := keepWf_eq_some.mp h
  exact ⟨hwf, hw⟩

variable (hop : (w.extractLsb' 26 6).toNat = k)
include hop

/-- The word in format A, whose registers and function are `rd`, `ra`, `rb` and `fn`. -/
theorem fmtA_eq {rd ra rb : BitVec 5} {fn : BitVec 11} (hd : w.extractLsb' 21 5 = rd) (ha : w.extractLsb' 16 5 = ra)
    (hb : w.extractLsb' 11 5 = rb) (hf : w.extractLsb' 0 11 = fn) : fmtA (BitVec.ofNat 6 k) rd ra rb fn = w := by
  rw [← field_eq hop, ← hd, ← ha, ← hb, ← hf, fmtA_of_fields]

theorem fmtB_eq {rd rs : BitVec 5} {sub : BitVec 2} {imm : BitVec 14} (hd : w.extractLsb' 21 5 = rd) (hr : w.extractLsb' 16 5 = rs)
    (hs : w.extractLsb' 14 2 = sub) (hi : w.extractLsb' 0 14 = imm) : fmtB (BitVec.ofNat 6 k) rd rs sub imm = w := by
  rw [← field_eq hop, ← hd, ← hr, ← hs, ← hi, fmtB_of_fields]

theorem fmtC_eq {ra rb : BitVec 5} {cond z : BitVec 3} {off : BitVec 10} (ha : w.extractLsb' 21 5 = ra) (hb : w.extractLsb' 16 5 = rb)
    (hc : w.extractLsb' 13 3 = cond) (hz : w.extractLsb' 10 3 = z) (ho : w.extractLsb' 0 10 = off) :
    fmtC (BitVec.ofNat 6 k) ra rb cond z off = w := by
  rw [← field_eq hop, ← ha, ← hb, ← hc, ← hz, ← ho, fmtC_of_fields]

theorem fmtD_eq {rd : BitVec 5} {imm : BitVec 21} (hd : w.extractLsb' 21 5 = rd) (hi : w.extractLsb' 0 21 = imm) :
    fmtD (BitVec.ofNat 6 k) rd imm = w := by
  rw [← field_eq hop, ← hd, ← hi, fmtD_of_fields]

theorem fmtE_eq : fmtE (BitVec.ofNat 6 k) (w.extractLsb' 21 5) (w.getLsbD 20) (w.extractLsb' 0 20) = w := by
  rw [← field_eq hop, fmtE_of_fields]

/-- An arm of format B whose sub must be 0. -/
theorem reading_subZero (h : guard1 (decide (w.extractLsb' 14 2 = 0)) x = some b) (hwf : x.wf = true)
    (hx : bencode x = fmtB (BitVec.ofNat 6 k) (w.extractLsb' 21 5) (w.extractLsb' 16 5) 0 (w.extractLsb' 0 14)) :
    b.wf = true ∧ bencode b = w :=
  reading_of_guard h hwf fun hs => hx.trans (fmtB_eq hop rfl rfl (of_decide_eq_true hs) rfl)

/-- An arm of format D whose register must be g0. -/
theorem reading_regZero (h : guard1 (decide (w.extractLsb' 21 5 = 0)) x = some b) (hwf : x.wf = true)
    (hx : bencode x = fmtD (BitVec.ofNat 6 k) 0 (w.extractLsb' 0 21)) : b.wf = true ∧ bencode b = w :=
  reading_of_guard h hwf fun hd => hx.trans (fmtD_eq hop (of_decide_eq_true hd) rfl)

/-- An arm of a word without fields. -/
theorem reading_noFields (h : guard1 (decide (w.extractLsb' 0 26 = 0)) x = some b) (hwf : x.wf = true)
    (hx : bencode x = BitVec.ofNat 6 k ++ (0 : BitVec 26)) : b.wf = true ∧ bencode b = w := by
  refine reading_of_guard h hwf fun hz => hx.trans ?_
  rw [← field_eq hop, ← of_decide_eq_true hz]
  exact (BitVec.extractLsb'_append_extractLsb'_eq_extractLsb' (by decide)).trans BitVec.extractLsb'_eq_self

/-- The arm of the shifts. -/
theorem reading_shift (o : Shift) (hk : k = 8) (hz : w.extractLsb' 6 8 = 0) (hs : (w.extractLsb' 14 2).toNat = o.sub.toNat) :
    bencode (.shift o (w.extractLsb' 21 5) (w.extractLsb' 16 5) (w.extractLsb' 0 6)) = w := by
  subst hk
  refine fmtB_eq hop rfl rfl (BitVec.eq_of_toNat_eq hs) ?_
  rw [← hz, shiftHigh_append]

end

/-- Settles O46: in each arm of the decoder the guards give the unused fields, and the word is that of its fields in the arm's format. -/
theorem bauriWordsHaveOneReading : Obligations.BauriWordsHaveOneReading := by
  intro w b h
  unfold bdecode at h
  dsimp only at h
  split at h
  -- R264: the ALU group
  · next hop =>
    obtain ⟨o, ho, rfl⟩ := Option.map_eq_some_iff.mp h
    exact ⟨rfl, fmtA_eq hop rfl rfl rfl (fn_of_aluOf ho).symm⟩
  -- R265: immediates
  · next hop => exact reading_subZero hop h rfl rfl
  · next hop => exact reading_subZero hop h rfl rfl
  · next hop => exact reading_subZero hop h rfl rfl
  · next hop => exact reading_subZero hop h rfl rfl
  · next hop => exact reading_subZero hop h rfl rfl
  · next hop => exact reading_subZero hop h rfl rfl
  · next hop =>
    split at h
    · next hz =>
      split at h
      · next hs => cases h; exact ⟨rfl, reading_shift hop .slli rfl hz hs⟩
      · next hs => cases h; exact ⟨rfl, reading_shift hop .srli rfl hz hs⟩
      · next hs => cases h; exact ⟨rfl, reading_shift hop .srai rfl hz hs⟩
      · cases h
    · cases h
  · next hop => cases h; exact ⟨rfl, fmtD_eq hop rfl rfl⟩
  · next hop => cases h; exact ⟨rfl, fmtD_eq hop rfl rfl⟩
  -- R269: loads and stores of the scratch
  · next hop => exact reading_subZero hop h rfl rfl
  · next hop => exact reading_subZero hop h rfl rfl
  · next hop => exact reading_subZero hop h rfl rfl
  · next hop => exact reading_subZero hop h rfl rfl
  · next hop => exact reading_subZero hop h rfl rfl
  · next hop => exact reading_subZero hop h rfl rfl
  · next hop => exact reading_subZero hop h rfl rfl
  · next hop => exact reading_subZero hop h rfl rfl
  -- R267: branches, jumps and loops
  · next hop =>
    split at h
    · next hc =>
      refine reading_of_guard h rfl fun hz => fmtC_eq hop rfl rfl ?_ (of_decide_eq_true hz) rfl
      exact field_eq rfl
    · cases h
  · next hop => exact reading_regZero hop h rfl rfl
  · next hop => exact reading_regZero hop h rfl rfl
  · next hop => exact reading_noFields hop h rfl rfl
  · next hop =>
    refine reading_of_guard h rfl fun hc => ?_
    obtain ⟨hb, hcond, hz⟩ := of_and_and_decide hc
    exact fmtC_eq hop rfl hb (field_eq hcond) hz rfl
  · next hop =>
    exact reading_of_guard h rfl fun hd => fmtD_eq hop (of_decide_eq_true hd) (count_append_off w).symm
  · next hop => exact reading_noFields hop h rfl rfl
  -- R271–R274: plates
  · next hop => cases h; exact ⟨rfl, fmtE_eq hop⟩
  · next hop => cases h; exact ⟨rfl, fmtE_eq hop⟩
  · next hop => exact reading_of_keepWf h (fmtE_eq hop)
  -- R277: line operations
  · next hop =>
    obtain ⟨k, hk, h⟩ := Option.bind_eq_some_iff.mp h
    exact reading_of_keepWf h (fmtA_eq hop rfl rfl rfl (fn_of_lineOfFn hk).symm)
  -- R279: check units
  · next hop =>
    split at h
    · next hf => exact reading_of_guard h rfl fun hc => fmtA_eq hop rfl rfl (of_decide_eq_true hc) (field_eq hf)
    · next hf => exact reading_of_guard h rfl fun hc => fmtA_eq hop (of_decide_eq_true hc) rfl rfl (field_eq hf)
    · next hf =>
      refine reading_of_guard h rfl fun hc => ?_
      obtain ⟨ha, hb⟩ := of_and_decide hc
      exact fmtA_eq hop rfl ha hb (field_eq hf)
    · next hf =>
      refine reading_of_guard h rfl fun hc => ?_
      obtain ⟨hd, hb⟩ := of_and_decide hc
      exact fmtA_eq hop hd rfl hb (field_eq hf)
    · cases h
  -- R280: transactions
  · next hop =>
    split at h
    · next hf =>
      refine reading_of_guard h rfl fun hc => ?_
      obtain ⟨hd, ha, hb⟩ := of_and_and_decide hc
      exact fmtA_eq hop hd ha hb (field_eq hf)
    · next hf =>
      refine reading_of_guard h rfl fun hc => ?_
      obtain ⟨ha, hb⟩ := of_and_decide hc
      exact fmtA_eq hop rfl ha hb (field_eq hf)
    · next hf =>
      refine reading_of_guard h rfl fun hc => ?_
      obtain ⟨hd, ha, hb⟩ := of_and_and_decide hc
      exact fmtA_eq hop hd ha hb (field_eq hf)
    · cases h
  -- R281: events
  · next hop => exact reading_subZero hop h rfl rfl
  · next hop =>
    refine reading_of_guard h rfl fun hc => ?_
    obtain ⟨hsub, hr, hz⟩ := of_and_and_decide hc
    refine fmtB_eq hop rfl hr hsub ?_
    rw [← hz, signalHigh_append]
  · next hop => exact reading_subZero hop h rfl rfl
  -- R282–R286: time and ends
  · next hop =>
    split at h
    · next hf =>
      refine reading_of_guard h rfl fun hc => ?_
      obtain ⟨ha, hb⟩ := of_and_decide hc
      exact fmtA_eq hop rfl ha hb (field_eq hf)
    · next hf =>
      refine reading_of_guard h rfl fun hc => ?_
      obtain ⟨hd, ha, hb⟩ := of_and_and_decide hc
      exact fmtA_eq hop hd ha hb (field_eq hf)
    · cases h
  · next hop =>
    split at h
    · next hc =>
      obtain ⟨hd, hr, hs⟩ := of_and_and_decide hc
      exact reading_of_keepWf h (fmtB_eq hop hd hr hs rfl)
    · cases h
  · next hop =>
    split at h
    · next hc =>
      obtain ⟨hd, hr, hs⟩ := of_and_and_decide hc
      exact reading_of_keepWf h (fmtB_eq hop hd hr hs rfl)
    · cases h
  · cases h

end Sys2Proof.Machine
end

section
/-! Acknowledgement of counted causes (R300, R310). -/
namespace Sys2Proof.Machine

/-! ### Entries of a table in canonical form -/

section
variable {α : Type} [DecidableEq α] {d : α}

/-- The indices of a table in canonical form lie above its lower bound. -/
theorem lt_of_mem_twfFrom {t : Tbl α} {e : Nat × α} (he : e ∈ t) {k : Nat} (h : twfFrom d (some k) t = true) : k < e.1 := by
  induction t generalizing k with
  | nil => cases he
  | cons x t ih =>
    obtain ⟨hlo, -, htail⟩ := (twfFrom_cons ..).1 h
    rcases List.mem_cons.mp he with rfl | he
    · exact hlo k rfl
    · exact (hlo k rfl).trans (ih he htail)

/-- Every entry of a table in canonical form is what its index reads as. -/
theorem tget_of_mem {t : Tbl α} {e : Nat × α} (ht : twf d t = true) (he : e ∈ t) : tget d t e.1 = e.2 := by
  suffices h : ∀ lo, twfFrom d lo t = true → tget d t e.1 = e.2 from h none ht
  clear ht
  induction t with
  | nil => cases he
  | cons x t ih =>
    intro lo h
    obtain ⟨-, -, htail⟩ := (twfFrom_cons ..).1 h
    rcases List.mem_cons.mp he with rfl | he
    · exact if_pos rfl
    · rw [tget_cons, if_neg (Nat.ne_of_lt (lt_of_mem_twfFrom he htail))]
      exact ih he (some x.1) htail

end

/-! ### Acknowledge registers -/

theorem Mod.setAck_occ {m : Mod} (h : twf {} m.evt.occ = true) (k n : Nat) (v : Word) :
    (m.setAck k v).occ n = if n = k then { cnt := (m.occ n).cnt, ack := v } else m.occ n := by
  by_cases hn : n = k
  · subst hn
    rw [if_pos rfl]
    exact tget_tput_self _ _ _ _ h
  · rw [if_neg hn]
    exact tget_tput_other _ _ _ _ _ hn

theorem Mod.setAck_twf {m : Mod} (h : twf {} m.evt.occ = true) (k : Nat) (v : Word) : twf {} (m.setAck k v).evt.occ = true := by
  exact tmod_twf {} m.evt.occ k (fun o => { o with ack := v }) h

/-- Acknowledging listed counts sets their acknowledge registers to their counts, and leaves everything else of the occurrence table. -/
theorem foldl_setAck_occ (l : List (Nat × Occ)) (m : Mod) (h : twf {} m.evt.occ = true) (hl : ∀ e ∈ l, e.2.cnt = (m.occ e.1).cnt) :
    twf {} (l.foldl (fun m e => m.setAck e.1 (loW e.2.cnt)) m).evt.occ = true ∧
      ∀ n, (l.foldl (fun m e => m.setAck e.1 (loW e.2.cnt)) m).occ n =
        if n ∈ l.map (·.1) then { cnt := (m.occ n).cnt, ack := loW (m.occ n).cnt } else m.occ n := by
  induction l generalizing m with
  | nil => exact ⟨h, fun n => rfl⟩
  | cons e l ih =>
    have hocc := Mod.setAck_occ h e.1 (v := loW e.2.cnt)
    have hcnt : ∀ n, ((m.setAck e.1 (loW e.2.cnt)).occ n).cnt = (m.occ n).cnt := fun n => by
      rw [hocc]; split <;> rfl
    obtain ⟨hwf, hrest⟩ := ih _ (Mod.setAck_twf h _ _) fun x hx => (hl x (.tail _ hx)).trans (hcnt x.1).symm
    refine ⟨hwf, fun n => ?_⟩
    rw [List.foldl_cons, hrest, hcnt, hocc, List.map_cons]
    by_cases hn : n = e.1
    · subst hn
      simp [hl e (.head _)]
    · have hmem : n ∈ e.1 :: l.map (·.1) ↔ n ∈ l.map (·.1) := by rw [List.mem_cons, or_iff_right hn]
      simp only [if_neg hn, hmem]

/-- The listed counts of a source are what their indices read as. -/
theorem Mod.srcOcc_cnt {m : Mod} (h : twf {} m.evt.occ = true) (k : Nat) : ∀ e ∈ m.srcOcc k, e.2.cnt = (m.occ e.1).cnt := fun e he => by
  rw [Mod.occ, tget_of_mem h (List.mem_of_mem_filter he)]

/-- The Seed Store's copy of the trip count's pair aside, an acknowledgement is that of the source's listed counts. -/
theorem Mod.ackSrc_evt (m : Mod) (k : Nat) :
    (m.ackSrc k).evt = ((m.srcOcc k).foldl (fun m e => m.setAck e.1 (loW e.2.cnt)) m).evt := by
  unfold Mod.ackSrc
  split <;> rfl

/-- R310: what an acknowledgement makes of every count. -/
theorem Mod.ackSrc_occ {m : Mod} (h : twf {} m.evt.occ = true) (k n : Nat) :
    (m.ackSrc k).occ n = if n ∈ (m.srcOcc k).map (·.1) then { cnt := (m.occ n).cnt, ack := loW (m.occ n).cnt } else m.occ n := by
  have hocc := (foldl_setAck_occ (m.srcOcc k) m h (Mod.srcOcc_cnt h k)).2 n
  rw [Mod.occ, m.ackSrc_evt k]
  exact hocc

/-- EVT_SRCACK acts only if it is given the source's count. -/
theorem Mod.wordWrite_srcAck (m : Mod) (who k mask : Nat) (v : Word) (ok : Bool) :
    m.wordWrite who k 0x11000C v mask ok = if v = BitVec.ofNat 32 (m.srcCnt k) then m.ackSrc k else m := rfl

/-- Settles O50, from the closed form `Mod.ackSrc_occ` of every count after an acknowledgement. -/
theorem acknowledgeClearsCountedCauses : Obligations.AcknowledgeClearsCountedCauses := by
  intro m k h
  have hcnt : ∀ n, ((m.ackSrc k).occ n).cnt = (m.occ n).cnt := fun n => by
    rw [Mod.ackSrc_occ h]; split <;> rfl
  refine ⟨hcnt, fun e he => ?_, fun n hn => ?_, ?_, fun who mask v ok hv => ?_, fun who mask ok => ?_⟩
  · rw [hcnt, Mod.ackSrc_occ h, if_pos (List.mem_map_of_mem he)]
    rfl
  · rw [Mod.ackSrc_occ h, if_neg]
    intro hmem
    obtain ⟨e, he, rfl⟩ := List.mem_map.mp hmem
    exact hn e he rfl
  · rw [m.ackSrc_evt k]
    exact (foldl_setAck_occ _ m h (Mod.srcOcc_cnt h k)).1
  · rw [Mod.wordWrite_srcAck, if_neg hv]
  · rw [Mod.wordWrite_srcAck, if_pos rfl]

end Sys2Proof.Machine
end

section
/-! The order of the Seed Store's queue (R415). -/
namespace Sys2Proof.Machine

/-- R415's classes: EVACUATING, the module's other writes, commits. -/
def SeedJob.rank (j : SeedJob) : Nat := if j.isEvac then 0 else if j.isModule then 1 else 2

theorem SeedJob.isModule_of_isEvac {j : SeedJob} (h : j.isEvac = true) : j.isModule = true := by
  cases j with
  | evacuating e => rfl
  | _ => cases h

theorem SeedJob.rank_le_zero_iff (j : SeedJob) : j.rank ≤ 0 ↔ j.isEvac = true := by
  unfold SeedJob.rank
  split_ifs with h1 h2 <;> simp [h1]

theorem SeedJob.rank_le_one_iff (j : SeedJob) : j.rank ≤ 1 ↔ j.isModule = true := by
  unfold SeedJob.rank
  split_ifs with h1 h2
  · simp [SeedJob.isModule_of_isEvac h1]
  · simp [h2]
  · simp [h2]

theorem SeedJob.rank_le_two (j : SeedJob) : j.rank ≤ 2 := by
  unfold SeedJob.rank
  split_ifs <;> decide

/-- A new write goes behind the writes of its class and before those of the later classes. -/
theorem seedInsert_eq (q : List SeedJob) (j : SeedJob) :
    seedInsert q j = q.filter (fun x => x.rank ≤ j.rank) ++ [j] ++ q.filter (fun x => !decide (x.rank ≤ j.rank)) := by
  unfold seedInsert
  split_ifs with h1 h2
  · have hj : j.rank = 0 := by simp [SeedJob.rank, h1]
    have hp : ∀ x : SeedJob, decide (x.rank ≤ j.rank) = x.isEvac := fun x => by
      rw [hj, Bool.eq_iff_iff, decide_eq_true_iff, x.rank_le_zero_iff]
    simp only [hp]
  · have hj : j.rank = 1 := by simp [SeedJob.rank, h1, h2]
    have hp : ∀ x : SeedJob, decide (x.rank ≤ j.rank) = x.isModule := fun x => by
      rw [hj, Bool.eq_iff_iff, decide_eq_true_iff, x.rank_le_one_iff]
    simp only [hp]
  · have hj : j.rank = 2 := by simp [SeedJob.rank, h1, h2]
    have hp : ∀ x : SeedJob, decide (x.rank ≤ j.rank) = true := fun x => decide_eq_true (hj ▸ x.rank_le_two)
    simp [hp]

/-- R415: a queue in the order of the classes stays in it. -/
theorem seedInsert_sorted {q : List SeedJob} (h : q.Pairwise (fun a b => a.rank ≤ b.rank)) (j : SeedJob) :
    (seedInsert q j).Pairwise (fun a b => a.rank ≤ b.rank) := by
  rw [seedInsert_eq, List.append_assoc, List.pairwise_append]
  have hlow : ∀ a ∈ q.filter (fun x => x.rank ≤ j.rank), a.rank ≤ j.rank := fun a ha => of_decide_eq_true (List.mem_filter.mp ha).2
  have hhigh : ∀ b ∈ q.filter (fun x => !decide (x.rank ≤ j.rank)), j.rank < b.rank := fun b hb => by
    have := (List.mem_filter.mp hb).2
    simpa using this
  refine ⟨h.sublist List.filter_sublist, ?_, fun a ha b hb => ?_⟩
  · exact List.pairwise_cons.mpr ⟨fun b hb => (hhigh b hb).le, h.sublist List.filter_sublist⟩
  · rcases List.mem_cons.mp hb with rfl | hb
    · exact hlow a ha
    · exact (hlow a ha).trans (hhigh b hb).le

/-- R415: a new write joins the end of its class, and the other classes are as they were. -/
theorem seedInsert_class (q : List SeedJob) (j : SeedJob) (k : Nat) :
    (seedInsert q j).filter (fun x => x.rank = k) = q.filter (fun x => x.rank = k) ++ (if j.rank = k then [j] else []) := by
  rw [seedInsert_eq, List.filter_append, List.filter_append, List.filter_filter, List.filter_filter]
  rcases Nat.lt_or_ge j.rank k with hk | hk
  · have hlow : ∀ x : SeedJob, (decide (x.rank = k) && decide (x.rank ≤ j.rank)) = false := fun x => by simp; omega
    have hhigh : ∀ x : SeedJob, (decide (x.rank = k) && !decide (x.rank ≤ j.rank)) = decide (x.rank = k) := fun x => by
      rw [Bool.eq_iff_iff]; simp; omega
    simp [hlow, hhigh, hk.ne]
  · have hlow : ∀ x : SeedJob, (decide (x.rank = k) && decide (x.rank ≤ j.rank)) = decide (x.rank = k) := fun x => by
      rw [Bool.eq_iff_iff]; simp; omega
    have hhigh : ∀ x : SeedJob, (decide (x.rank = k) && !decide (x.rank ≤ j.rank)) = false := fun x => by simp; omega
    simp only [hlow, hhigh, List.filter_false, List.append_nil]
    by_cases hj : j.rank = k <;> simp [hj]

/-- A write that runs is not displaced: the new one only joins the queue. -/
theorem Mod.seedWrite_running {m : Mod} {r : SeedJob} (h : m.seed.running = some r) (j : SeedJob) :
    m.seedWrite j = { m with seed := { m.seed with queue := seedInsert m.seed.queue j } } :=
  if_pos (by simp [h])

/-- With nothing before it a write that has not come too late runs at once. -/
theorem Mod.seedWrite_idle {m : Mod} {j : SeedJob} (hr : m.seed.running = none) (hq : m.seed.queue = []) (hs : m.staleJob j = none) :
    m.seedWrite j = { m with seed := { m.seed with running := some j, queue := [] } } := by
  have hins : seedInsert m.seed.queue j = [j] := by simp [hq, seedInsert]
  have hfree : ¬ (m.seed.running.isSome = true) := by simp [hr]
  have hstale : Mod.staleJob { m with seed := { m.seed with queue := [j] } } j = none := hs ▸ rfl
  unfold Mod.seedWrite Mod.seedPump
  rw [hins, if_neg hfree]
  simp only [Mod.seedPumpList, hstale]

/-- Settles O51: the queue by `seedInsert_sorted` and `seedInsert_class`, the running write by the two cases of `Mod.seedWrite`. -/
theorem seedWritesKeepTheirOrder : Obligations.SeedWritesKeepTheirOrder := by
  refine ⟨fun q j => ?_, fun m j r h => ?_, fun m j hr hq hs => ?_⟩
  · exact fun h => ⟨seedInsert_sorted h j, seedInsert_class q j⟩
  · rw [Mod.seedWrite_running h]
    exact ⟨h, rfl⟩
  · rw [Mod.seedWrite_idle hr hq hs]
    exact ⟨rfl, rfl⟩

end Sys2Proof.Machine
end

section
/-! Media-form map entries (R125, R133). -/
namespace Sys2Proof.Machine

section
variable {sg ch blk pg : Nat} (hsg : sg < 20) (hch : ch < 10) (hblk : blk < 16384) (hpg : pg < 2048)
include hsg hch hblk hpg

/-- R133: a media-form entry gives back its fields; its sums of weighted fields do not overlap. -/
theorem mkEntry_fields : enForm (mkEntry sg ch blk pg) = 1 ∧ enSg (mkEntry sg ch blk pg) = sg ∧ enCh (mkEntry sg ch blk pg) = ch ∧
    enBlk (mkEntry sg ch blk pg) = blk ∧ enPg (mkEntry sg ch blk pg) = pg ∧ mkEntry sg ch blk pg < 2 ^ 40 ∧ mkEntry sg ch blk pg % 16 = 0 := by
  simp only [mkEntry, enForm, enSg, enCh, enBlk, enPg, Nat.reducePow]
  omega

/-- R133: a media-form entry of existing dies is good exactly if it names no parity index and lies in its region's set. -/
theorem entryOk_mkEntry (c : Option Bool) : entryOk (mkEntry sg ch blk pg) c = true ↔
    ch ∉ [parityP blk, parityP blk + 1] ∧ ∀ b, c = some b → decide (10 ≤ sg) = b := by
  obtain ⟨hform, hSg, hCh, hBlk, -, -, -⟩ := mkEntry_fields hsg hch hblk hpg
  have hpar : isParity blk ch = true ↔ ch ∈ [parityP blk, parityP blk + 1] := by simp [isParity]
  unfold entryOk
  rw [hform, hSg, hCh, hBlk]
  cases c <;> simp [hsg, hch, ← hpar]

end

/-- Settles O53: the fields by `mkEntry_fields`, the good entries by `entryOk_mkEntry`, and the other forms by their form alone. -/
theorem mapEntriesKeepTheirFields : Obligations.MapEntriesKeepTheirFields := by
  refine ⟨fun sg ch blk pg hsg hch hblk hpg => ?_, fun e he c => ?_, fun e he c => ?_⟩
  · have hok := entryOk_mkEntry hsg hch hblk hpg
    obtain ⟨h1, h2, h3, h4, h5, h6, h7⟩ := mkEntry_fields hsg hch hblk hpg
    refine ⟨h1, h2, h3, h4, h5, h6, h7, (hok none).trans ?_, (hok (some false)).trans ?_, (hok (some true)).trans ?_⟩
    · simp
    · simp
    · simp
  · simp [entryOk, he]
  · rcases he with he | he <;> simp [entryOk, he]

end Sys2Proof.Machine
end

section
/-! Stored poison (R54, R470): a mark is kept by line and source. -/
namespace Sys2Proof.Machine

/-! ### Bits of a mask -/

theorem mset_getLsbD (v : Dword) {j : Nat} (_hj : j < 64) (i : Nat) : (mset v j).getLsbD i = (decide (i = j) || v.getLsbD i) := by
  simp only [mset, BitVec.getLsbD_or, BitVec.getLsbD_shiftLeft, BitVec.getLsbD_one]
  rw [Bool.or_comm]
  congr 1
  rw [Bool.eq_iff_iff]
  simp
  omega

theorem mclr_getLsbD (v : Dword) {j : Nat} (_hj : j < 64) (i : Nat) : (mclr v j).getLsbD i = (!decide (i = j) && v.getLsbD i) := by
  by_cases hi : i < 64
  · simp only [mclr, BitVec.getLsbD_and, BitVec.getLsbD_not, BitVec.getLsbD_shiftLeft, BitVec.getLsbD_one, hi, decide_true, Bool.true_and]
    rw [Bool.and_comm]
    congr 2
    rw [Bool.eq_iff_iff]
    simp
    omega
  · simp [BitVec.getLsbD_of_ge _ _ (Nat.le_of_not_lt hi)]

/-! ### The poison table -/

theorem Mod.setPsn_psn {m : Mod} (h : twf {} m.hop.poison = true) (page k : Nat) (v : Psn) :
    (m.setPsn page v).psn k = if k = page then v else m.psn k := by
  by_cases hk : k = page
  · subst hk
    rw [if_pos rfl]
    exact tget_tput_self _ _ _ _ h
  · rw [if_neg hk]
    exact tget_tput_other _ _ _ _ _ hk

theorem Mod.setPsn_twf {m : Mod} (h : twf {} m.hop.poison = true) (page : Nat) (v : Psn) : twf {} (m.setPsn page v).hop.poison = true :=
  tput_twf _ _ _ _ h

@[simp] theorem Mod.addRec_hop (m : Mod) (i kind src b count tallySeq data : Nat) :
    (m.addRec i kind src b count tallySeq data).hop = m.hop := by
  unfold Mod.addRec
  by_cases hfull : 64 ≤ (m.evLog i).recs.length
  · simp only [if_pos hfull]
  · simp only [if_neg hfull]
    by_cases hmgmt : i = logMgmt
    · simp only [if_pos hmgmt, apply_ite Mod.hop, Mod.emit_hop, ite_self]
    · simp only [if_neg hmgmt]
      split <;> rfl

/-- The General Media Event of a mark leaves the hopper. -/
@[simp] theorem Mod.mediaEvent_hop (m : Mod) (lineNo : Nat) : (m.mediaEvent lineNo).hop = m.hop := by
  unfold Mod.mediaEvent
  refine foldl_keeps Mod.hop (fun m l => ?_) _ m
  simp only [Mod.ldRec, apply_ite Mod.hop, Mod.addRec_hop, Mod.setAux_hop, ite_self]

/-- A page's entry with line `j` marked as the source says. -/
def Psn.marked (o : Psn) (j : Nat) (ext : Bool) : Psn :=
  { mask := mset o.mask j, ext := if ext then mset o.ext j else mclr o.ext j }

/-- A mark that finds a place is the page's entry with the line's two bits set as the source says, and in the hopper nothing else. -/
theorem Mod.mark_hop {m : Mod} {l : Nat} (ext : Bool) (h : (m.psn (l / 64)).mask ≠ 0 ∨ m.hop.poison.length < poisonCap) :
    (m.mark l ext).hop = (m.setPsn (l / 64) ((m.psn (l / 64)).marked (l % 64) ext)).hop := by
  have hroom : ¬ (decide ((m.psn (l / 64)).mask = 0) && decide (poisonCap ≤ m.hop.poison.length)) = true := by
    rw [Bool.and_eq_true, decide_eq_true_eq, decide_eq_true_eq]
    exact fun ⟨hmask, hlen⟩ => h.elim (· hmask) (Nat.not_lt.mpr hlen)
  unfold Mod.mark
  simp only [if_neg hroom]
  cases ext
  · exact Mod.mediaEvent_hop _ _
  · rfl

theorem Mod.mark_full {m : Mod} {l : Nat} (ext : Bool) (h0 : (m.psn (l / 64)).mask = 0) (hcap : poisonCap ≤ m.hop.poison.length) :
    m.mark l ext = m.faultRec 0 islHop 13 (l * 64) 0 :=
  if_pos (by simp [h0, hcap])

/-- Reading a mark goes through the hopper's table alone. -/
theorem Mod.psn_of_hop {m m' : Mod} (h : m'.hop = m.hop) (page : Nat) : m'.psn page = m.psn page := by
  rw [Mod.psn, h, Mod.psn]

theorem Mod.poisoned_of_hop {m m' : Mod} (h : m'.hop = m.hop) (n : Nat) : m'.poisoned n = m.poisoned n := by
  rw [Mod.poisoned, Mod.psn_of_hop h, Mod.poisoned]

/-- Two lines of one page differ in their place in it. -/
theorem line_mod_ne {l n : Nat} (h : n ≠ l) (hp : n / 64 = l / 64) : n % 64 ≠ l % 64 := by omega

/-- A line's mark after its page's entry changed: by the new entry for a line of the page, as it was for any other. -/
theorem Mod.setPsn_poisoned {m : Mod} (h : twf {} m.hop.poison = true) (page n : Nat) (v : Psn) :
    (m.setPsn page v).poisoned n = if n / 64 = page then v.mask.getLsbD (n % 64) else m.poisoned n := by
  rw [Mod.poisoned, Mod.setPsn_psn h]
  split <;> rfl

/-- A line written whole without poison loses its mark, and no other line does. -/
theorem Mod.unmark_poisoned {m : Mod} (h : twf {} m.hop.poison = true) (l n : Nat) :
    (m.unmark l).poisoned n = (!decide (n = l) && m.poisoned n) := by
  have hlt : l % 64 < 64 := Nat.mod_lt l (by decide)
  unfold Mod.unmark
  split_ifs with hp
  · simp only [Mod.setPsn_poisoned h, mclr_getLsbD _ hlt]
    by_cases hn : n = l
    · simp [hn]
    · by_cases hpage : n / 64 = l / 64
      · simp [hn, hpage, line_mod_ne hn hpage, Mod.poisoned]
      · simp [hn, hpage]
  · by_cases hn : n = l
    · simp [hn, hp]
    · simp [hn]

theorem Mod.unmark_twf {m : Mod} (h : twf {} m.hop.poison = true) (l : Nat) : twf {} (m.unmark l).hop.poison = true := by
  unfold Mod.unmark
  split_ifs
  · exact Mod.setPsn_twf h _ _
  · exact h

/-- Settles O55: a mark by its page's entry (`Mod.mark_hop`), the loss of one by `Mod.unmark_poisoned`. -/
theorem poisonMarksAreKept : Obligations.PoisonMarksAreKept := by
  intro m l n ext hwf
  have hlt : l % 64 < 64 := Nat.mod_lt l (by decide)
  refine ⟨fun hroom => ?_, Mod.mark_full ext, ?_, fun hn => ?_, Mod.unmark_twf hwf l, rfl, rfl⟩
  · have hhop := Mod.mark_hop ext hroom
    rw [Mod.poisoned_of_hop hhop, Mod.poisoned_of_hop hhop, Mod.psn_of_hop hhop, hhop, Mod.setPsn_poisoned hwf, Mod.setPsn_poisoned hwf,
      Mod.setPsn_psn hwf, if_pos rfl, if_pos rfl]
    refine ⟨by simp [Psn.marked, mset_getLsbD _ hlt], ?_, fun hn => ?_, Mod.setPsn_twf hwf _ _⟩
    · cases ext
      · simp [Psn.marked, mclr_getLsbD _ hlt]
      · simp [Psn.marked, mset_getLsbD _ hlt]
    · split_ifs with hpage
      · simp [Psn.marked, mset_getLsbD _ hlt, line_mod_ne hn hpage, Mod.poisoned, hpage]
      · rfl
  · simp [Mod.unmark_poisoned hwf]
  · simp [Mod.unmark_poisoned hwf, hn]

end Sys2Proof.Machine
end

section
/-! Returned credits (R49). -/
namespace Sys2Proof.Machine

/-- A return of Req credits changes its port's two counts by one number, which the pace and the allowances bound. -/
theorem Mod.giveReq_eq (m : Mod) (p n : Nat) : ∃ k, k ≤ n ∧ k ≤ m.credits p - ((m.port p).reqCr + m.usedCr p false) ∧
    m.giveReq p n = m.setPort p (fun x => { x with reqCr := x.reqCr + k, pacedReq := x.pacedReq + k }) :=
  ⟨_, Nat.min_le_left _ _, (Nat.min_le_right _ _).trans (Nat.min_le_right _ _), rfl⟩

/-- Settles O56, from the one number that `Mod.giveReq_eq` adds. -/
theorem creditsNeverPassTheAllowances : Obligations.CreditsNeverPassTheAllowances := by
  intro m p n hlink hle
  obtain ⟨k, hkn, hkc, hgive⟩ := m.giveReq_eq p n
  have hport : (m.giveReq p n).port p = { m.port p with reqCr := (m.port p).reqCr + k, pacedReq := (m.port p).pacedReq + k } := by
    rw [hgive]
    refine m.setPort_port_ne p _ fun h => ?_
    have hdown : (m.port p).link = .down := congrArg Port.link h
    rw [hlink] at hdown
    cases hdown
  have hused : (m.giveReq p n).usedCr p false = m.usedCr p false := by rw [hgive]; rfl
  have hcredits : (m.giveReq p n).credits p = m.credits p := by rw [hgive]; rfl
  rw [hport, hused, hcredits]
  refine ⟨?_, Nat.le_add_right _ _, Nat.add_le_add_left hkn _, fun q hq => ?_⟩
  · dsimp only
    omega
  · rw [hgive]
    exact m.setPort_port_other p q _ hq

end Sys2Proof.Machine
end

section
/-! Key words (R7, R320). -/
namespace Sys2Proof.Machine

theorem isKeyIdx_iff (i : Nat) : isKeyIdx i = true ↔ 0xE0000 ≤ i ∧ i < 0x100040 := by
  simp [isKeyIdx]

/-- A key word is write-only. -/
theorem tableAt_key {i : Nat} (h : isKeyIdx i = true) : tableAt i = some ⟨.wo, all32, 0⟩ := by
  obtain ⟨hlo, hhi⟩ := (isKeyIdx_iff i).mp h
  have h1 : ¬ i < 0x84000 := by omega
  have h2 : ¬ i < 0xD8000 := by omega
  have h3 : ¬ i < 0xD8200 := by omega
  simp [tableAt, h1, h2, h3, hlo, hhi]

theorem plateWord_key {i : Nat} (h : isKeyIdx i = true) (m : Mod) (who : Nat) (ma : Master) : plateWord m who ma i = 0 := by
  have hlo := ((isKeyIdx_iff i).mp h).1
  rw [plateWord, if_neg (by omega), tableWord, tableAt_key h]
  rfl

/-- A table plate is read without a change. -/
theorem Mod.readWord_table (m : Mod) (who : Nat) {i : Nat} (h : 0x80000 ≤ i) : m.readWord who i = (plateWord m who (m.master who) i, m) := by
  have hread : readBy m who i = (plateWord m who (m.master who) i, m) := if_neg (by omega)
  unfold Mod.readWord
  split
  · omega
  · omega
  · omega
  · exact hread

/-- Settles O57. -/
theorem keyWordsReadZero : Obligations.KeyWordsReadZero := by
  intro m who i h
  have hlo := ((isKeyIdx_iff i).mp h).1
  refine ⟨?_, plateWord_key h m who, fun t w hw => ?_⟩
  · rw [m.readWord_table who (by omega), plateWord_key h]
  · exact if_pos (hw ▸ h)

end Sys2Proof.Machine
end

section
/-! The DTC after a power-off (R17) and the age bucket of an age (R172). -/
namespace Sys2Proof.Machine

/-- The bounded search gives the binary logarithm, up to its bound. -/
theorem log2Floor_eq (fuel n : Nat) : log2Floor fuel n = min fuel (Nat.log 2 n) := by
  induction fuel generalizing n with
  | zero => rw [log2Floor, Nat.zero_min]
  | succ fuel ih =>
    rw [log2Floor]
    split_ifs with h
    · rw [Nat.log_of_lt h, Nat.min_zero]
    · rw [ih, Nat.log_of_one_lt_of_le (by decide) (Nat.le_of_not_lt h)]
      omega

theorem ageBucket_eq (a : Nat) : ageBucket a = min 27 (Nat.log 2 (a + 1)) := by
  rw [ageBucket, log2Floor_eq]
  omega

/-- R17: the stored value rounded up to a whole second, plus one second. -/
theorem resumeDtc_some (v : Nat) : resumeDtc (some v) = (v + 1000000000 - 1) / 1000000000 * 1000000000 + 1000000000 := by
  simp only [resumeDtc, cdiv]

/-- Settles O58: the DTC by division with remainder, the bucket by the laws of the binary logarithm. -/
theorem resumedTimeAndAgeBuckets : Obligations.ResumedTimeAndAgeBuckets := by
  refine ⟨fun v => ?_, by simp [resumeDtc_some], by simp [resumeDtc_some], rfl, fun a => ?_⟩
  · rw [resumeDtc_some]
    omega
  · rw [ageBucket_eq]
    refine ⟨min_le_left _ _, ?_, fun h => ?_⟩
    · calc 2 ^ min 27 (Nat.log 2 (a + 1)) ≤ 2 ^ Nat.log 2 (a + 1) := Nat.pow_le_pow_right (by decide) (min_le_right _ _)
        _ ≤ a + 1 := Nat.pow_log_le_self 2 (Nat.succ_ne_zero a)
    · have hmin : min 27 (Nat.log 2 (a + 1)) = Nat.log 2 (a + 1) := by omega
      rw [hmin]
      exact Nat.lt_pow_succ_log_self (by decide) (a + 1)

end Sys2Proof.Machine
end

section
/-! The Bauri commands of a foreman (R260–R286): immediate arithmetic, control flow, line operations, check units, transactions, ends. -/
namespace Sys2Proof.Machine

/-- A command whose effect on the module gives `m'` answers with `m'`. -/
theorem exec_of_op {c : Instr} {s : State} (op : Mod → Mod) (hc : exec c s = run s op) {m' : Mod} (h : op s.m = m') :
    exec c s = answers s m' := by
  rw [hc, run_answers, h]

/-! ### Executing what stands at the program counter -/

section
variable {c : Instr} {s : State} {f : Fin 8} {b : BOp}

/-- A command that has its foreman execute `b` is `b`'s effect after the counted step, and then a halt that was asked for. -/
theorem exec_stands (hc : exec c s = run s (fun m => m.bauri f b)) (h : Stands s.m f b) {m' : Mod}
    (hm : (s.m.countStep f).bexec f b = m') : exec c s = answers s (m'.haltHold f) := by
  rw [hc, run_answers, Mod.bauri_stands _ _ _ h, hm]

/-- As `exec_stands`, for an instruction that changes only its foreman's own state. -/
theorem exec_stands_fm (hc : exec c s = run s (fun m => m.bauri f b)) (h : Stands s.m f b) {g : Foreman → Foreman}
    (hm : (s.m.countStep f).bexec f b = (s.m.countStep f).setFm f g) : exec c s = answers s (fmDoes s.m f g) :=
  exec_stands hc h hm

/-- As `exec_stands`, for an instruction that traps. -/
theorem exec_stands_trap (hc : exec c s = run s (fun m => m.bauri f b)) (h : Stands s.m f b) {code : Nat}
    (hm : (s.m.countStep f).bexec f b = (s.m.countStep f).btrap f code) :
    exec c s = answers s (((s.m.countStep f).endProg f 3 code).haltHold f) :=
  exec_stands hc h hm

end

/-! ### Immediate arithmetic (R265) -/

theorem AluI.eval_slti (a : Dword) (imm : BitVec 14) : AluI.slti.eval a imm = if a.toInt < imm.toInt then 1 else 0 := by
  simp [AluI.eval, b2d, BitVec.slt, BitVec.toInt_signExtend_of_le]

theorem AluI.eval_sltiu (a : Dword) (imm : BitVec 14) :
    AluI.sltiu.eval a imm = if a.toNat < (imm.signExtend 64 : Dword).toNat then 1 else 0 := by
  simp [AluI.eval, b2d, BitVec.ult]

/-- An instruction that writes `v` to rd and goes on. -/
theorem setFm_put_congr (m : Mod) (f : Nat) (rd : BitVec 5) {v w : Foreman → Dword} (h : ∀ x, v x = w x) :
    m.setFm f (fun x => x.put rd (v x)) = m.setFm f (fun x => x.put rd (w x)) := by
  simp only [h]

/-- Settles O33: each command executes its instruction, whose result is the rule's by definition or by its `AluI.eval` lemma. -/
theorem immediateArithmeticCommandsAnswer : Obligations.ImmediateArithmeticCommandsAnswer := by
  intro s f rd ra imm sh u
  exact ⟨fun h => exec_stands_fm rfl h rfl, fun h => exec_stands_fm rfl h rfl, fun h => exec_stands_fm rfl h rfl,
    fun h => exec_stands_fm rfl h rfl,
    fun h => exec_stands_fm rfl h (setFm_put_congr _ _ _ fun x => AluI.eval_slti _ _),
    fun h => exec_stands_fm rfl h (setFm_put_congr _ _ _ fun x => AluI.eval_sltiu _ _),
    fun h => exec_stands_fm rfl h rfl, fun h => exec_stands_fm rfl h rfl, fun h => exec_stands_fm rfl h rfl,
    fun h => exec_stands_fm rfl h rfl, fun h => exec_stands_fm rfl h rfl⟩

/-! ### Control flow (R267) -/

/-- What a change of a foreman does depends only on its value at that foreman. -/
theorem Mod.setFm_congr (m : Mod) (f : Nat) {g k : Foreman → Foreman} (h : g (m.fm f) = k (m.fm f)) : m.setFm f g = m.setFm f k := by
  rw [Mod.fm] at h
  simp only [Mod.setFm, tmod, h]

/-- RET with a return address on the stack goes there if g31 holds it, and traps otherwise. -/
theorem Mod.bexec_ret_cons {m : Mod} {f : Nat} {e : Nat × Nat} {l : List (Nat × Nat)} (h : (m.fm f).calls = e :: l) :
    m.bexec f .ret =
      if (m.fm f).reg 31 = BitVec.ofNat 64 e.1 then m.setFm f (fun x => x.leave e l) else m.btrap f 0x86 := by
  simp only [Mod.bexec, h]

/-- Settles O35: each command executes its instruction; the foreman's registers and stacks decide the branch of its definition. -/
theorem controlFlowCommandsAnswer : Obligations.ControlFlowCommandsAnswer := by
  intro s f ra rb c off u n
  refine ⟨fun h hc => exec_stands_fm rfl h (Mod.setFm_congr _ _ ?_), fun h hc => exec_stands_fm rfl h (Mod.setFm_congr _ _ ?_),
    fun h => exec_stands_fm rfl h rfl, fun p h hp hd => exec_stands_fm rfl h ?_,
    fun h hd => exec_stands_trap rfl h ?_, fun e l h hl hr => exec_stands_fm rfl h ?_, fun e l h hl hr => exec_stands_trap rfl h ?_,
    fun h hl => exec_stands_trap rfl h ?_, fun h hl => exec_stands_fm rfl h ?_, fun h hl => exec_stands_fm rfl h ?_,
    fun h hl => exec_stands_trap rfl h ?_, fun t l h hl ht hd => exec_stands_fm rfl h ?_, fun h hl => exec_stands_trap rfl h ?_⟩
  case refine_1 => simp [hc]
  case refine_2 => simp [hc, Foreman.next]
  case refine_3 => simp [Mod.bexec, Foreman.depth, hp, Nat.not_le.2 hd]
  case refine_4 => simp [Mod.bexec, Foreman.depth, hd]
  case refine_5 => rw [Mod.bexec_ret_cons (by simpa using hl)]; simp [hr]
  case refine_6 => rw [Mod.bexec_ret_cons (by simpa using hl)]; simp [hr]
  case refine_7 => simp [Mod.bexec, hl]
  case refine_8 => simp [Mod.bexec, Nat.not_le.2 hl]
  case refine_9 => simp [Mod.bexec, Nat.not_le.2 hl]
  case refine_10 => simp [Mod.bexec, hl]
  case refine_11 => simp [Mod.bexec, Foreman.depth, hl, ht, hd]
  case refine_12 => simp [Mod.bexec, hl]

/-! ### Line operations and check units (R275–R279) -/

/-- Time that has come does not pass again. -/
theorem Mod.passUntil_of_le (m : Mod) {t : Nat} (h : t ≤ m.time.dtc) : m.passUntil t = m := by
  have hb : ¬ m.nextB ≤ t := by unfold Mod.nextB; omega
  simp [Mod.passUntil, Mod.passFrames, hb, Mod.pass, Nat.not_lt.2 h]

/-- A line operation whose operands are no trap starts on its line. -/
theorem Mod.bline_start {m : Mod} {f : Nat} {k : LineK} {rd ra rb : BitVec 5}
    (h : m.lineTrap f k ((m.fm f).val ra).toNat (if k.scratch then ((m.fm f).val rb).toNat else 0) = none) :
    m.bline f k rd ra rb = m.lineStart (.foreman f) k.code rd.toNat (((m.fm f).val ra).toNat / 64)
      (if k.scratch then ((m.fm f).val rb).toNat else 0) (if k = .lwr then (m.fm f).val rd else ~~~ 0) 0 := by
  simp only [Mod.bline, h]

theorem Mod.bline_trap {m : Mod} {f : Nat} {k : LineK} {rd ra rb : BitVec 5} {t : Nat}
    (h : m.lineTrap f k ((m.fm f).val ra).toNat (if k.scratch then ((m.fm f).val rb).toNat else 0) = some t) :
    m.bline f k rd ra rb = m.btrap f t := by
  simp only [Mod.bline, h]

section
variable {c : Instr} {s : State} {f : Fin 8} {k : LineK} {rd ra rb : BitVec 5}

/-- A foreman that stands before a line operation starts it, unless its operands trap. -/
theorem exec_line_start (hc : exec c s = run s (fun m => m.bauri f (.line k rd ra rb))) (h : Stands s.m f (.line k rd ra rb))
    (ht : (s.m.countStep f).lineTrap f k ((s.m.fm f).val ra).toNat (if k.scratch then ((s.m.fm f).val rb).toNat else 0) = none) :
    exec c s = answers s (((s.m.countStep f).lineStart (.foreman f) k.code rd.toNat (((s.m.fm f).val ra).toNat / 64)
      (if k.scratch then ((s.m.fm f).val rb).toNat else 0) (if k = .lwr then (s.m.fm f).val rd else ~~~ 0) 0).haltHold f) := by
  refine exec_stands hc h ((Mod.bline_start (by simpa using ht)).trans ?_)
  simp

end

/-- Settles O37: the operations by `exec_line_start`, their bound by `Mod.passUntil_of_le`, and each check-unit instruction by the branch
of its definition. -/
theorem lineAndCheckUnitCommandsAnswer : Obligations.LineAndCheckUnitCommandsAnswer := by
  intro s f rd ra rb
  refine ⟨exec_line_start rfl, exec_line_start rfl, exec_line_start rfl, exec_line_start rfl, exec_line_start rfl, exec_line_start rfl,
    exec_line_start rfl, fun t h ht => exec_stands_trap rfl h (Mod.bline_trap (by simpa [LineK.scratch] using ht)), fun o st hw ho => ?_,
    fun o hl ho => ⟨?_, fun hb => ?_⟩, fun h hd => exec_stands rfl h ?_, fun h hd => exec_stands_trap rfl h ?_,
    fun u h h0 h1 h2 hd hu => exec_stands rfl h ?_, fun u h hu => exec_stands_fm rfl h ?_, fun u h hu => exec_stands rfl h ?_,
    fun h hu => exec_stands_trap rfl h ?_⟩
  case refine_1 => exact exec_of_op (·.blineDone f) rfl (by simp only [Mod.blineDone, hw, ho])
  case refine_2 => exact exec_of_op (·.lineLate f) rfl (by simp only [Mod.lineLate, hl, ho, Option.isNone_none, if_true])
  case refine_3 => exact exec_of_op (·.lineLate f) rfl (by simp only [Mod.lineLate, Mod.lineStop, Mod.passUntil_of_le _ hb, hl, ho, Option.isNone_none, if_true])
  case refine_4 => simp [Mod.bexec, Mod.bcusel, Nat.not_le.2 hd]
  case refine_5 => simp [Mod.bexec, Mod.bcusel, hd]
  case refine_6 => simp [Mod.bexec, Mod.bcufeed, h0, Nat.not_lt.2 h1, Nat.not_lt.2 h2, hd, hu]; rfl
  case refine_7 => simp only [Mod.bexec, Mod.bcuget, hu]
  case refine_8 => simp [Mod.bexec, Mod.bcuput, hu]; rfl
  case refine_9 => simp only [Mod.bexec, Mod.bcuput, hu]

/-! ### Transactions, events and ends (R246–R254, R280–R286) -/

@[simp] theorem Mod.org_countStep (m : Mod) (f : Nat) : (m.countStep f).org f = m.org f := by
  simp only [Mod.org, Mod.countStep_fm]

theorem Mod.org_of_prog {m : Mod} {f : Nat} {p : Prog} (h : (m.fm f).prog = some p) : m.org f = p.org := by
  simp only [Mod.org, h]

section
variable {m : Mod} {t : Tx} {rest : List Tx} (hq : m.fore.commitQ = t :: rest) (hon : m.coreOn = true) (hr : m.fore.ready = true)
  (hst : m.canStage t = true)
include hq hon hr hst

/-- The commit unit drops the first transaction of its queue if it fails validation (R248). -/
theorem Mod.commitNext_failed {e : Fail} (he : Mod.validate { m with fore := { m.fore with commitQ := rest } } t = some e) :
    m.commitNext = (Mod.txFailed { m with fore := { m.fore with commitQ := rest } } t e).txRelease t (some e) := by
  have hgo : (!m.coreOn || !m.fore.ready || !m.canStage t) = false := by simp [hon, hr, hst]
  simp only [Mod.commitNext, hq, hgo, he, Bool.false_eq_true, if_false]

/-- A valid transaction is staged under the next number (R249). -/
theorem Mod.commitNext_staged (he : Mod.validate { m with fore := { m.fore with commitQ := rest } } t = none) :
    m.commitNext = Mod.txRelease { m with fore := { m.fore with commitQ := rest, txnum := m.fore.txnum + 1, staged := m.fore.staged ++ [{ t with num := m.fore.txnum + 1 }] } } t none := by
  have hgo : (!m.coreOn || !m.fore.ready || !m.canStage t) = false := by simp [hon, hr, hst]
  simp only [Mod.commitNext, hq, hgo, he, Bool.false_eq_true, if_false]

end

/-- Settles O38: each command executes its instruction; the ends of a program are `Mod.endProg`; the commit unit by `Mod.commitNext_failed` and
`Mod.commitNext_staged`. -/
theorem transactionAndEndCommandsAnswer : Obligations.TransactionAndEndCommandsAnswer := by
  intro s f rd rs imm code
  refine ⟨fun p h ht hp => exec_stands_fm rfl h ?_, fun h ht => exec_stands_trap rfl h ?_, fun t h ht => exec_stands rfl h ?_,
    fun p h ht hp => exec_stands rfl h ?_, fun h => exec_stands_fm rfl h rfl, fun p h hp => exec_stands rfl h ?_,
    fun h hs hc => exec_stands rfl h ?_, fun h hs hc => exec_stands_fm rfl h ?_, fun h => exec_stands_fm rfl h rfl,
    fun h => exec_stands rfl h rfl, fun h => exec_stands rfl h rfl, fun hr hs => ⟨?_, ?_⟩, fun w hr hs hw hd => ?_,
    fun hr hs hw => ?_, fun t rest hq hon hr hst => ⟨fun e he => ?_, fun he => ?_⟩, fun hq => ?_⟩
  case refine_1 => simp [Mod.bexec, Mod.btxb, ht, Mod.org_of_prog hp]
  case refine_2 => simp [Mod.bexec, Mod.btxb, ht]
  case refine_3 => simp [Mod.bexec, Mod.btxc, ht]
  case refine_4 => simp [Mod.bexec, Mod.btxc, ht, Mod.org_of_prog hp]; rfl
  case refine_5 => simp [Mod.bexec, Mod.bevsig, Mod.org_of_prog hp]; rfl
  case refine_6 => simp [Mod.bexec, Mod.bevack, Nat.not_le.2 hs, hc]
  case refine_7 => simp [Mod.bexec, Mod.bevack, Nat.not_le.2 hs, hc]
  case refine_8 => exact exec_of_op (·.budgetEnd f) rfl (by simp [Mod.budgetEnd, hr, hs])
  case refine_9 => exact exec_of_op (·.bauri f .halt) rfl (by simp [Mod.bauri, hr, hs])
  case refine_10 => exact exec_of_op (·.billegal f) rfl (by simp [Mod.billegal, hr, hs, hw, hd, Mod.btrap])
  case refine_11 => exact exec_of_op (·.bfetch f) rfl (by simp [Mod.bfetch, hr, hs, hw, Mod.btrap])
  case refine_12 => exact exec_of_op (·.commitNext) rfl (Mod.commitNext_failed hq hon hr hst he)
  case refine_13 => exact exec_of_op (·.commitNext) rfl (Mod.commitNext_staged hq hon hr hst he)
  case refine_14 => exact exec_of_op (·.commitNext) rfl (by simp only [Mod.commitNext, hq])

/-! ### Scratch (R27, R268–R270) -/

/-- `m'` is `m` but for what a Tally record may change: the recorder, the blocks and the medium, event counts, counters, and outputs. -/
def TallyKept (m m' : Mod) : Prop := ∃ u d e p t o, m' = { m with upk := u, med := d, evt := e, perf := p, tly := t, out := o }

theorem TallyKept.trans {m m₁ m₂ : Mod} (h₁ : TallyKept m m₁) (h₂ : TallyKept m₁ m₂) : TallyKept m m₂ := by
  obtain ⟨u, d, e, p, t, o, rfl⟩ := h₁
  obtain ⟨u, d, e, p, t, o, rfl⟩ := h₂
  exact ⟨_, _, _, _, _, _, rfl⟩

theorem Mod.tallyPage_kept (m : Mod) : TallyKept m m.tallyPage := by
  unfold Mod.tallyPage
  split
  · exact ⟨_, _, _, _, _, _, rfl⟩
  · obtain ⟨u, d, h⟩ := m.writeMeta_frame .tally (m.tly.head + 1 - m.tly.staged)
    simp only [h]
    exact ⟨_, _, _, _, _, _, rfl⟩

theorem Mod.tallyFull_kept (m : Mod) : TallyKept m m.tallyFull := by
  unfold Mod.tallyFull
  split
  · exact m.tallyPage_kept
  · exact ⟨_, _, _, _, _, _, rfl⟩

theorem Mod.traceOut_kept (m : Mod) (seq : Nat) : TallyKept m (m.traceOut seq) := by
  unfold Mod.traceOut
  split
  · dsimp only
    split <;> exact ⟨_, _, _, _, _, _, rfl⟩
  · exact ⟨_, _, _, _, _, _, rfl⟩

theorem Mod.tallyLost_kept (m : Mod) (lost : Bool) : TallyKept m (m.tallyLost lost) := by
  cases lost <;> exact ⟨_, _, _, _, _, _, rfl⟩

theorem Mod.tly_kept (m : Mod) (t : TlySt) : TallyKept m { m with tly := t } := ⟨_, _, _, _, _, _, rfl⟩

theorem Mod.happen_kept (m : Mod) (code n : Nat) : TallyKept m (m.happen code n) := ⟨_, _, _, _, _, _, rfl⟩

/-- A Tally record changes nothing but what `TallyKept` names (R401–R406). -/
theorem Mod.tallyWith_kept (m : Mod) (type src island : Nat) (payload : List Byte) (snap : Option (List Word)) :
    TallyKept m (m.tallyWith type src island payload snap) := by
  unfold Mod.tallyWith
  split
  · exact ((((m.tly_kept _).trans (Mod.tallyLost_kept _ _)).trans (Mod.happen_kept _ _ _)).trans (Mod.traceOut_kept _ _)).trans
      (Mod.tallyFull_kept _)
  · exact ⟨_, _, _, _, _, _, rfl⟩

theorem Mod.tally_kept (m : Mod) (type src island : Nat) (payload : List Byte) : TallyKept m (m.tally type src island payload) :=
  m.tallyWith_kept type src island payload none

/-- What a load finds in a scratch word leaves every foreman and the program store. -/
theorem Mod.eccMeets_kept (m : Mod) (mem addr : Nat) (e : Ecc) : TallyKept m (m.eccMeets mem addr e) := by
  cases e with
  | clean => exact ⟨_, _, _, _, _, _, rfl⟩
  | single => exact ⟨_, _, _, _, _, _, rfl⟩
  | double => exact TallyKept.trans ⟨_, _, _, _, _, _, rfl⟩ (Mod.tally_kept _ _ _ _ _)

theorem Stands.kept {m m' : Mod} {f : Nat} {b : BOp} (h : Stands m f b) (hk : TallyKept m m') : Stands m' f b := by
  obtain ⟨u, d, e, p, t, o, rfl⟩ := hk
  exact h

theorem TallyKept.fm {m m' : Mod} (hk : TallyKept m m') (f : Nat) : m'.fm f = m.fm f := by
  obtain ⟨u, d, e, p, t, o, rfl⟩ := hk
  rfl

/-- A foreman keeps a double-bit error with word `k` of its scratch. -/
def Foreman.keepDbe (k : Nat) (x : Foreman) : Foreman := { x with dbe := if x.dbe.contains k then x.dbe else x.dbe ++ [k] }

theorem Foreman.mem_keepDbe (k : Nat) (x : Foreman) : k ∈ (x.keepDbe k).dbe := by
  by_cases hk : k ∈ x.dbe <;> simp [Foreman.keepDbe, hk]

/-- The word at `a / 8` lies among the bytes at `a`. -/
theorem Foreman.dbeIn_of_mem {x : Foreman} {a n : Nat} (hn : 0 < n) (h : a / 8 ∈ x.dbe) : x.dbeIn a n = true := by
  refine List.any_eq_true.2 ⟨a / 8, h, ?_⟩
  rw [Bool.and_eq_true, decide_eq_true_eq, decide_eq_true_eq]
  omega

/-- A kept error leaves the foreman before the same instruction. -/
theorem Stands.keepDbe {m : Mod} {f : Nat} {b : BOp} (h : Stands m f b) (k : Nat) :
    (m.setFm f (Foreman.keepDbe k)).fm f = (m.fm f).keepDbe k ∧ Stands (m.setFm f (Foreman.keepDbe k)) f b := by
  have hfm : (m.setFm f (Foreman.keepDbe k)).fm f = (m.fm f).keepDbe k := by
    refine Mod.setFm_fm_ne _ _ _ fun hx => ?_
    have hmem := Foreman.mem_keepDbe k (m.fm f)
    rw [hx] at hmem
    exact List.not_mem_nil hmem
  refine ⟨hfm, ?_⟩
  unfold Stands Mod.fetch
  rw [hfm]
  exact h

/-! The traps of an access, by the order of its tests. -/

section
variable {m : Mod} {f : Nat} {w : Width} {rd rs : BitVec 5} {imm : BitVec 14} {a : Nat}
  (hadr : ((m.fm f).val rs + imm.signExtend 64).toNat = a)
include hadr

theorem Mod.bld_misaligned (ha : a % w.bytes ≠ 0) : m.bld f w rd rs imm = m.btrap f 0x82 := by
  simp only [Mod.bld, hadr, bne_iff_ne.2 ha, if_true]

theorem Mod.bld_dbe (ha : a % w.bytes = 0) (hin : a < 0x40000) (hd : (m.fm f).dbeIn a w.bytes = true) :
    m.bld f w rd rs imm = m.btrap f 0x89 := by
  simp only [Mod.bld, hadr, ha, bne_self_eq_false, Nat.not_le.2 hin, hd, Bool.false_eq_true, if_false, if_true]

theorem Mod.bst_outside (ha : a % w.bytes = 0) (hout : 0x40000 ≤ a) : m.bst f w rd rs imm = m.btrap f 0x83 := by
  simp only [Mod.bst, hadr, ha, bne_self_eq_false, hout, Bool.false_eq_true, if_false, if_true]

/-- A misaligned load reads no word. -/
theorem Mod.ldCheck_misaligned (ha : a % w.bytes ≠ 0) (e : Ecc) : m.ldCheck f w rd rs imm e = m := by
  simp [Mod.ldCheck, hadr, ha, -BitVec.toNat_add]

end

section
variable {m : Mod} {f : Nat} {w : Width} {rd rs : BitVec 5} {imm : BitVec 14} {a : Nat} (h : Stands m f (.ld w rd rs imm))
  (hadr : ((m.fm f).val rs + imm.signExtend 64).toNat = a) (ha : a % w.bytes = 0) (hin : a < 0x40000)
include h hadr ha hin

/-- A load that reads its word meets what the word's check code finds, and keeps no double-bit error. -/
theorem Mod.ldCheck_of_ne_double {e : Ecc} (he : e ≠ .double) : m.ldCheck f w rd rs imm e = m.eccMeets f (a / 8) e := by
  obtain ⟨hr, hs, hb⟩ := h
  cases e with
  | clean => simp [Mod.ldCheck, Mod.eccMeets]
  | single => simp [Mod.ldCheck, hr, hs, hb, hadr, ha, Nat.not_le.2 hin, -BitVec.toNat_add]
  | double => exact absurd rfl he

/-- A load that finds a double-bit error keeps it with the word. -/
theorem Mod.ldCheck_double : m.ldCheck f w rd rs imm .double = 
    (m.eccMeets f (a / 8) .double).setFm f (Foreman.keepDbe (a / 8)) := by
  obtain ⟨hr, hs, hb⟩ := h
  simp only [Mod.ldCheck, hr, hs, hb, hadr, ha, bne_self_eq_false, Nat.not_le.2 hin, Bool.not_true, Bool.or_self,
    decide_false, reduceCtorEq, Bool.false_eq_true, if_false, if_true]
  rfl

end

section
variable {c : Instr} {s : State} {f : Fin 8} {w : Width} {rd rs : BitVec 5} {imm : BitVec 14} {a : Nat}
  (hadr : ((s.m.fm f).val rs + imm.signExtend 64).toNat = a)
include hadr

/-- A load of good bytes inside the scratch writes them to rd, little-endian. -/
theorem exec_load {e : Ecc} (hc : exec c s = run s (fun m => (m.ldCheck f w rd rs imm e).bauri f (.ld w rd rs imm)))
    (h : Stands s.m f (.ld w rd rs imm)) (ha : a % w.bytes = 0) (hin : a < 0x40000) (hd : (s.m.fm f).dbeIn a w.bytes = false)
    (he : e ≠ .double) :
    exec c s = answers s (fmDoes (s.m.eccMeets f (a / 8) e) f (fun x => x.put rd (BitVec.ofNat 64 (ofLe (x.bytes a w.bytes))))) := by
  have hk := s.m.eccMeets_kept f (a / 8) e
  refine exec_of_op _ hc ?_
  simp only [Mod.ldCheck_of_ne_double h hadr ha hin he, Mod.bauri_stands _ _ _ (h.kept hk), fmDoes, Mod.bexec, Mod.bld,
    Mod.countStep_fm, hk.fm, Foreman.val_steps, Foreman.dbeIn_steps, hadr, ha, hd, Nat.not_le.2 hin]
  simp

/-- An aligned store inside the scratch writes rd's low bytes; a whole word ends its double-bit error. -/
theorem exec_store (hc : exec c s = run s (fun m => m.bauri f (.st w rd rs imm)))
    (h : Stands s.m f (.st w rd rs imm)) (ha : a % w.bytes = 0) (hin : a < 0x40000) :
    exec c s = answers s (fmDoes s.m f (fun x =>
      let y := x.putBytes a (leBytes w.bytes (x.val rd).toNat)
      { y with pc := x.pc + 1, dbe := if w = .w64 then y.dbe.filter (fun k => k != a / 8) else y.dbe })) := by
  refine exec_stands_fm hc h ?_
  simp only [Mod.bexec, Mod.bst, Mod.countStep_fm, Foreman.val_steps, hadr, ha, Nat.not_le.2 hin]
  simp

end

/-- A load that finds a double-bit error keeps it and traps. -/
theorem exec_load_double {c : Instr} {s : State} {f : Fin 8} {w : Width} {rd rs : BitVec 5} {imm : BitVec 14} {a : Nat}
    (hadr : ((s.m.fm f).val rs + imm.signExtend 64).toNat = a)
    (hc : exec c s = run s (fun m => (m.ldCheck f w rd rs imm .double).bauri f (.ld w rd rs imm)))
    (h : Stands s.m f (.ld w rd rs imm)) (ha : a % w.bytes = 0) (hin : a < 0x40000) :
    exec c s = answers s (((((s.m.eccMeets f (a / 8) .double).setFm f (Foreman.keepDbe (a / 8))).countStep f).endProg f 3 0x89).haltHold f) := by
  have hk := s.m.eccMeets_kept f (a / 8) .double
  obtain ⟨hfm, hst⟩ := (h.kept hk).keepDbe (a / 8)
  have hw : 0 < w.bytes := by cases w <;> decide
  have hd := Foreman.dbeIn_of_mem hw (Foreman.mem_keepDbe (a / 8) (s.m.fm f))
  rw [hk.fm] at hfm
  refine exec_of_op _ hc ?_
  simp only [Mod.ldCheck_double h hadr ha hin, Mod.bauri_stands _ _ _ hst, Mod.bexec]
  rw [Mod.bld_dbe (a := a) (by rw [Mod.countStep_fm, hfm]; exact hadr) ha hin (by rw [Mod.countStep_fm, hfm]; exact hd)]
  rfl

/-- Settles O34: loads by `exec_load` and `exec_load_double`, stores by `exec_store`, and the other traps by the order of the tests in
`Mod.bld` and `Mod.bst`. -/
theorem scratchCommandsAnswer : Obligations.ScratchCommandsAnswer := by
  intro s f rd rs imm
  refine ⟨fun e h => exec_load rfl rfl h, fun e h => exec_load rfl rfl h, fun e h => exec_load rfl rfl h, fun e h => exec_load rfl rfl h,
    exec_store rfl rfl, exec_store rfl rfl, exec_store rfl rfl, exec_store rfl rfl, fun e h ha hin he => ?_, fun e h ha => ?_,
    fun h ha hout => exec_stands_trap rfl h (Mod.bst_outside (by simp only [Mod.countStep_fm]; rfl) ha hout), fun h hin hd => ?_⟩
  · subst he
    exact exec_load_double rfl rfl h ha hin
  · refine exec_of_op (fun m => (m.ldCheck f .w64 rd rs imm e).bauri f (.ld .w64 rd rs imm)) rfl ?_
    simp only [Mod.ldCheck_misaligned (w := .w64) rfl ha, Mod.bauri_stands _ _ _ h, Mod.bexec]
    rw [Mod.bld_misaligned (w := .w64) (by simp only [Mod.countStep_fm]; rfl) ha]
    rfl
  · refine exec_of_op (fun m => (m.ldCheck f .w8 rd rs imm .clean).bauri f (.ld .w8 rd rs imm)) rfl ?_
    have hclean : s.m.ldCheck f .w8 rd rs imm .clean = s.m := by simp [Mod.ldCheck]
    simp only [hclean, Mod.bauri_stands _ _ _ h, Mod.bexec]
    rw [Mod.bld_dbe (w := .w8) (by simp only [Mod.countStep_fm]; rfl) (Nat.mod_one _) hin (by rw [Mod.countStep_fm]; exact hd)]
    rfl

end Sys2Proof.Machine
end

section
/-! Commands that are one access of a register path, and what such accesses start (R289–R301, R371–R379, R391–R424). -/
namespace Sys2Proof.Machine

/-! ### One write or one read -/

section
variable {c : Instr} {s : State} {p : Path} {off : Nat}

/-- A command that is one write, on a path that takes it. -/
theorem exec_pathWrite {v : Word} {ok : Bool} (hc : exec c s = run s (fun m => m.pathWrite p off v ok)) (h : pathTakes s.m p off) :
    exec c s = answers s (wrote s.m p off v ok) :=
  exec_of_op _ hc (Mod.pathWrite_takes _ _ _ _ _ h)

/-- As `exec_pathWrite`, for a word that the command composes. -/
theorem exec_pathWrite_word {v w : Word} {ok : Bool} (hv : v = w) (hc : exec c s = run s (fun m => m.pathWrite p off v ok))
    (h : pathTakes s.m p off) : exec c s = answers s (wrote s.m p off w ok) :=
  hv ▸ exec_pathWrite hc h

/-- A command that is one read, on a path that gives it. -/
theorem exec_pathRead (hc : exec c s = run s (fun m => m.pathRead p off)) (h : pathGives s.m p off) :
    exec c s = answers s (gave s.m p off) :=
  exec_of_op _ hc (Mod.pathRead_gives _ _ _ h)

end

/-- A path that takes a write has room in its queue. -/
theorem pathTakes.room {m : Mod} {p : Path} {off : Nat} (h : pathTakes m p off) : (m.pathQ (pathNum p)).q.length < 64 := by
  obtain ⟨-, -, hfull⟩ := h
  simp only [Mod.pathFull, Bool.or_eq_false_iff, decide_eq_false_iff_not] at hfull
  omega

/-- R290: on a path other than the BAR a word of the window is written at its offset. -/
theorem Mod.regWrite_one {m : Mod} {p : Path} {off : Nat} (hp : p ≠ .bar) (hwin : off + 4 ≤ 0x200000) (hal : off % 4 = 0)
    (h : pathTakes m p off) (be : BitVec 8) (v : Word) : m.regWrite p off be [v] = wrote m p off v true := by
  have hbusy : p = .mgmt → m.pathOk p true off = true → ¬ 64 ≤ (m.pathQ 1).q.length := by
    rintro rfl -
    exact Nat.not_le.2 h.room
  rw [← Mod.pathWrite_takes m p off v true h]
  simp only [Mod.regWrite, List.length_singleton, Nat.mul_one, Nat.not_lt.2 hwin, hp, hal, Mod.pathWrites, if_false, if_true,
    ite_eq_right_iff, Bool.and_eq_true, decide_eq_true_eq, Nat.lt_succ_iff]
  exact fun hc => absurd hc.2 (hbusy hc.1.1 hc.1.2)

/-- R290: the BAR takes one aligned DW with its four byte enables, or an aligned pair with all eight. -/
theorem Mod.regWrite_bar {m : Mod} {off : Nat} {be : BitVec 8} {vals : List Word} (hwin : off + 4 * vals.length ≤ 0x200000)
    (h : (vals.length = 1 ∧ off % 4 = 0 ∧ be = 0x0F) ∨ (vals.length = 2 ∧ off % 8 = 0 ∧ be = 0xFF)) :
    m.regWrite .bar off be vals = Mod.pathWrites vals off .bar m := by
  have hshape : (vals.length = 1 && off % 4 = 0 && be = 0x0F || vals.length = 2 && off % 8 = 0 && be = 0xFF) = true := by
    simpa [and_assoc] using h
  simp only [Mod.regWrite, Nat.not_lt.2 hwin, hshape, reduceCtorEq, decide_false, Bool.false_and, Bool.false_eq_true, if_false, if_true]

/-- R290: a DW with other byte enables is discarded and counted. -/
theorem Mod.regWrite_bar_bad {m : Mod} {off : Nat} {be : BitVec 8} {v : Word} (hwin : off + 4 ≤ 0x200000) (hbe : be ≠ 0x0F)
    (h : m.pathOk .bar true off = true) : m.regWrite .bar off be [v] = m.badAccess := by
  simp only [Mod.regWrite, List.length_singleton, Nat.mul_one, Nat.not_lt.2 hwin, hbe, h]
  simp

/-- Settles O39: REGISTER_WRITE by the path's rule (`Mod.regWrite_one`, `Mod.regWrite_bar`); every other command is one write. -/
theorem registerWriteCommandsAnswer : Obligations.RegisterWriteCommandsAnswer := by
  intro s p v
  refine ⟨fun off hp hwin hal h be => exec_of_op (fun m => m.regWrite p off be [v]) rfl (Mod.regWrite_one hp hwin hal h be v),
    fun off hwin hal h => exec_of_op (fun m => m.regWrite .bar off 0x0F [v]) rfl ?_,
    fun off u hwin hal h h' => exec_of_op (fun m => m.regWrite .bar off 0xFF [v, u]) rfl ?_,
    fun off be hbe hwin hok => exec_of_op (fun m => m.regWrite .bar off be [v]) rfl (Mod.regWrite_bar_bad hwin hbe hok),
    fun off hk h => exec_of_op (fun m => if (ackKey off 0).isSome then m.pathWrite p off v true else m) rfl ?_,
    exec_pathWrite rfl, exec_pathWrite rfl, exec_pathWrite rfl, exec_pathWrite rfl, exec_pathWrite rfl, fun raw => exec_pathWrite rfl,
    exec_pathWrite rfl, fun ok => exec_pathWrite rfl, exec_pathWrite rfl, fun h => ⟨exec_pathWrite_word (by decide) rfl h,
      exec_pathWrite_word (by decide) rfl h, exec_pathWrite_word (by decide) rfl h, fun z w => ⟨exec_pathWrite rfl h,
        exec_pathWrite rfl h, exec_pathWrite rfl h, exec_pathWrite_word BitVec.or_zero rfl h⟩⟩, exec_pathWrite rfl, exec_pathWrite rfl⟩
  · rw [Mod.regWrite_bar (vals := [v]) hwin (.inl ⟨rfl, hal, rfl⟩)]
    exact Mod.pathWrite_takes _ _ _ _ _ h
  · rw [Mod.regWrite_bar (vals := [v, u]) hwin (.inr ⟨rfl, hal, rfl⟩), Mod.pathWrites, Mod.pathWrites, Mod.pathWrites,
      Mod.pathWrite_takes _ _ _ _ _ h, Mod.pathWrite_takes _ _ _ _ _ h']
  · rw [if_pos hk, Mod.pathWrite_takes _ _ _ _ _ h]

/-- Settles O28: the test and the acknowledgement are one write each; a roll page, a base and recovery are the branches of their definitions. -/
theorem rollAndRecoveryCommandsAnswer : Obligations.RollAndRecoveryCommandsAnswer := by
  intro s
  refine ⟨fun p => exec_pathWrite rfl, fun p h => exec_of_op (fun m => m.pathWrite p 0x70064 (m.cntW cSus) true) rfl
    (Mod.pathWrite_takes _ _ _ _ _ h), fun h => ⟨exec_of_op Mod.rollPage rfl (if_pos h), exec_of_op Mod.rollBase rfl (if_pos h)⟩,
    fun f _ hn hr => exec_of_op (fun m => let n := m.recover f
                                          if n.fore.ready && !m.fore.ready then n.hooksBoundary m.cfg.plates else n) rfl ?_⟩
  simp only [hr, hn, Bool.not_false, Bool.and_self, if_true]

/-- Settles O44: a command of the block is one write of the debug path; a scratch access, a completion and the end of the hold are the
branches of their definitions. -/
theorem debugBlockCommandsAnswer : Obligations.DebugBlockCommandsAnswer := by
  intro s
  refine ⟨fun req => exec_pathWrite_word ?_ rfl, fun f => exec_pathWrite rfl, fun v h => ⟨?_, ?_⟩, fun hw h => ?_,
    fun h => ⟨exec_pathWrite_word (by decide) rfl h, exec_pathWrite_word (by decide) rfl h, exec_pathWrite_word (by decide) rfl h,
      exec_pathWrite_word (by decide) rfl h, exec_pathWrite_word (by decide) rfl h, exec_pathWrite_word (by decide) rfl h⟩,
    fun v => ⟨exec_pathWrite rfl, exec_pathWrite rfl⟩, fun up => exec_pathWrite_word (by decide) rfl, fun o st ho hst hp => ?_,
    fun o ho hst => ?_, fun t ht hdue hp hc hx => ?_⟩
  case refine_1 => rfl
  case refine_2 =>
    refine exec_of_op (·.scratchAccess (some v) false) rfl ?_
    simp only [Mod.scratchAccess, h.1, Bool.not_true, Bool.false_eq_true, if_false]
    exact Mod.pathWrite_takes _ _ _ _ _ h
  case refine_3 =>
    exact exec_of_op (·.scratchAccess (some v) true) rfl
      (by simp only [Mod.scratchAccess, h.1, Bool.not_true, Bool.false_eq_true, if_false])
  case refine_4 =>
    refine exec_of_op (·.scratchAccess none false) rfl ?_
    simp only [Mod.scratchAccess, hw.1, Bool.not_true, Bool.false_eq_true, if_false]
    exact Mod.pathRead_gives _ _ _ h
  case refine_5 => exact exec_of_op (·.dbgLineDone) rfl (by simp [Mod.dbgLineDone, ho, hst, hp])
  case refine_6 => exact exec_of_op (·.dbgLineDone) rfl (by simp only [Mod.dbgLineDone, ho, hst])
  case refine_7 =>
    refine exec_of_op (·.dbgMediaDown) rfl ?_
    have hgo : (decide (t ≤ s.m.time.dtc) && decide (s.m.pwr.pstate = 3) && s.m.dbg.mcmd.isNone && !s.m.pwr.m3Exit) = true := by
      simp [hdue, hp, hc, hx]
    simp only [Mod.dbgMediaDown, ht, hgo, if_true, List.foldl_cons, List.foldl_nil]

/-! ### What a register read or an end does (R296–R301, R311, R393–R424) -/

theorem isRl_aligned {off : Nat} (h : isRl off = true) : off % 4 = 0 := by
  unfold isRl at h
  split at h
  · rw [Bool.and_eq_true, beq_iff_eq, beq_iff_eq] at h
    exact h.2
  · cases h

/-- R311: a hold-off that has run out lets go of the deferred records of its source. -/
theorem Mod.holdoffEnd_due {m : Mod} {k : Nat} (hd : (m.src k).deferred = true) (haon : m.pwr.aonReset = false)
    (ht : ∀ t : Nat, (m.src k).lastAt = some t → t + m.holdNs ≤ m.time.dtc) : m.holdoffEnd k =
      if (m.src k).pending then (m.produce k 15).setSrc k (fun x => { x with deferred := false, lastAt := some m.time.dtc })
      else m.setSrc k (fun x => { x with deferred := false }) := by
  unfold Mod.holdoffEnd
  cases hl : (m.src k).lastAt with
  | none => simp [hd, haon]
  | some t => simp [hd, haon, ht t hl]

/-- What a raw scan makes of a line's stored cell (R394). -/
def Mod.scanGot (m : Mod) (n lineNo : Nat) : Got → Mod
  | .bad => m.scanHalt n 1 lineNo
  | .zero => m.scanFeed n lineNo 0
  | .cell x => m.scanFeed n lineNo x.ct

theorem Mod.scanLine_raw {m : Mod} {n : Nat} (bad : List (Fin 10)) (hst : (m.cu n).state = 1) (hraw : (m.cu n).rawRun = true)
    (hok : m.scanRefuse (m.cu n) = none) : m.scanLine n bad =
      let g := (m.filterCount 2 none 5 false (m.cu n).cur 64).scanCell (m.cu n).cur bad
      g.2.scanGot n (m.cu n).cur g.1 := by
  simp only [Mod.scanLine, hst, hok, hraw, bne_self_eq_false, Bool.false_eq_true, if_false, if_true, Bool.true_or]
  cases ((m.filterCount 2 none 5 false (m.cu n).cur 64).scanCell (m.cu n).cur bad).1 <;> rfl

/-- A page written with fewer than 100,000 writes behind it stays where it is (R414). -/
theorem Mod.seedWriteEnd_good {m : Mod} {j : SeedJob} (hj : m.seed.running = some j) {c : Copy}
    (hc : (((m.setSpage j.page (fun x => x.written j.data)).seedApply j).spage j.page).cur = some c) (hw : c.writes < 100000) :
    m.seedWriteEnd true =
      let x := (m.setSpage j.page (fun x => x.written j.data)).seedApply j
      Mod.seedPump { x with seed := { x.seed with running := none } } := by
  simp [Mod.seedWriteEnd, hj, hc, Nat.not_le.2 hw]

/-- Settles O40: reads by `exec_pathRead`; the ends by the branch of their definition that the hypotheses name. -/
theorem registerReadAndEndCommandsAnswer : Obligations.RegisterReadAndEndCommandsAnswer := by
  intro s
  refine ⟨fun p off hrl h => ?_, fun off hal h => ?_, fun p off hpk h => ?_, fun p => exec_pathRead rfl, fun p => exec_pathRead rfl,
    fun k hd haon ht => ⟨fun hp => ?_, fun hp => ?_⟩, fun c bad hst => ?_, fun c bad hst hraw hok => ⟨fun hg => ?_, fun x hg => ?_, fun hg => ?_⟩,
    fun c st bad hst hr => ?_, fun hon hrun hne hdue => ?_, fun h => ?_, fun h => ?_, fun z h => ?_, fun z h => ?_,
    fun j hj => ⟨fun hsp => ?_, fun c hc hw => ?_⟩⟩
  case refine_1 =>
    refine exec_of_op (fun m => if p = .bar && off % 4 != 0 then m.barMisread off else if isRl off then m.pathRead p off else m) rfl ?_
    simp only [isRl_aligned hrl, hrl, bne_self_eq_false, Bool.and_false, Bool.false_eq_true, if_false, if_true, Mod.pathRead_gives _ _ _ h]
  case refine_2 =>
    refine exec_of_op (fun m => if Path.bar = .bar && off % 4 != 0 then m.barMisread off else if isRl off then m.pathRead .bar off else m) rfl ?_
    simp [hal, Mod.barMisread, h]
  case refine_3 =>
    exact exec_of_op (fun m => if isPeak off then m.pathRead p off else m) rfl (by rw [if_pos hpk, Mod.pathRead_gives _ _ _ h])
  case refine_4 => exact exec_of_op (·.holdoffEnd k) rfl (by rw [Mod.holdoffEnd_due hd haon ht, if_pos hp])
  case refine_5 => exact exec_of_op (·.holdoffEnd k) rfl (by simp only [Mod.holdoffEnd_due hd haon ht, hp, Bool.false_eq_true, if_false])
  case refine_6 => exact exec_of_op (·.scanLine c bad) rfl (by simp only [Mod.scanLine, bne_iff_ne.2 hst, if_true])
  case refine_7 => exact exec_of_op (·.scanLine c bad) rfl (by simp only [Mod.scanLine_raw bad hst hraw hok, hg, Mod.scanGot])
  case refine_8 => exact exec_of_op (·.scanLine c bad) rfl (by simp only [Mod.scanLine_raw bad hst hraw hok, hg, Mod.scanGot])
  case refine_9 => exact exec_of_op (·.scanLine c bad) rfl (by simp only [Mod.scanLine_raw bad hst hraw hok, hg, Mod.scanGot])
  case refine_10 => exact exec_of_op (·.scanLine c bad) rfl (by simp [Mod.scanLine, hst, hr])
  case refine_11 =>
    refine exec_of_op (fun m => if m.coreOn && m.tly.running && m.flushDue then m.tallyPage else m) rfl ?_
    simp [hon, hrun, Mod.flushDue, hne, hdue, Mod.tallyPage]
  case refine_12 =>
    refine exec_of_op (fun m => if m.recalling then m else { m with seed := { m.seed with recallUntil := none } }) rfl ?_
    simp only [h, Bool.false_eq_true, if_false]
  case refine_13 =>
    exact exec_of_op (fun m => if m.recalling then m else { m with seed := { m.seed with recallUntil := none } }) rfl (if_pos h)
  case refine_14 =>
    exact exec_of_op (fun m => if m.time.dtc < tget 0 m.seed.lockout z then m
      else { m with seed := { m.seed with lockout := tput 0 m.seed.lockout z 0 } }) rfl (if_neg (Nat.not_lt.2 h))
  case refine_15 =>
    exact exec_of_op (fun m => if m.time.dtc < tget 0 m.seed.lockout z then m
      else { m with seed := { m.seed with lockout := tput 0 m.seed.lockout z 0 } }) rfl (if_pos h)
  case refine_16 => exact exec_of_op (·.seedWriteEnd false) rfl (by simp [Mod.seedWriteEnd, hj, hsp])
  case refine_17 => exact exec_of_op (·.seedWriteEnd true) rfl (Mod.seedWriteEnd_good hj hc hw)

end Sys2Proof.Machine
end

section
/-! A write that acts at once on an idle path (R290–R298). -/
namespace Sys2Proof.Machine

/-- What a change of a path's queue does depends only on its value at that queue. -/
theorem Mod.setPathQ_congr (m : Mod) (n : Nat) {g k : PathQ → PathQ} (h : g (m.pathQ n) = k (m.pathQ n)) :
    m.setPathQ n g = m.setPathQ n k := by
  rw [Mod.pathQ] at h
  simp only [Mod.setPathQ, tmod, h]

/-- Kinds of word whose write acts when it leaves the queue. -/
def immediateWord (idx : Nat) : Prop :=
  plateAcc idx = some .rw ∨ plateAcc idx = some .sel ∨ (plateAcc idx = some .wo ∧ idx < 0x80000)

/-- The first write of a queue leaves it and takes its effect, unless its word is staged. -/
theorem Mod.pumpOne_immediate {m : Mod} {n src : Nat} {w : QWrite} {rest : List QWrite} (hq : (m.pathQ n).q = w :: rest)
    (hb : (m.pathQ n).busy = false) (hw : immediateWord w.idx) :
    m.pumpOne n src = (m.setPathQ n (fun x => { x with q := rest })).immWrite n w.idx w.val w.ok := by
  rcases hw with h | h | ⟨h, hlt⟩
  · simp [Mod.pumpOne, hq, hb, h]
  · simp [Mod.pumpOne, hq, hb, h]
  · simp [Mod.pumpOne, hq, hb, h, Nat.not_le.2 hlt]

/-- A path other than the debug path that holds one write of an immediate word: the write acts, then what the path held back. -/
theorem Mod.pump_immediate {m : Mod} {p : Path} {w : QWrite} (hp : p ≠ .dbg) (hq : m.pathQ (pathNum p) = { q := [w] })
    (hw : immediateWord w.idx) :
    (let x := (m.setPathQ (pathNum p) (fun _ => {})).immWrite (pathNum p) w.idx w.val w.ok
     m.pump (pathNum p) = Mod.unstall (x.pathQ (pathNum p)).wait.length x (pathNum p) (if p = .bar then 5 else 6)) := by
  have hone : ∀ src, Mod.pumpN 1 m (pathNum p) src =
      (m.setPathQ (pathNum p) (fun _ => {})).immWrite (pathNum p) w.idx w.val w.ok := fun src => by
    rw [Mod.pumpN, Mod.pumpN, Mod.pumpOne_immediate (rest := []) (by rw [hq]) (by rw [hq]) hw,
      Mod.setPathQ_congr _ _ (k := fun _ => {}) (by rw [hq])]
  have hlen : (m.pathQ (pathNum p)).q.length = 1 := by rw [hq]; rfl
  cases p with
  | bar => simp only [Mod.pump, hlen, hone]; rfl
  | mgmt => simp only [Mod.pump, hlen, hone]; rfl
  | dbg => exact absurd rfl hp

/-- Settles O59: the write is the path's queue (`Mod.setPathQ_congr`), and leaves it by `Mod.pump_immediate`. -/
theorem immediateWritesActAtOnce : Obligations.ImmediateWritesActAtOnce := by
  intro m p off v ok hp hq hw
  have hset : m.setPathQ (pathNum p) (fun x => { x with q := x.q ++ [{ idx := off / 4, val := v, ok }] }) =
      m.setPathQ (pathNum p) (fun _ => { q := [{ idx := off / 4, val := v, ok }] }) :=
    Mod.setPathQ_congr _ _ (by rw [hq]; rfl)
  have hval : (m.setPathQ (pathNum p) (fun _ => { q := [{ idx := off / 4, val := v, ok }] })).pathQ (pathNum p) =
      { q := [{ idx := off / 4, val := v, ok }] } :=
    Mod.setPathQ_pathQ_ne _ _ _ (fun h => by cases h)
  have hpump := Mod.pump_immediate hp hval hw
  unfold wrote
  rw [hset]
  refine ⟨hpump, fun hwait => hpump.trans ?_⟩
  rw [hwait]
  rfl

end Sys2Proof.Machine
end

section
/-! What follows from a command while only AON runs (R82, R83, R312, R429). -/
namespace Sys2Proof.Machine

/-! ### Steps that find nothing to do -/

theorem Mod.rollStage_nil (old : Mod) {m : Mod} (h : m.hop.frames = []) : Mod.rollStage old m = m := by
  simp [Mod.rollStage, h]

theorem Mod.chanChecks_nil {m : Mod} (hh : m.hop.chans = []) (hm : m.med.chans = []) : m.chanChecks = m := by
  simp [Mod.chanChecks, hh, hm]

theorem Mod.retryAll_nil {m : Mod} (hr : m.host.reqs = []) (hl : m.lineAskers = []) : m.retryAll = m := by
  have hw : m.retryWrites = m := by simp [Mod.retryWrites, hr, byRank]
  have hm : m.retryMerges = m := by simp [Mod.retryMerges, hr]
  have hn : m.retryLines = m := by simp [Mod.retryLines, hl]
  rw [Mod.retryAll, hw, hm, hn]

theorem Mod.fillsEnd_nil {m : Mod} (h : m.hop.frames = []) : m.fillsEnd = m := by
  simp [Mod.fillsEnd, h]

theorem Mod.seamDurable_idle {m : Mod} (h : ∀ e : Nat, e < 2 → (m.seam e).st = .idle) : m.seamDurable = m := by
  simp [Mod.seamDurable, List.range_succ, h 0 (by decide), h 1 (by decide)]

theorem Mod.follow_idle {m : Mod} (hp : m.pwr.pstate = 4) (hph : m.pwr.phase = 0) (hs : ∀ e : Nat, e < 2 → (m.seam e).st = .idle)
    (hc : m.tx.commitWait = none) (ho : m.per.orderly = none) (hx : m.pwr.m3Exit = false) : m.follow = m := by
  have h1 : m.epochDurable = m := by simp only [Mod.epochDurable, hc]
  have h2 : m.orderlyStep = m := by simp only [Mod.orderlyStep, ho]
  have h3 : m.standby = m := by simp [Mod.standby, Mod.orderlyDone, ho]
  have h4 : m.m3Back = m := by simp [Mod.m3Back, hx]
  have h5 : m.phase3 = m := by simp [Mod.phase3, hph]
  have h6 : m.idleState = m := by simp [Mod.idleState, hp]
  rw [Mod.follow, Mod.seamDurable_idle hs, h1, h2, h3, h4, h5, h6]

theorem Mod.pump_nil {m : Mod} {p : Nat} (hp : (m.pathQ p).q = [] ∧ (m.pathQ p).wait = []) (hr : m.dbg.accRead = none)
    (hst : m.dbg.accStatus ≠ 1) : m.pump p = m := by
  obtain ⟨hq, hw⟩ := hp
  have hpoll : m.dbgPoll = m := by simp [Mod.dbgPoll, hr, hst]
  simp [Mod.pump, hq, hw, Mod.pumpN, Mod.unstall, hpoll]

theorem Mod.pumpAll_nil {m : Mod} (hp : ∀ p : Nat, p < 3 → (m.pathQ p).q = [] ∧ (m.pathQ p).wait = []) (hr : m.dbg.accRead = none)
    (hst : m.dbg.accStatus ≠ 1) : m.pumpAll = m := by
  simp only [Mod.pumpAll, List.foldl_cons, List.foldl_nil, Mod.pump_nil (hp 0 (by decide)) hr hst, Mod.pump_nil (hp 1 (by decide)) hr hst,
    Mod.pump_nil (hp 2 (by decide)) hr hst]

/-- Before programs are accepted no foreman is free for one (R246). -/
theorem Mod.dispatch_notReady {m : Mod} (h : m.fore.ready = false) : m.dispatch = m := by
  have hone : ∀ (x : Mod) (f : Nat), x.fore.ready = false → x.dispatchOne f = x := fun x f hx => by simp [Mod.dispatchOne, Mod.fmFree, hx]
  simp [Mod.dispatch, List.range_succ, hone _ _ h]

/-- The module with its credits' gates as they are before PHASE 5. -/
def Mod.gatesShut (m : Mod) : Mod := { m with host := { m.host with gate := m.host.gate || m.waitHigh, rwdOpen := false } }

theorem Mod.closeGates_phase0 {m : Mod} (h : m.pwr.phase = 0) : m.closeGates = m.gatesShut := by
  simp [Mod.closeGates, Mod.gatesShut, Mod.rwdAllowed, h]

/-- The module with no budget passed. -/
def Mod.underBudget (m : Mod) : Mod := { m with per := { m.per with overDT := false } }

theorem Mod.overCheck_noBudget {m : Mod} (h : m.per.everBudget = false) : m.overCheck = m.underBudget := by
  simp [Mod.overCheck, Mod.underBudget, h]

/-- Settles O60: each step of `Mod.fin` finds nothing to do, but for the gates, the budget's comparison and the released alert line. -/
theorem inM4NothingElseFollows : Obligations.InM4NothingElseFollows := by
  intro old m hp hph hf hfr hhc hmc hreq hla hseam hcw hord hx hgo hq hacc hast hbud
  have hret : ∀ x : Mod, x.pwr.pstate = 4 → Mod.returned old x = x := fun x h => by simp [Mod.returned, h]
  have hstep : ∀ x : Mod, x.dbg.stepGo = none → x.stepOnce = x := fun x h => by simp only [Mod.stepOnce, h]
  have hmed : ∀ x : Mod, x.pwr.pstate = 4 → x.mediaOn = x := fun x h => by simp [Mod.mediaOn, h]
  have hup : ∀ x : Mod, x.pwr.pstate = 4 → x.dbgMediaUp = x := fun x h => by simp [Mod.dbgMediaUp, h]
  have hpwr : (m.gatesShut.underBudget.pwr.pstate = 4 || m.gatesShut.underBudget.pwr.aonReset) = true := by
    simp [Mod.gatesShut, Mod.underBudget, hp]
  unfold Mod.fin
  rw [Mod.rollStage_nil old hfr, Mod.chanChecks_nil hhc hmc, Mod.closeGates_phase0 hph, Mod.retryAll_nil (m := m.gatesShut) hreq hla,
    Mod.fillsEnd_nil (m := m.gatesShut) hfr, Mod.follow_idle (m := m.gatesShut) hp hph hseam hcw hord hx]
  dsimp only
  rw [hret m.gatesShut hp, hstep m.gatesShut hgo, hmed m.gatesShut hp, Mod.pumpAll_nil (m := m.gatesShut) hq hacc hast, hup m.gatesShut hp,
    Mod.overCheck_noBudget (m := m.gatesShut) hbud, Mod.settleAll_released _ hpwr]
  exact Mod.dispatch_notReady hf

end Sys2Proof.Machine
end

section
/-! Hold-up, power failure and Evacuate (R188–R206, R211, R340). -/
namespace Sys2Proof.Machine

/-! ### Hold-up tests, budget and debounce -/

section
variable {m : Mod} (hd : m.per.debounce = none) (he : m.per.evac = none) (ht : m.per.testing = false) (hp : m.pwr.phase ≠ 0)
include hd he ht hp

/-- R190: at start-up and after a failure a test starts at once. -/
theorem Mod.capStart_first (h : m.per.tested = false ∨ m.per.testFailed = true) :
    m.capStart = { m with per := { m.per with testing := true } } := by
  have hfirst : (!m.per.tested || m.per.testFailed) = true := by simpa using h
  simp [Mod.capStart, hd, he, ht, hp, hfirst]

/-- R190: later a test starts only while the dirty data fits the budget at 30.0 V, and waits for that otherwise. -/
theorem Mod.capStart_later (h : m.per.tested = true) (hf : m.per.testFailed = false) : m.capStart =
    if m.dt ≤ m.budgetAt 30000 then { m with per := { m.per with testing := true, testPending := none } }
    else { m with per := { m.per with testPending := some (m.per.testPending.getD (m.time.dtc + 10000000000)), budgetNext := some (m.budgetAt 30000, 1) } } := by
  simp [Mod.capStart, hd, he, ht, hp, h, hf]

end

/-- R190, R191: a test whose time has come starts. -/
theorem Mod.capTimer_due {m : Mod} (hw : m.per.testWait ≤ m.time.dtc) (h : m.per.tested = false ∨ m.per.testFailed = true ∨
    m.per.testPending.isSome = true ∨ m.per.testAt + bits (m.w 0 0x70010) 4 0 * 3600000000000 ≤ m.time.dtc) : m.capTimer = m.capStart := by
  have hdue : (!m.per.tested || m.per.testFailed || m.per.testPending.isSome ||
      decide (m.per.testAt + bits (m.w 0 0x70010) 4 0 * 3600000000000 ≤ m.time.dtc)) = true := by
    simpa [or_assoc] using h
  simp only [Mod.capTimer, hdue, hw, decide_true, Bool.and_self, if_true]

/-- R195: the debounce runs from its first sign. -/
theorem Mod.debounceStart_idle {m : Mod} (hd : m.per.debounce = none) (he : m.per.evac = none) (hp : m.pwr.phase ≠ 0)
    (ha : m.pwr.aonReset = false) (c : Nat) :
    m.debounceStart c = Mod.rollPage { m with per := { m.per with debounce := some m.time.dtc, debounceCause := c } } := by
  simp [Mod.debounceStart, hd, he, hp, ha]

/-- R195: the debounce's end, once its 40 µs have passed. -/
theorem Mod.debounceOver_some {m : Mod} {t : Nat} (ht : m.per.debounce = some t)
    (hd : (m.passUntil (t + 40000)).per.debounce.isSome = true) (g p : Bool) : m.debounceOver g p =
      (let d := m.passUntil (t + 40000)
       let x : Mod := { d with per := { d.per with debounce := none } }
       if g && p then x.bump cPf else x.evacCommit d.per.debounceCause) := by
  obtain ⟨u, hu⟩ := Option.isSome_iff_exists.1 hd
  simp only [Mod.debounceOver, ht, Mod.debounceEnd, hu]

/-- R340, R453: within the ratings VIN_OVERVOLTAGE takes its effect. -/
theorem exec_vinOvervoltage {s : State} {mv : Nat} (h : mv ≤ 24000) : exec (.vinOvervoltage mv) s = run s (·.overvoltage mv) := by
  change execVinOvervoltage mv s = _
  rw [execVinOvervoltage, if_neg (Nat.not_lt.2 h)]

/-- Settles O26: tests by `Mod.capStart_first` and `Mod.capStart_later`, the debounce by `Mod.debounceStart_idle` and
`Mod.debounceOver_some`, the rest by the branches of their definitions. -/
theorem holdupAndPowerFailCommandsAnswer : Obligations.HoldupAndPowerFailCommandsAnswer := by
  refine ⟨fun s => ⟨fun hd he ht hp hw => ⟨fun h => ?_, fun h hf hdue => ⟨fun hfit => ?_, fun hover => ?_⟩⟩,
    fun cap esr ht => ⟨fun hc he => ?_, fun hbad => ?_⟩, fun t htp hdue hover => ?_,
    fun vhu => ⟨fun h => ?_, fun h ht hf => ?_, fun h ht hf hp => ?_, fun h ht hf hp => ?_⟩⟩,
    fun s => ⟨fun hd he hp ha => ⟨?_, fun hpf hdr => ?_, fun hpf => ?_, fun mv h1 h2 => ?_, fun mv h => ?_⟩,
    fun t ht hd => ⟨?_, fun g p hgp => ?_⟩⟩⟩
  case refine_1 =>
    refine exec_of_op Mod.capTimer rfl ((Mod.capTimer_due hw ?_).trans (Mod.capStart_first hd he ht hp h))
    exact h.elim .inl fun h => .inr (.inl h)
  case refine_2 =>
    exact exec_of_op Mod.capTimer rfl ((Mod.capTimer_due hw (.inr (.inr hdue))).trans ((Mod.capStart_later hd he ht hp h hf).trans (if_pos hfit)))
  case refine_3 =>
    exact exec_of_op Mod.capTimer rfl ((Mod.capTimer_due hw (.inr (.inr hdue))).trans
      ((Mod.capStart_later hd he ht hp h hf).trans (if_neg (Nat.not_le.2 hover))))
  case refine_4 => exact exec_of_op (·.capDone cap esr) rfl (by simp [Mod.capDone, ht, hc, he])
  case refine_5 =>
    have hno : ¬ (2200 ≤ cap ∧ esr ≤ 2000) := by omega
    exact exec_of_op (·.capDone cap esr) rfl (by simp [Mod.capDone, ht, hno])
  case refine_6 => exact exec_of_op Mod.capDefer rfl (by simp [Mod.capDefer, htp, hdue, hover])
  case refine_7 => exact exec_of_op (·.budgetCompute vhu) rfl (by simp [Mod.budgetCompute, h])
  case refine_8 => exact exec_of_op (·.budgetCompute vhu) rfl (by simp [Mod.budgetCompute, Nat.not_lt.2 h, ht, hf])
  case refine_9 => exact exec_of_op (·.budgetCompute vhu) rfl (by simp [Mod.budgetCompute, Nat.not_lt.2 h, ht, hf, hp])
  case refine_10 => exact exec_of_op (·.budgetCompute vhu) rfl (by simp [Mod.budgetCompute, Nat.not_lt.2 h, ht, hf, hp])
  case refine_11 => exact exec_of_op (·.debounceStart 1) rfl (Mod.debounceStart_idle hd he hp ha 1)
  case refine_12 =>
    exact exec_of_op Mod.pwrfail rfl (by simp only [Mod.pwrfail, hpf, hdr, Bool.not_false, Bool.and_self, if_true, Mod.debounceStart_idle hd he hp ha])
  case refine_13 => exact exec_of_op Mod.pwrfail rfl (by simp only [Mod.pwrfail, hpf, Bool.false_and, Bool.false_eq_true, if_false])
  case refine_14 =>
    refine exec_of_op (·.overvoltage mv) (exec_vinOvervoltage h2) ?_
    simp only [Mod.overvoltage, h1, if_true, Mod.debounceStart_idle hd he hp ha]
  case refine_15 =>
    exact exec_of_op (·.overvoltage mv) (exec_vinOvervoltage (by omega)) (if_neg (Nat.not_lt.2 h))
  case refine_16 => exact exec_of_op (·.debounceOver true true) rfl ((Mod.debounceOver_some ht hd true true).trans rfl)
  case refine_17 =>
    exact exec_of_op (·.debounceOver g p) rfl ((Mod.debounceOver_some ht hd g p).trans (by simp only [hgp, Bool.false_eq_true, if_false]))

/-! ### Evacuate -/

/-- A write of the Seed Store leaves the power state. -/
theorem Mod.seedPumpList_pwr (l : List SeedJob) (m : Mod) : (m.seedPumpList l).pwr = m.pwr := by
  induction l generalizing m with
  | nil => rfl
  | cons j t ih =>
    rw [Mod.seedPumpList]
    split
    · exact ih _
    · rfl

theorem Mod.saveDtc_pwr (m : Mod) : m.saveDtc.pwr = m.pwr := by
  unfold Mod.saveDtc Mod.seedWrite Mod.seedPump
  split
  · rfl
  · exact Mod.seedPumpList_pwr _ _

/-- What the power-down leads to does not depend on the DTC's save. -/
theorem Mod.evacDown_saveDtc (m : Mod) (c : Bool) (ev : EvacSt) : (if c then m.saveDtc else m).evacDown ev = m.evacDown ev := by
  cases c
  · rfl
  · rw [if_pos rfl, Mod.evacDown, m.saveDtc_pwr, ← Mod.evacDown]

/-- Settles O27: each step is the branch of its definition that the state of the Evacuate selects. -/
theorem evacuateCommandsAnswer : Obligations.EvacuateCommandsAnswer := by
  intro s
  refine ⟨fun c hc he hp ha => ⟨fun hb => ?_, fun hb => ?_⟩, fun ev hev => ⟨fun _ _ => exec_of_op Mod.evacManifest rfl rfl, fun hst hgo => ?_,
    fun hst hman hab => ?_, fun hst hab => ?_, fun hst hman => ?_, fun hst => ?_, fun h4 h7 hman => ?_, ?_, fun h8 hdn hc ha htr => ?_⟩,
    fun he hdn ha htr => ?_⟩
  case refine_1 =>
    refine exec_of_op (fun m => if c.val = 0 then m else m.evacCommit c) rfl ?_
    simp [hc, Mod.evacCommit, he, hp, ha, hb]
  case refine_2 =>
    refine exec_of_op (fun m => if c.val = 0 then m else m.evacCommit c) rfl ?_
    simp [hc, Mod.evacCommit, he, hp, ha, hb]
  case refine_3 =>
    have hgo' : (!s.m.linkUp || !s.m.twin.recs.any (·.sent) || decide (ev.at_ + 25000 ≤ s.m.time.dtc)) = true := by
      simpa only [Bool.or_eq_true, Bool.not_eq_true', decide_eq_true_eq, or_assoc] using hgo
    exact exec_of_op Mod.evacLinks rfl (by simp only [Mod.evacLinks, hev, hst, hgo', decide_true, Bool.true_or, Bool.and_self, if_true])
  case refine_4 => exact exec_of_op Mod.evacImage rfl (by simp [Mod.evacImage, hev, hst, hman, hab])
  case refine_5 => exact exec_of_op Mod.evacMeta rfl (by simp [Mod.evacMeta, hev, hst, hab])
  case refine_6 => exact exec_of_op Mod.evacMarker rfl (by simp [Mod.evacMarker, hev, hst, hman])
  case refine_7 =>
    have hst' : (decide (ev.step = 8) || (ev.noManifest && decide (ev.step = 7))) = true := by simpa using hst
    exact exec_of_op Mod.evacPower rfl (by simp only [Mod.evacPower, hev, hst', if_true, Mod.evacDown_saveDtc])
  case refine_8 => exact exec_of_op Mod.markerCut rfl (by simp [Mod.markerCut, hev, h4, h7, hman])
  case refine_9 => exact exec_of_op Mod.floorCut rfl (by simp only [Mod.floorCut, hev, Option.isSome_some, if_true])
  case refine_10 => exact exec_of_op Mod.vinReturn rfl (by simp [Mod.vinReturn, hev, h8, hdn, hc, ha, htr])
  case refine_11 => exact exec_of_op Mod.vinReturn rfl (by simp [Mod.vinReturn, he, hdn, ha, htr])

end Sys2Proof.Machine
end

section
/-! Rails, power states and the start (R340–R366, R432–R450). -/
namespace Sys2Proof.Machine

/-! ### AON and the rails -/

theorem Mod.startBegin_time (m : Mod) : m.startBegin.time = m.time := by
  unfold Mod.startBegin
  split
  · rfl
  · exact foldl_keeps Mod.time (fun m k => m.setRail_time k _) _ _

/-- R17: AON leaves reset with the DTC that the stored one gives. -/
theorem Mod.aonRelease_dtc {m : Mod} (hv : m.pwr.vinOn = true) (ha : m.pwr.aonReset = true) (id : Nat) (reads : Bool) :
    (m.aonRelease id reads).time.dtc = resumeDtc (if reads then m.nv.dtc else none) := by
  have hbump : ∀ (l : List Nat) (x : Mod), (l.foldl (fun m _ => m.bump cSeed) x).time = x.time :=
    foldl_keeps Mod.time (fun m _ => m.bump_time cSeed)
  simp only [Mod.aonRelease, hv, ha, Bool.and_self, if_true, hbump, apply_ite Mod.time, Mod.bump_time, ite_self, List.foldl_cons,
    List.foldl_nil, Mod.setRail_time, Mod.startBegin_time]
  cases reads <;> rfl

/-- R344: a rail other than CORE and the LINK rails comes into its window; behind AON's the next one is enabled. -/
theorem Mod.railUp_plain {m : Mod} {k : Nat} (hst : (m.rail k).st = .ramping) (hne : k ≠ 3) (hg : lget railGroup k ≠ 2) : m.railUp k =
    if 3 ≤ k then (m.setRail k (fun r => { r with st := .inWindow, attempts := 0 })).railNext
    else m.setRail k (fun r => { r with st := .inWindow, attempts := 0 }) := by
  simp [Mod.railUp, hst, hne, hg]

/-- R345: after 5 ms an attempt has failed. -/
theorem Mod.railTimeout_due {m : Mod} {k : Nat} (hst : (m.rail k).st = .ramping) (hdue : (m.rail k).since + 5000000 ≤ m.time.dtc) :
    m.railTimeout k =
      if (m.rail k).attempts < 2 then m.setRail k (fun r => { r with st := .retrying, attempts := r.attempts + 1, since := m.time.dtc })
      else if k = 3 then (let x := (m.setRail k (fun r => { r with st := .failed, kind := 5 })).railSnap k 5; { x with pwr := { x.pwr with pstate := 4 } })
      else ((m.setRail k (fun r => { r with st := .failed, kind := 5 })).railSnap k 5).railNext := by
  simp [Mod.railTimeout, hst, hdue]

/-- A fault's snapshot and count leave the Evacuate. -/
theorem Mod.railSnap_per (m : Mod) (k kind : Nat) : (m.railSnap k kind).per = m.per := by
  unfold Mod.railSnap
  dsimp only
  obtain ⟨u, d, e, p, t, o, h⟩ := Mod.tallyWith_kept _ _ _ _ _ _
  rw [h]

theorem Mod.setChans_evac (m : Mod) (l : List (BitVec 16)) : (m.setChans l).per.evac = m.per.evac := by
  unfold Mod.setChans
  split <;> rfl

/-- R347: outside an Evacuate a fault of a rail in its window takes a snapshot, is counted, and has its reaction. -/
theorem Mod.railFaulted_reacts {m : Mod} {k : Nat} (kind : RailKind) (r : List (BitVec 16)) (hst : (m.rail k).st = .inWindow)
    (ha : m.pwr.aonReset = false) (hk : k ≠ 1 ∨ (m.per.testing = false ∧ m.per.recharge = false)) (he : m.per.evac = none) :
    m.railFaulted k kind r = ((((m.setChans r).setRail k (fun r => { r with kind := railKindCode kind })).railSnap k (railKindCode kind)).bump
      (cRail k)).railReaction k (kind = .protection) := by
  have hgo : (!(decide ((m.rail k).st = .inWindow) || decide ((m.rail k).st = .faulted)) || m.pwr.aonReset ||
      (decide (k = 1) && (m.per.testing || m.per.recharge))) = false := by
    rcases hk with hk | ⟨h1, h2⟩
    · simp [hst, ha, hk]
    · simp [hst, ha, h1, h2]
  have hev : ((((m.setChans r).setRail k (fun r => { r with kind := railKindCode kind })).railSnap k (railKindCode kind)).bump
      (cRail k)).per.evac = none := by
    rw [Mod.bump_per, Mod.railSnap_per, Mod.setRail_per, Mod.setChans_evac, he]
  unfold Mod.railFaulted
  dsimp only
  rw [hgo, if_neg Bool.false_ne_true, hev, Option.isSome_none, if_neg Bool.false_ne_true]

/-- Settles O41: AON's DTC by `Mod.aonRelease_dtc`, rails by `Mod.railUp_plain`, `Mod.railTimeout_due` and `Mod.railFaulted_reacts`, and
the rest by the branches of their definitions. -/
theorem railCommandsAnswer : Obligations.RailCommandsAnswer := by
  intro s k
  refine ⟨fun mv ha h => ?_, fun mv h => ?_, fun id reads hv ha => ⟨exec_of_op (·.aonRelease id reads) rfl rfl, Mod.aonRelease_dtc hv ha id reads⟩,
    fun id reads hv => ?_, exec_of_op Mod.powerLost rfl rfl, fun hst => ⟨fun h3 hne hg => ?_, fun h3 hg => ?_, fun hdue => ⟨fun ha => ?_, fun ha hne => ?_⟩,
    fun hdue => ?_⟩, fun hst => ⟨?_, ?_⟩, fun hf hmore => ?_, fun hf => ?_, fun kind r hst ha hk he => ?_, fun hst hdue => ?_, fun a ha => ?_⟩
  case refine_1 => exact exec_of_op (·.vinUp mv) rfl (by simp [Mod.vinUp, ha, h])
  case refine_2 => exact exec_of_op (·.vinUp mv) rfl (by simp [Mod.vinUp, Nat.not_lt.2 h])
  case refine_3 => exact exec_of_op (·.aonRelease id reads) rfl (by simp [Mod.aonRelease, hv])
  case refine_4 => exact exec_of_op (·.railUp k) rfl ((Mod.railUp_plain hst hne hg).trans (if_pos h3))
  case refine_5 => exact exec_of_op (·.railUp k) rfl ((Mod.railUp_plain hst (Nat.ne_of_lt h3) hg).trans (if_neg (Nat.not_le.2 h3)))
  case refine_6 => exact exec_of_op (·.railTimeout k) rfl ((Mod.railTimeout_due hst hdue).trans (if_pos ha))
  case refine_7 =>
    exact exec_of_op (·.railTimeout k) rfl ((Mod.railTimeout_due hst hdue).trans ((if_neg (Nat.not_lt.2 ha)).trans (if_neg hne)))
  case refine_8 => exact exec_of_op (·.railTimeout k) rfl (by simp [Mod.railTimeout, Nat.not_le.2 hdue])
  case refine_9 => exact exec_of_op (·.railUp k) rfl (if_neg hst)
  case refine_10 => exact exec_of_op (·.railTimeout k) rfl (by simp [Mod.railTimeout, hst])
  case refine_11 =>
    have hnone : s.m.railDown.pwr.falling.isNone = false := by simp [Option.isNone_eq_false_iff, hmore]
    exact exec_of_op (·.railFell k) rfl (by simp only [Mod.railFell, hf, if_true, hnone, Bool.false_and, Bool.false_eq_true, if_false])
  case refine_12 => exact exec_of_op (·.railFell k) rfl (if_neg hf)
  case refine_13 => exact exec_of_op (·.railFaulted k kind r) rfl (Mod.railFaulted_reacts kind r hst ha hk he)
  case refine_14 => exact exec_of_op (·.railRetry k) rfl (by simp [Mod.railRetry, hst, hdue])
  case refine_15 =>
    exact exec_of_op (fun m => if m.pwr.aonReset then m else { m with path := { m.path with i3cAddr := some a } }) rfl
      (by simp only [ha, Bool.false_eq_true, if_false])

end Sys2Proof.Machine
end

section
/-! Power states, image, training (R351–R366, R433–R438) and the TAP (R368–R376). -/
namespace Sys2Proof.Machine

/-! ### Training (R435) -/

/-- Training of a hopper channel keeps which channels have failed. -/
theorem Mod.setHch_trained_failed {m : Mod} (c d : Nat) (h : (m.hch d).failed = false) :
    ((m.setHch c (fun h => { h with trained := true })).hch d).failed = false := by
  by_cases hcd : d = c
  · subst hcd
    rw [Mod.setHch_hch_ne _ _ _ (fun hx => by have ht := congrArg HopCh.trained hx; cases ht)]
    exact h
  · rw [Mod.setHch_hch_other _ _ _ _ hcd]
    exact h

/-- With no channel in error every hopper channel trains. -/
theorem trainHopper_clean (l : List Nat) {m : Mod} (h : ∀ c : Nat, (m.hch c).failed = false) :
    (l.foldl (fun m c => if (m.hch c).failed then
        m.setHch c (fun h => { h with trained := false, failed := true, fenced := true, out := true })
      else m.setHch c (fun h => { h with trained := true })) m) = l.foldl (fun m c => m.setHch c (fun h => { h with trained := true })) m ∧
    ∀ c : Nat, ((l.foldl (fun m c => m.setHch c (fun h => { h with trained := true })) m).hch c).failed = false := by
  induction l generalizing m with
  | nil => exact ⟨rfl, h⟩
  | cons c l ih =>
    have hstep := ih (m := m.setHch c (fun h => { h with trained := true })) fun d => Mod.setHch_trained_failed c d (h d)
    simp only [List.foldl_cons, h, Bool.false_eq_true, if_false]
    exact hstep

/-- R435: with no channel in error training is complete. -/
theorem Mod.training_clean {m : Mod} (hp : m.pwr.phase = 2) (ht : m.pwr.trainOk = false) (h : ∀ c : Nat, (m.hch c).failed = false) :
    m.training [] [] =
      (let x := (List.range 54).foldl (fun m c => m.setHch c (fun h => { h with trained := true })) m
       let x := (List.range 20).foldl (fun m c => m.setMch c (fun h => { h with trained := true })) x
       Mod.phase3 { x with pwr := { x.pwr with trainOk := true } }) := by
  unfold Mod.training
  generalize List.range 54 = l
  generalize List.range 20 = k
  obtain ⟨hfold, hfail⟩ := trainHopper_clean l h
  have hmed : ∀ x : Mod, (k.foldl (fun m c => m.setMch c (fun h => { h with trained := true })) x).hop = x.hop :=
    foldl_keeps Mod.hop (fun m c => m.setMch_hop c _) k
  have hfail' : ∀ c : Nat, ((k.foldl (fun m c => m.setMch c (fun h => { h with trained := true }))
      (l.foldl (fun m c => m.setHch c (fun h => { h with trained := true })) m)).hch c).failed = false := fun c => by
    rw [Mod.hch, hmed]
    exact hfail c
  simp only [hp, ht, bne_self_eq_false, Bool.or_self, Bool.false_eq_true, if_false, List.contains_nil, Bool.false_or, hfold, hfail',
    List.countP_false]
  rfl

/-! ### Power states -/

/-- Settles O42: training by `Mod.training_clean`, the image by the first slot of `slotOrder`, the rest by the branches of their definitions. -/
theorem powerStateCommandsAnswer : Obligations.PowerStateCommandsAnswer := by
  intro s
  refine ⟨fun hp hen hb hdue => ?_, fun hen => ?_, fun hp hw => ?_, fun raws devs dies inlet volts pin => ⟨fun _ => exec_of_op
    (·.thUpdate raws devs dies inlet volts pin) rfl rfl, fun ha => ?_⟩, fun t ho htr hen hn hc hdue => ?_, fun htr => ?_,
    fun hl hp hn hb a b => ?_, fun hl a b c => ?_, fun hp ht h => exec_of_op (·.training [] []) rfl (Mod.training_clean hp ht h), fun hp a b => ?_⟩
  case refine_1 => exact exec_of_op Mod.doze rfl (by simp [Mod.doze, Mod.dozeDue, hp, hen, hb, hdue])
  case refine_2 => exact exec_of_op Mod.doze rfl (by simp [Mod.doze, hen])
  case refine_3 => exact exec_of_op Mod.wake rfl (by simp [Mod.wake, hp, hw])
  case refine_4 => exact exec_of_op (·.thUpdate raws devs dies inlet volts pin) rfl (if_pos ha)
  case refine_5 => exact exec_of_op Mod.thRestart rfl (by simp [Mod.thRestart, ho, htr, hen, hn, hc, hdue])
  case refine_6 => exact exec_of_op Mod.thRestart rfl (by simp [Mod.thRestart, htr])
  case refine_7 =>
    have hgo : (s.m.pwr.imgLoaded || !(decide (s.m.pwr.phase = 1) || decide (s.m.pwr.phase = 2))) = false := by
      rcases hp with hp | hp <;> simp [hl, hp]
    have hslot : (slotOrder 1).find? (fun n => (([a, true, b] : List Bool)[n]?).getD false && !s.m.nv2.fwBad.contains n) = some 1 := by
      rw [show slotOrder 1 = [1, 0, 2] from by decide, List.find?_cons, hb]
      rfl
    refine exec_of_op (·.imageLoad [a, true, b]) rfl ?_
    simp only [Mod.imageLoad, hgo, Bool.false_eq_true, if_false, hn, hslot, if_true]
  case refine_8 => exact exec_of_op (·.imageLoad [a, b, c]) rfl (by simp only [Mod.imageLoad, hl, Bool.true_or, if_true])
  case refine_9 =>
    exact exec_of_op (·.training (a.map (fun x => x.val)) (b.map (fun x => x.val))) rfl (by simp only [Mod.training, bne_iff_ne.2 hp, Bool.true_or, if_true])

/-! ### The TAP -/

/-- The module with instruction `c` in the TAP's instruction register. -/
def Mod.inForce (m : Mod) (c : Nat) : Mod := { m with dbg := { m.dbg with ir := c } }

section
variable {m : Mod} (ha : m.pwr.aonReset = false) (hw : m.pwr.startWait = false)
include ha hw

/-- R368: a non-intrusive instruction is in force. -/
theorem Mod.loadIr_free {c : Nat} (hc : c ≠ 0 ∧ c ≠ 4 ∧ c ≠ 5) : m.loadIr c = m.inForce c := by
  obtain ⟨h0, h4, h5⟩ := hc
  simp [Mod.loadIr, ha, hw, DbgSt.intrusive, h0, h4, h5, Mod.inForce]

/-- R376: an intrusive one is in force in M4 and in PHASE 0, and loads BYPASS otherwise. -/
theorem Mod.loadIr_intrusive {c : Nat} (hc : c = 0 ∨ c = 4 ∨ c = 5) :
    m.loadIr c = if m.tapOpen then m.inForce c else m.inForce 0x3F := by
  have hi : DbgSt.intrusive { m.dbg with ir := c } = true := by
    rcases hc with rfl | rfl | rfl <;> rfl
  have hto : Mod.tapOpen { m with dbg := { m.dbg with ir := c } } = m.tapOpen := rfl
  cases ht : m.tapOpen with
  | true => simp [Mod.loadIr, ha, hw, hi, hto, ht, Mod.inForce]
  | false => simp [Mod.loadIr, ha, hw, hi, hto, ht, Mod.inForce]

end

/-- Settles O43: instructions by `Mod.loadIr_free` and `Mod.loadIr_intrusive`; what each then shifts out is its own definition. -/
theorem tapCommandsAnswer : Obligations.TapCommandsAnswer := by
  intro s ha hw
  have hfree : ∀ {c : Nat}, c ≠ 0 ∧ c ≠ 4 ∧ c ≠ 5 → s.m.loadIr c = s.m.inForce c := fun hc => Mod.loadIr_free ha hw hc
  have htdo : ∀ (c v : Nat), (s.m.inForce c).tdo v = (s.m.inForce c).emit (.tdo v) := fun c v => by
    simp [Mod.tdo, Mod.inForce, ha]
  have hacc : s.m.loadIr 0x21 = s.m.inForce 0x21 := hfree (by decide)
  refine ⟨?_, ?_, fun v => ?_, ?_, fun ho => ⟨?_, ?_, ?_⟩, fun ho => ⟨?_, ?_, ?_⟩, fun req => ?_, fun w v => ?_, fun w v st hr => ?_,
    fun w v hr hre => ?_, ?_⟩
  case refine_1 => exact exec_of_op (fun m => (m.loadIr 1).tdo idWord) rfl (by rw [hfree (by decide)]; exact htdo _ _)
  case refine_2 => exact exec_of_op (·.loadIr 0x3F) rfl (hfree (by decide))
  case refine_3 =>
    refine exec_of_op (fun m => if m.pwr.aonReset then m else let m := m.loadIr 3; { m with dbg := { m.dbg with bsr := v } }) rfl ?_
    simp only [ha, Bool.false_eq_true, if_false, hfree (c := 3) (by decide)]
    rfl
  case refine_4 =>
    refine exec_of_op (fun m => (m.loadIr 2).scanPins 2 true) rfl ?_
    rw [hfree (by decide)]
    simp [Mod.scanPins, Mod.inForce, ha]
  case refine_5 => exact exec_of_op (·.loadIr 4) rfl (by rw [Mod.loadIr_intrusive ha hw (by decide), if_pos ho]; rfl)
  case refine_6 => exact exec_of_op (·.loadIr 5) rfl (by rw [Mod.loadIr_intrusive ha hw (by decide), if_pos ho]; rfl)
  case refine_7 =>
    refine exec_of_op (fun m => (m.loadIr 0).scanPins 0 false) rfl ?_
    rw [Mod.loadIr_intrusive ha hw (by decide), if_pos ho]
    simp [Mod.scanPins, Mod.inForce, ha]
  case refine_8 => exact exec_of_op (·.loadIr 4) rfl (by rw [Mod.loadIr_intrusive ha hw (by decide), ho]; rfl)
  case refine_9 => exact exec_of_op (·.loadIr 5) rfl (by rw [Mod.loadIr_intrusive ha hw (by decide), ho]; rfl)
  case refine_10 =>
    refine exec_of_op (fun m => (m.loadIr 0).scanPins 0 false) rfl ?_
    rw [Mod.loadIr_intrusive ha hw (by decide), ho]
    simp [Mod.scanPins, Mod.inForce, ha]
  case refine_11 =>
    refine exec_of_op (·.setReq_ req) rfl ?_
    simp only [Mod.setReq_, ha, Bool.false_eq_true, if_false, hfree (c := 0x20) (by decide), htdo]
    rfl
  case refine_12 =>
    refine exec_of_op (·.dbgAccess 0 (4 * w.toNat) v) rfl ?_
    simp only [Mod.dbgAccess, ha, Bool.false_eq_true, if_false, hacc, htdo]
    rfl
  case refine_13 =>
    refine exec_of_op (·.dbgAccess 1 (4 * w.toNat) v) rfl ?_
    have hr' : ((s.m.inForce 0x21).emit (.tdo s.m.accWord)).accRefused false (4 * w.toNat) = some st := hr
    simp only [Mod.dbgAccess, ha, Bool.false_eq_true, if_false, hacc, htdo, hr', if_true]
    rfl
  case refine_14 =>
    refine exec_of_op (·.dbgAccess 1 (4 * w.toNat) v) rfl ?_
    have hr' : ((s.m.inForce 0x21).emit (.tdo s.m.accWord)).accRefused false (4 * w.toNat) = none := hr
    have hre' : ((s.m.inForce 0x21).emit (.tdo s.m.accWord)).reaches (4 * w.toNat) = true := hre
    simp only [Mod.dbgAccess, ha, Bool.false_eq_true, if_false, hacc, htdo, hr', hre', if_true, Bool.not_true]
    rfl
  case refine_15 => exact exec_of_op Mod.trst rfl (by simp only [Mod.trst, ha, Bool.false_eq_true, if_false])

end Sys2Proof.Machine
end

section
/-! The pair: mirror records, the stream and its liveness, the handshake, region messages (R215–R235). -/
namespace Sys2Proof.Machine

/-! ### Mirror records (R222, R223, R226, R232) -/

section
variable {m : Mod} {r lineNo msn gen : Nat} {ct : Line} (hp : m.twin.pair = .paired) (ht : m.twin.trained = true)
include hp ht

/-- A record that does not continue the stream breaks the pair. -/
theorem Mod.lineRecord_gap (h : m.msnNext msn = false) (poison side rs : Bool) :
    m.lineRecord r lineNo msn gen ct poison side rs = m.breakPair 4 := by
  simp [Mod.lineRecord, hp, ht, h]

theorem Mod.partRecord_gap {mask : Dword} (h : m.msnNext msn = false) (poison : Bool) :
    m.partRecord r lineNo msn mask ct poison = m.breakPair 4 := by
  simp [Mod.partRecord, hp, ht, h]

/-- A record for a line that this module does not hold is acknowledged without effect. -/
theorem Mod.lineRecord_notHeld (hn : m.msnNext msn = true) (hh : (m.twr r).held = false) (poison side : Bool) :
    m.lineRecord r lineNo msn gen ct poison side false = m.applied msn := by
  simp [Mod.lineRecord, hp, ht, hn, hh]

theorem Mod.partRecord_notHeld {mask : Dword} (hn : m.msnNext msn = true) (hh : (m.twr r).held = false) (poison : Bool) :
    m.partRecord r lineNo msn mask ct poison = m.applied msn := by
  simp [Mod.partRecord, hp, ht, hn, hh]

section
variable (hn : m.msnNext msn = true) (hh : (m.twr r).held = true) (hr : m.regionOf (granOfLine lineNo) = some r)
include hn hh hr

/-- A live line of a held region is stored as received, or waits for room. -/
theorem Mod.lineRecord_live (poison : Bool) : m.lineRecord r lineNo msn gen ct poison false false =
    (((m.genSeen r lineNo gen).storeLine r lineNo ct poison).map (fun x => (x.openMark r lineNo).applied msn)).getD (m.genSeen r lineNo gen) := by
  simp only [Mod.lineRecord, hp, ht, hn, hh, hr, bne_self_eq_false, Bool.not_true, Bool.or_self, Bool.false_eq_true, if_false, if_true,
    decide_true, Bool.and_self]
  cases (m.genSeen r lineNo gen).storeLine r lineNo ct poison <;> rfl

/-- The tags of a sidecar line go to its group's lines. -/
theorem Mod.lineRecord_sidecar (poison rs : Bool) : m.lineRecord r lineNo msn gen ct poison true rs =
    ((m.genSeen r lineNo gen).putTags lineNo ct).applied msn := by
  simp [Mod.lineRecord, hp, ht, hn, hh, hr]

/-- A resync line of a page that is not open is acknowledged. -/
theorem Mod.lineRecord_closed (poison : Bool)
    (hf : (m.genSeen r lineNo gen).twin.rsopen.find? (fun e => e.1 = lineNo / 64) = none) :
    m.lineRecord r lineNo msn gen ct poison false true = (m.genSeen r lineNo gen).applied msn := by
  simp only [Mod.lineRecord, hp, ht, hn, hh, hr, hf, bne_self_eq_false, Bool.not_true, Bool.or_self, Bool.false_eq_true, if_false, if_true,
    decide_true, Bool.and_self]

/-- A resync line of an open page is stored while it has not come live since. -/
theorem Mod.lineRecord_open {e : Nat × Dword × Nat} (poison : Bool)
    (hf : (m.genSeen r lineNo gen).twin.rsopen.find? (fun e => e.1 = lineNo / 64) = some e) :
    m.lineRecord r lineNo msn gen ct poison false true =
      if e.2.1.getLsbD (lineNo % 64) then ((m.genSeen r lineNo gen).rsCount (lineNo / 64)).applied msn
      else (((m.genSeen r lineNo gen).storeLine r lineNo ct poison).map (fun x => (x.rsCount (lineNo / 64)).applied msn)).getD
        (m.genSeen r lineNo gen) := by
  simp only [Mod.lineRecord, hp, ht, hn, hh, hr, hf, bne_self_eq_false, Bool.not_true, Bool.or_self, Bool.false_eq_true, if_false, if_true,
    decide_true, Bool.and_self]
  cases (m.genSeen r lineNo gen).storeLine r lineNo ct poison <;> rfl

/-- A partial record joins the merge entry of its line. -/
theorem Mod.partRecord_merge {mask : Dword} {e : Mbe} (hps : m.poisoned lineNo = false)
    (hf : m.hop.merge.find? (fun e => e.lineNo = lineNo) = some e) : m.partRecord r lineNo msn mask ct false =
      ((m.modMerge lineNo (fun e => { e with mask := e.mask ||| mask, data := overlay mask e.data ct, acked := true, msn })).openMark r
        lineNo).applied msn := by
  simp only [Mod.partRecord, hp, ht, hn, hh, hr, hps, hf, bne_self_eq_false, Bool.not_true, Bool.or_self, Bool.false_eq_true, if_false, if_true,
    decide_true, Bool.and_self]

end
end

/-- Settles O29: each clause is the lemma of its case of LINE or PART. -/
theorem mirrorRecordCommandsAnswer : Obligations.MirrorRecordCommandsAnswer := by
  intro s r lineNo msn gen ct poison sync hp ht
  have hline : ∀ {side rs : Bool} {p : Bool} {m' : Mod}, s.m.lineRecord r lineNo msn gen ct p side rs = m' →
      exec (.line r lineNo msn gen ct p side sync rs) s = answers s m' := fun h => exec_of_op (·.lineRecord r lineNo msn gen ct _ _ _) rfl h
  have hpart : ∀ {mask : Dword} {p : Bool} {m' : Mod}, s.m.partRecord r lineNo msn mask ct p = m' →
      exec (.part r lineNo msn gen mask ct p) s = answers s m' := fun h => exec_of_op (·.partRecord r lineNo msn _ ct _) rfl h
  refine ⟨fun side rs hn => hline (Mod.lineRecord_gap hp ht hn _ _ _), fun m' hn hh hr hst => hline ?_, fun hn hh hr hst => hline ?_,
    fun hn hh hr => ⟨fun hf => hline (Mod.lineRecord_closed hp ht hn hh hr poison hf), fun e hf => ⟨fun hb => hline ?_, fun m' hb hst => hline ?_⟩⟩,
    fun rs hn hh hr => hline (Mod.lineRecord_sidecar hp ht hn hh hr poison rs), fun hn hh => hline (Mod.lineRecord_notHeld hp ht hn hh poison false),
    fun mask hn => hpart (Mod.partRecord_gap hp ht hn _), fun mask e hn hh hr hps hf => hpart (Mod.partRecord_merge hp ht hn hh hr hps hf),
    fun mask hn hh => hpart (Mod.partRecord_notHeld hp ht hn hh _)⟩
  · rw [Mod.lineRecord_live hp ht hn hh hr, hst]; rfl
  · rw [Mod.lineRecord_live hp ht hn hh hr, hst]; rfl
  · rw [Mod.lineRecord_open hp ht hn hh hr poison hf, if_pos hb]
  · rw [Mod.lineRecord_open hp ht hn hh hr poison hf, hb, hst]; rfl

/-! ### The stream and its liveness (R218–R228) -/

/-- R222: an acknowledgement that covers records. -/
theorem Mod.ackFrame_covers {m : Mod} {n : Nat} (hp : m.twin.pair = .paired) (h1 : m.twin.ackmsn < n) (h2 : n ≤ m.twin.txmsn) :
    m.ackFrame n =
      (let x : Mod := { m with twin := { m.twin with ackmsn := n, lagPeak := max m.twin.lagPeak m.lagNow, recs := m.twin.recs.filter (fun r => n < r.msn) } }
       (x.releaseSync (· ≤ n)).lineCovered (· ≤ n)) := by
  simp [Mod.ackFrame, hp, h1, h2]

theorem Mod.ackFrame_none {m : Mod} {n : Nat} (h : n ≤ m.twin.ackmsn ∨ m.twin.txmsn < n) : m.ackFrame n = m := by
  rcases h with h | h
  · simp [Mod.ackFrame, Nat.not_lt.2 h]
  · simp [Mod.ackFrame, Nat.not_le.2 h]

/-- R218: a good flit's acknowledgement frees the replay buffer as far as it covers flits that wait. -/
theorem Mod.flitGood_acks {m : Mod} {seq ack credits : Nat} (ht : m.twin.trained = true)
    (h : (m.tx.flitTx + 65535 - ack) % 65536 ≤ m.tx.flitTx - m.tx.flitAck) : m.flitGood seq ack credits =
      (let left := (m.tx.flitTx + 65535 - ack) % 65536
       Mod.twinPump (Mod.flitRoom { m with
         tx := { m.tx with lastGood := seq, flitAck := m.tx.flitTx - left, goodAt := m.time.dtc, buf := m.tx.buf.drop (m.tx.buf.length - left) }
         twin := { m.twin with credits := m.twin.credits + credits } })) := by
  simp only [Mod.flitGood, ht, if_true, if_pos h]

/-- R218: the link has trained. -/
theorem Mod.twinTrain_ok {m : Mod} (he : bit (m.w 0 0x80004) 0 = true) (hl : m.linksOn = true) (ht : m.twin.trained = false) :
    m.twinTrain true =
      (let x : Mod := { m with
         twin := { m.twin with trained := true, helloed := false, credits := 0 }
         tx := { m.tx with flitTx := 0, flitAck := 0, granted := 0, buf := [], outq := [], goodAt := m.time.dtc } }
       if m.twin.pair = .attaching || m.nv.paired.isSome then x.sendHello else x) := by
  simp only [Mod.twinTrain, he, hl, ht, Bool.not_false, Bool.and_self, if_true]

/-- R221: the strobe drives the side, and finds a sideband wired to a module of the same side. -/
theorem Mod.strobe_some {m : Mod} (hp : m.twin.pair = .attaching) (hb : bit (m.w 0 0x80004) 1 = true) (v : Nat) :
    m.strobe (some v) =
      (let x := Mod.emit { m with tx := { m.tx with strobeSeen := some v } } (.strobe m.twin.side)
       if v = m.twin.side then x.pairRefuse 1 else x) := by
  have hw : Mod.strobeWrong (Mod.emit { m with tx := { m.tx with strobeSeen := some v } } (.strobe m.twin.side)) = decide (v = m.twin.side) := by
    have hb' : bit (Mod.w (Mod.emit { m with tx := { m.tx with strobeSeen := some v } } (.strobe m.twin.side)) 0 0x80004) 1 = true := hb
    rw [Mod.strobeWrong, hb', Bool.true_and]
    rfl
  have hgo : (decide (m.twin.pair = .attaching) && bit (m.w 0 0x80004) 1) = true := by simp [hp, hb]
  have hseen : (some v).orElse (fun _ => m.tx.strobeSeen) = some v := rfl
  simp only [Mod.strobe, hgo, if_true, hseen, hw, decide_eq_true_eq]

/-- Settles O30: the stream's frames by their lemmas above, liveness by the branches of the definitions. -/
theorem twinStreamAndLivenessCommandsAnswer : Obligations.TwinStreamAndLivenessCommandsAnswer := by
  refine ⟨fun s => ⟨fun n hp h1 h2 => ?_, fun n h => ?_, fun ht => ⟨fun st e msn dtc h => ?_, fun st e msn dtc hp he => ?_, ?_, fun seq => ?_,
    fun seq => ?_, fun seq ack credits h => ?_⟩⟩, fun s => ⟨fun he hp ha hph => ?_, fun wide ha => ?_, fun hl hdue => ?_, fun ht hdue => ?_,
    fun h => ?_, fun h => ?_, exec_of_op (fun m => m) rfl rfl, fun ht => ?_, fun he hl ht => ⟨fun hp hn => ?_, fun hp => ?_, fun hp => ?_⟩,
    fun v hp hb => ⟨fun hv => ?_, fun hv => ?_⟩⟩⟩
  case refine_1 => exact exec_of_op (·.ackFrame n) rfl (Mod.ackFrame_covers hp h1 h2)
  case refine_2 => exact exec_of_op (·.ackFrame n) rfl (Mod.ackFrame_none h)
  case refine_3 =>
    refine exec_of_op (fun m => if m.twin.trained then m.epochCheck e else m) rfl ?_
    rcases h with h | h <;> simp [ht, Mod.epochCheck, h]
  case refine_4 => exact exec_of_op (fun m => if m.twin.trained then m.epochCheck e else m) rfl (by simp [ht, Mod.epochCheck, hp, he])
  case refine_5 => exact exec_of_op (fun m => if m.twin.trained then m.hbFrame else m) rfl (if_pos ht)
  case refine_6 => exact exec_of_op (·.nakFrame seq.toNat) rfl (if_pos ht)
  case refine_7 => exact exec_of_op Mod.crcError rfl (if_pos ht)
  case refine_8 => exact exec_of_op (·.flitGood seq.toNat ack.toNat credits) rfl (Mod.flitGood_acks ht h)
  case refine_9 => exact exec_of_op Mod.hbPulse rfl (by simp [Mod.hbPulse, he, hp, ha, hph])
  case refine_10 => exact exec_of_op (·.sideEdge wide) rfl (by simp [Mod.sideEdge, ha])
  case refine_11 => exact exec_of_op Mod.sideSilent rfl (by simp [Mod.sideSilent, hl, hdue])
  case refine_12 => exact exec_of_op Mod.twinSilent rfl (by simp [Mod.twinSilent, ht, hdue])
  case refine_13 => exact exec_of_op Mod.lagStop rfl (if_pos h)
  case refine_14 => exact exec_of_op Mod.lagStop rfl (if_neg (Nat.not_le.2 h))
  case refine_15 => exact exec_of_op Mod.twinDown rfl (if_pos ht)
  case refine_16 => exact exec_of_op (·.twinTrain true) rfl ((Mod.twinTrain_ok he hl ht).trans (if_neg (by simp [hp, hn])))
  case refine_17 => exact exec_of_op (·.twinTrain true) rfl ((Mod.twinTrain_ok he hl ht).trans (if_pos (by simp [hp])))
  case refine_18 => exact exec_of_op (·.twinTrain false) rfl (by simp [Mod.twinTrain, he, hl, ht, hp])
  case refine_19 => exact exec_of_op (·.strobe (some v.val)) rfl ((Mod.strobe_some hp hb v).trans (if_pos hv))
  case refine_20 => exact exec_of_op (·.strobe (some v.val)) rfl ((Mod.strobe_some hp hb v).trans (if_neg hv))

/-! ### The handshake and the region messages (R217, R226, R230–R235) -/

section
variable {m : Mod} (ht : m.twin.trained = true) (e : Nat) (p : Bool) (id pop : Dword)
include ht

theorem Mod.hello_attaching (hp : m.twin.pair = .attaching) :
    m.hello id e p pop = Mod.helloAttach { m with twin := { m.twin with peer := id } } id e :=
  (if_pos ht).trans (if_pos hp)

/-- R228: at a paired module HELLO only checks the epoch. -/
theorem Mod.hello_paired (hp : m.twin.pair = .paired) (he : e ≠ m.epochNow) :
    m.hello id e p pop = Mod.breakPair { m with twin := { m.twin with peer := id } } 6 := by
  have hna : m.twin.pair ≠ .attaching := by rw [hp]; decide
  exact (if_pos ht).trans ((if_neg hna).trans ((if_pos hp).trans (if_neg he)))

end

/-- An attach refuses a module of another identity. -/
theorem Mod.helloAttach_other {m : Mod} {id : Dword} (e : Nat) (hx : m.expectId ≠ id) : m.helloAttach id e = m.pairRefuse 3 :=
  if_pos (bne_iff_ne.2 hx)

/-- HELLO in an attach whose sideband is not checked, at side 1: nothing goes out beyond the first HELLO. -/
theorem Mod.helloAttach_side1 {m : Mod} {id : Dword} (e : Nat) (hx : m.expectId = id) (hh : m.twin.helloed = true) (hs : m.sideBy id = 1)
    (hb : bit (m.w 0 0x80004) 1 = false) : m.helloAttach id e = { m with twin := { m.twin with side := 1 } } := by
  have hw : Mod.strobeWrong { m with twin := { m.twin with helloed := true, side := 1 } } = false := by
    have hb' : bit (Mod.w { m with twin := { m.twin with helloed := true, side := 1 } } 0 0x80004) 1 = false := hb
    rw [Mod.strobeWrong, hb', Bool.false_and]
  unfold Mod.helloAttach
  simp only [hx, bne_self_eq_false, Bool.false_eq_true, if_false, hh, hs, Bool.not_true, hw]
  simp only [Nat.one_ne_zero, decide_false, Bool.false_and, Bool.false_eq_true, if_false]

/-- Settles O31: each message's branch in the state that waits for it. -/
theorem handshakeCommandsAnswer : Obligations.HandshakeCommandsAnswer := by
  intro s e ht
  refine ⟨fun id pop p hp hx => ?_, fun id pop p hp hx hh hs hb => ?_, fun id pop p hp he => ?_, fun hp hl hs => ?_, fun q hp hl hs hq hc => ?_,
    fun hp hl hs hc => ?_, fun hp hl hs he hn => ?_, fun hl hn he => ?_⟩
  case refine_1 =>
    exact exec_of_op (·.hello id e p pop) rfl ((Mod.hello_attaching ht e p id pop hp).trans
      (Mod.helloAttach_other (m := { s.m with twin := { s.m.twin with peer := id } }) e hx))
  case refine_2 =>
    exact exec_of_op (·.hello id e p pop) rfl ((Mod.hello_attaching ht e p id pop hp).trans
      (Mod.helloAttach_side1 (m := { s.m with twin := { s.m.twin with peer := id } }) e hx hh hs hb))
  case refine_3 => exact exec_of_op (·.hello id e p pop) rfl (Mod.hello_paired ht e p id pop hp he)
  case refine_4 =>
    exact exec_of_op (·.propose e) rfl (by simp only [Mod.propose, hp, hl, hs, decide_true, Bool.and_self, if_true])
  case refine_5 => exact exec_of_op (·.propose e) rfl (by simp [Mod.propose, hp, hl, hs, hq, hc, Mod.commitEpoch])
  case refine_6 => exact exec_of_op (·.commitFrame e) rfl (by simp [Mod.commitFrame, hp, hl, hs, hc, Mod.commitEpoch])
  case refine_7 => exact exec_of_op (·.commitFrame e) rfl (by simp [Mod.commitFrame, hp, hl, hs, he, hn])
  case refine_8 => exact exec_of_op (·.detachFrame e) rfl (by simp [Mod.detachFrame, hl, hn, he])

/-- A TAKE of no home region under a higher epoch breaks the pair and takes the epoch over. -/
theorem Mod.takeFrame_higher {m : Mod} {e : Nat} {l : List Nat} (ht : m.twin.trained = true) (hp : m.twin.pair = .paired)
    (he : m.epochNow < e) (hl : l.filter m.homeHere = []) : m.takeFrame e l = (m.breakPair 6).seedWrite (.epoch e m.nv.paired) := by
  have hne : (e != m.epochNow) = true := bne_iff_ne.2 (Nat.ne_of_gt he)
  simp only [Mod.takeFrame, ht, if_true, hl, List.append_nil, he, Mod.epochCheck, hp, hne, decide_true, Bool.and_self]

/-- Settles O32: each message's branch at a joined pair. -/
theorem regionMessageCommandsAnswer : Obligations.RegionMessageCommandsAnswer := by
  intro s r hp ht hl
  refine ⟨fun w0 w1 gen er sg hh => ?_, fun w0 w1 gen er sg hh => ?_, fun e he hh => ?_, fun e he hh => ?_, fun page msn hh hlen had => ?_,
    fun page hh hst => ?_, fun page hh => ?_, fun gen ct => ⟨fun hh => ?_, fun hh => ?_⟩, fun pages hh => ?_⟩
  case refine_1 =>
    exact exec_of_op (·.regcfgFrame { region := r, w0, w1, gen, erase := er, seamGen := sg }) rfl (by simp [Mod.regcfgFrame, hl, hp, hh])
  case refine_2 =>
    exact exec_of_op (·.regcfgFrame { region := r, w0, w1, gen, erase := er, seamGen := sg }) rfl (by simp [Mod.regcfgFrame, hl, hp, hh])
  case refine_3 =>
    refine exec_of_op (·.takeFrame e [r.val]) rfl ?_
    have he' : ¬ Mod.epochNow { s.m with tx := { s.m.tx with takeNext := s.m.tx.takeNext ++ [r.val] } } < e := Nat.not_lt.2 he
    simp only [Mod.takeFrame, ht, if_true, List.filter_cons, hh, List.filter_nil, if_neg he']
  case refine_4 => exact exec_of_op (·.takeFrame e [r.val]) rfl (Mod.takeFrame_higher ht hp he (by simp [hh]))
  case refine_5 => exact exec_of_op (·.rsOpen r page msn) rfl (by simp [Mod.rsOpen, hp, ht, hh, hlen, had])
  case refine_6 => exact exec_of_op (·.pullFrame r page) rfl (by simp [Mod.pullFrame, hp, hl, hh, hst])
  case refine_7 => exact exec_of_op (·.pullFrame r page) rfl (by simp [Mod.pullFrame, hh])
  case refine_8 => exact exec_of_op (·.keyCheck r gen ct) rfl (by simp only [Mod.keyCheck, hl, if_true, hh, Bool.false_eq_true, if_false])
  case refine_9 => exact exec_of_op (·.keyCheck r gen ct) rfl (by simp only [Mod.keyCheck, hl, if_true, hh])
  case refine_10 => exact exec_of_op (·.bitmapFrame r pages) rfl (by simp [Mod.bitmapFrame, ht, hh])

end Sys2Proof.Machine
end

section
/-!
Commands on the mailboxes and on the management port (R53–R68, R291, R312, R436, R450). A mailbox whose link is up runs a command that it
offers once its time has come, and otherwise answers with a return code; what is left of each obligation is what its command does.
-/

namespace Sys2Proof.Machine

/-! ### When a command runs -/

section
variable {c : Instr} {s : State} {b : Mbox} {o : Mod → Bool} {w : When} {f : Mod → Mod}

/-- A command that the mailbox offers, and whose time has come, does its own effect. -/
theorem exec_mbox (hc : exec c s = run s (fun x => x.mbox b (o x) w f)) (hup : s.m.mboxUp b = true) (ho : o s.m = true)
    (hb : s.m.mboxBusy w = false) {m' : Mod} (hf : f s.m = m') : exec c s = answers s m' :=
  exec_of_op (fun x => x.mbox b (o x) w f) hc (by simp [Mod.mbox, hup, ho, hb, hf])

/-- A command that the mailbox does not offer returns Unsupported. -/
theorem exec_mbox_unsupported (hc : exec c s = run s (fun x => x.mbox b (o x) w f)) (hup : s.m.mboxUp b = true) (ho : o s.m = false) :
    exec c s = answers s (s.m.emit (.mailbox b 3 [])) :=
  exec_of_op (fun x => x.mbox b (o x) w f) hc (by simp [Mod.mbox, hup, ho, Mod.reply])

/-- A command before its time returns Busy. -/
theorem exec_mbox_busy (hc : exec c s = run s (fun x => x.mbox b (o x) w f)) (hup : s.m.mboxUp b = true) (ho : o s.m = true)
    (hb : s.m.mboxBusy w = true) : exec c s = answers s (s.m.emit (.mailbox b 6 [])) :=
  exec_of_op (fun x => x.mbox b (o x) w f) hc (by simp [Mod.mbox, hup, ho, hb, Mod.reply])

end

/-! ### Who offers and who may ask -/

theorem Mod.isCtl_fmld {m : Mod} {p : Fin 16} (h : m.path.ctlPort = p) : m.isCtl (.fmld p) = true := by simp [Mod.isCtl, h]

theorem Mod.fmPort_own (m : Mod) (p : Fin 16) : m.fmPort (.fmld p) p = true := by simp [Mod.fmPort]

theorem Mod.mboxUp_mctp {m : Mod} (h : m.pwr.aonReset = false) : m.mboxUp .mctp = true := by simp [Mod.mboxUp, h]

theorem Mod.stallOver_plates {m : Mod} {i : Nat} (h : m.readWaits 1 (4 * i) = false) (b : Mbox) : m.stallOver 1 (.plates b i 1) = true := by
  simp [Mod.stallOver, Mod.barAsleep, h]

/-! ### Lists in payloads (R59) -/

/-- A list that one payload holds is answered in one. -/
theorem Mod.replyParts_one (m : Mod) (b : Mbox) {per : Nat} (hper : 0 < per) (head : Bool → Nat → List Fld) {recs : List (List Fld)}
    (h : recs.length ≤ per) : m.replyParts b per head recs = m.emit (.mailbox b 0 (head false recs.length ++ recs.flatten)) := by
  have hn : max 1 ((recs.length + per - 1) / per) = 1 := by
    have : (recs.length + per - 1) / per < 2 := Nat.div_lt_of_lt_mul (by omega)
    omega
  simp [Mod.replyParts, hn, List.take_of_length_le h, Mod.reply, Nat.min_eq_right h]

/-! ### The obligations -/

/-- Settles O11: a command that is not offered, or comes too early, answers with its return code before anything of its own is done. -/
theorem mailboxRefusalCodesAreReturned : Obligations.MailboxRefusalCodesAreReturned := by
  intro s l b hl hb
  refine ⟨fun ts first count e st t ws u v p ep port n0 n r qv => ⟨?_, ?_, ?_, ?_, ?_, ?_, ?_, ?_, ?_, ?_⟩,
    fun dpa len d first acc y hld => ⟨?_, ?_, ?_, ?_, ?_⟩, fun hr => ⟨?_, ?_, ?_⟩⟩
  iterate 10 exact exec_mbox_unsupported (o := fun _ => false) rfl hl rfl
  · exact exec_mbox_unsupported (o := fun _ => isLd b) rfl hb hld
  · exact exec_mbox_unsupported (o := fun x => isLd b && x.injectOn b) rfl hb (by simp [hld])
  · exact exec_mbox_unsupported (o := fun x => isLd b && x.injectOn b) rfl hb (by simp [hld])
  · exact exec_mbox_unsupported (o := fun _ => isLd b) rfl hb hld
  · exact exec_mbox_unsupported (o := fun _ => isLd b) rfl hb hld
  all_goals exact exec_mbox_busy (o := fun _ => true) rfl hl rfl (by simp [Mod.mboxBusy, hr])

/-- Settles O12: each command of the LD's own mailbox returns its values; of the event records at most 63 fit one payload. -/
theorem informationMailboxCommandsAnswer : Obligations.InformationMailboxCommandsAnswer := by
  refine ⟨fun s l p => ⟨fun hup hr => ⟨?_, fun v => ?_⟩, fun hup => ⟨?_, ?_, fun v off len => ⟨fun hlen => ?_, fun hlen => ?_⟩⟩, fun hup ts => ?_⟩,
    fun s l k hup hr => ⟨?_, fun hs => ?_⟩, fun s l hup hr => ?_⟩
  · exact exec_mbox (o := fun _ => true) rfl hup rfl (Mod.mboxBusy_ready _ hr) rfl
  · exact exec_mbox (o := fun _ => true) rfl hup rfl (Mod.mboxBusy_ready _ hr) rfl
  · exact exec_mbox (o := fun _ => true) rfl hup rfl rfl rfl
  · exact exec_mbox (o := fun _ => true) rfl hup rfl rfl rfl
  · refine exec_mbox (o := fun _ => true) rfl hup rfl rfl ?_
    exact if_neg (Nat.not_lt.mpr hlen)
  · refine exec_mbox (o := fun _ => true) rfl hup rfl rfl ?_
    exact if_pos hlen
  · exact exec_mbox (o := fun _ => true) rfl hup rfl rfl rfl
  · exact exec_mbox (o := fun _ => true) rfl hup rfl (Mod.mboxBusy_ready _ hr) rfl
  · exact exec_mbox (o := fun _ => true) rfl hup rfl (Mod.mboxBusy_ready _ hr) rfl
  · have hready := Mod.mboxBusy_ready s.m hr
    refine ⟨?_, ?_, fun hp => ?_, ?_, fun v => ?_, ?_, fun v => ?_⟩
    case refine_3 => exact exec_mbox (o := fun _ => true) rfl hup rfl (Mod.mboxBusy_phase4 _ hr hp) rfl
    all_goals exact exec_mbox (o := fun _ => true) rfl hup rfl hready rfl

/-- Settles O13: the list is cut into payloads; injection and clearing act on the line that the address names, the clear by the first of
its conditions that bars it. -/
theorem poisonMailboxCommandsAnswer : Obligations.PoisonMailboxCommandsAnswer := by
  intro s l hup hr
  refine ⟨fun hp dpa len => ?_, fun hinj dpa n hn => ?_, fun hinj dpa d => ?_⟩
  case refine_1 =>
    have hparts := exec_mbox (c := .getPoisonList (.ld l) dpa len) (o := fun _ => true) rfl hup rfl (Mod.mboxBusy_phase4 _ hr hp) rfl
    refine ⟨hparts, fun hx => hparts.trans (congrArg (answers s) ?_)⟩
    have hshort : ((s.m.poisonIn l (dpa / 64) len).take 4096).length = (s.m.poisonIn l (dpa / 64) len).length := by
      rw [List.length_take]; omega
    have hone := Mod.replyParts_one s.m (.ld l) (per := 909) (by decide)
      (fun more n => [⟨1, (decide (4096 < (s.m.poisonIn l (dpa / 64) len).length)).toNat + 2 * more.toNat⟩, ⟨2, n⟩])
      (recs := ((s.m.poisonIn l (dpa / 64) len).take 4096).map (fun e => [⟨8, 64 * e.1⟩, ⟨1, if e.2 then 1 else 2⟩]))
      (by rw [List.length_map, hshort]; exact hx)
    refine hone.trans ?_
    rw [List.length_map, hshort, decide_eq_false (Nat.not_lt.mpr (hx.trans (by omega)))]
    rfl
  case refine_2 =>
    have hready := Mod.mboxBusy_ready s.m hr
    have hclear {d m'} : s.m.poisonClear (.ld l) dpa d = m' → exec (.clearPoison (.ld l) dpa d) s = answers s m' := fun hf =>
      exec_mbox (o := fun x => x.injectOn (.ld l)) rfl hup hinj hready hf
    refine ⟨exec_mbox (o := fun x => x.injectOn (.ld l)) rfl hup hinj hready ?_, fun d => ⟨fun why hw => hclear ?_,
      fun hw => ⟨fun hk => hclear ?_, fun k hk => ⟨fun hpl => hclear ?_, fun m' hpl => hclear ?_⟩⟩⟩⟩
    · simp [mboxLd, hn, Mod.reply]
    all_goals simp [Mod.poisonClear, mboxLd, Mod.reply, *]
  case refine_3 =>
    constructor <;> exact exec_mbox_unsupported (o := fun x => x.injectOn (.ld l)) rfl hup hinj

/-- Settles O14: lists in payloads, a response by whether its extent can still be held, releases and offers at the LD's own port. -/
theorem dynamicCapacityCommandsAnswer : Obligations.DynamicCapacityCommandsAnswer := by
  refine ⟨fun s l hup hr => ?_, fun s p lp hup hr hp => ?_⟩
  case refine_1 =>
    have hready := Mod.mboxBusy_ready s.m hr
    refine ⟨exec_mbox (o := fun _ => true) rfl hup rfl hready rfl, fun lp => ?_, fun dpa x hx => ?_, fun dpa hd => ?_⟩
    case refine_1 =>
      have hparts := exec_mbox (c := .getDcExtentList (.ld l) lp) (o := fun _ => true) rfl hup rfl hready rfl
      refine ⟨hparts, fun hlen => hparts.trans (congrArg (answers s) ?_)⟩
      have hone := Mod.replyParts_one s.m (.ld l) (per := 511) (by decide) (fun more n => [⟨1, more.toNat⟩, ⟨2, n⟩])
        (recs := (s.m.extents l).map (fun e => [⟨8, e.dpa * 2 ^ 30⟩, ⟨8, e.count * 2 ^ 30⟩])) (by rwa [List.length_map])
      refine hone.trans ?_
      rw [List.length_map]
      rfl
    case refine_2 =>
      have hanswer {y m'} : s.m.dcAnswer (.ld l) dpa y = m' → exec (.addDcResponse (.ld l) dpa y) s = answers s m' := fun hf =>
        exec_mbox (o := fun _ => true) rfl hup rfl hready hf
      refine ⟨fun hlies => hanswer ?_, fun hlies => hanswer ?_, hanswer ?_⟩
      all_goals simp [Mod.dcAnswer, mboxLd, Mod.reply, Mod.invalid, *]
    case refine_3 =>
      exact exec_mbox (o := fun _ => true) rfl hup rfl hready (by simp [Mod.dcRelease, mboxLd, hd, Mod.reply])
  case refine_2 =>
    have hready := Mod.mboxBusy_ready s.m hr
    have hport : s.m.fmPort (.fmld p) (lp / 16) = true := hp ▸ s.m.fmPort_own p
    refine ⟨?_, fun dpa dev n hok => ?_, fun dpa hd => ⟨?_, ?_⟩⟩
    · refine exec_mbox (o := fun _ => true) rfl hup rfl hready ?_
      exact if_pos hport
    · refine exec_mbox (o := fun _ => true) rfl hup rfl hready ?_
      exact (if_pos hport).trans (if_pos hok)
    · refine exec_mbox (o := fun _ => true) rfl hup rfl hready ?_
      exact (if_pos hport).trans (if_pos hd)
    · refine exec_mbox (o := fun _ => true) rfl hup rfl hready ?_
      exact (if_pos hport).trans (if_pos hd)

/-- Settles O15: a port's own FM-owned LD may ask for its port, and of a list of one range the one LD is set. -/
theorem portManagementCommandsAnswer : Obligations.PortManagementCommandsAnswer := by
  intro s p hup hr
  have hready := Mod.mboxBusy_ready s.m hr
  have hport := s.m.fmPort_own p
  refine ⟨?_, ?_, fun first a d hok => ?_, ?_, fun v => ?_, ?_, ?_, fun first a b => ?_⟩
  · exact exec_mbox (o := fun _ => true) rfl hup rfl hready rfl
  · refine exec_mbox (o := fun _ => true) rfl hup rfl hready ?_
    exact if_pos hport
  · refine exec_mbox (o := fun _ => true) rfl hup rfl hready ?_
    refine (if_pos hport).trans ?_
    have hfits : first.val + 1 ≤ 16 := first.isLt
    simp [Mod.allocate, hfits, hok, Mod.reply]
  · refine exec_mbox (o := fun _ => true) rfl hup rfl hready ?_
    exact if_pos hport
  · refine exec_mbox (o := fun _ => true) rfl hup rfl hready ?_
    exact if_pos hport
  · refine exec_mbox (o := fun _ => true) rfl hup rfl hready ?_
    exact if_pos hport
  · refine exec_mbox (o := fun _ => true) rfl hup rfl hready ?_
    exact if_pos hport
  · refine exec_mbox (o := fun _ => true) rfl hup rfl hready ?_
    refine (if_pos ?_).trans ?_
    · simp only [hport, Bool.true_and, List.length_singleton, decide_eq_true_eq]
      exact first.isLt
    · rfl

/-- Settles O16: a transfer by the slot it names; an activation by whether it is offline and its slot verifies. -/
theorem firmwareCommandsFollowTheSlots : Obligations.FirmwareCommandsFollowTheSlots := by
  intro s p hup hctl hr
  have hready := Mod.mboxBusy_ready s.m hr
  have hoffered := Mod.isCtl_fmld hctl
  have htransfer {n : Fin 3} {v ok m'} : s.m.fwTransfer (.fmld p) n v ok = m' → exec (.transferFw (.fmld p) n v ok) s = answers s m' :=
    fun hf => exec_mbox (o := fun x => x.isCtl (.fmld p)) rfl hup hoffered hready hf
  have hactivate {n : Fin 3} {online m'} :
      s.m.fwActivate (.fmld p) n online = m' → exec (.activateFw (.fmld p) n online) s = answers s m' :=
    fun hf => exec_mbox (o := fun x => x.isCtl (.fmld p)) rfl hup hoffered hready hf
  refine ⟨exec_mbox (o := fun x => x.isCtl (.fmld p)) rfl hup hoffered rfl rfl, fun n v hn ok => htransfer ?_,
    fun n v ok h2 hrun => htransfer ?_, fun n hn => hactivate ?_, fun n => hactivate ?_, fun n hn => ⟨hactivate ?_, by decide⟩⟩
  · exact if_pos (by simpa using hn)
  · refine (if_neg (by simp [h2, hrun])).trans ?_
    cases ok <;> simp [Mod.reply]
  · exact if_neg (by simpa using hn)
  · exact if_pos rfl
  · exact if_pos (by simpa using hn)

/-- Settles O17: over MCTP each vendor command does its own effect; a queue in order takes the program, and a single plate that no queued
write precedes is read at once. -/
theorem vendorControlCommandsAnswer : Obligations.VendorControlCommandsAnswer := by
  intro s haon hr
  have hup := Mod.mboxUp_mctp haon
  have hready := Mod.mboxBusy_ready s.m hr
  refine ⟨fun e st ws hok hne hlen hst hev hres hroom => ?_, fun t => ?_, fun i hw hq => ?_, fun p hp hd ht => ?_, fun p hp => ?_,
    fun ep first n htk => ?_⟩
  · refine exec_mbox (o := fun _ => true) rfl hup rfl hready ?_
    have hne' : ws.length ≠ 0 := fun h => hne (List.length_eq_zero_iff.mp h)
    simp [Mod.submitCmd, mboxQueue, Mod.queueCheck, hok, Nat.not_lt.mpr hst, hne, Nat.not_lt.mpr hlen, Mod.submit, hr, hev, hres,
      Nat.not_le.mpr hroom, Mod.reply]
  · exact exec_mbox (o := fun _ => true) rfl hup rfl hready rfl
  · refine exec_mbox (o := fun _ => true) rfl hup rfl hready ?_
    have hrange : ¬ 2 ^ 32 < i.toNat + 1 := Nat.not_lt.mpr i.isLt
    have hgo := Mod.stallOver_plates hw .mctp
    simp only [Mod.readPlates, mboxWho, hgo, hq, if_neg hrange]
    rfl
  · refine exec_mbox (o := fun _ => true) rfl hup rfl hready ?_
    refine if_pos ?_
    cases h : (s.m.port p).link <;> simp_all [LinkState.isDown]
  · refine exec_mbox (o := fun _ => true) rfl hup rfl hready ?_
    refine if_neg ?_
    rcases hp with hp | hp | hp <;> simp [LinkState.isDown, hp]
  · refine exec_mbox (o := fun _ => true) rfl hup rfl hready ?_
    exact if_pos htk

/-- Settles O18: the LD's own values; a register range is read or written where it lies in the window, and otherwise its bad field is named. -/
theorem vendorQueryAndManagementCommandsAnswer : Obligations.VendorQueryAndManagementCommandsAnswer := by
  refine ⟨fun s l hup hr => ?_, fun s haon => ?_⟩
  case refine_1 =>
    have hready := Mod.mboxBusy_ready s.m hr
    refine ⟨fun x => ?_, fun x first => ?_, ?_⟩
    all_goals exact exec_mbox (o := fun _ => true) rfl hup rfl hready rfl
  case refine_2 =>
    have hup := Mod.mboxUp_mctp haon
    have hread {first n m'} : s.m.readRegsCmd first n = m' → exec (.readRegisters first n) s = answers s m' := fun hf =>
      exec_mbox (o := fun _ => true) rfl hup rfl rfl hf
    have hwrite {first vs m'} : s.m.writeRegsCmd first vs = m' → exec (.writeRegisters first vs) s = answers s m' := fun hf =>
      exec_mbox (o := fun _ => true) rfl hup rfl rfl hf
    refine ⟨fun first n hx => hread ?_, fun first n hx hw hq => hread ?_, fun first vs hx => hwrite ?_, fun first vs hx hroom => hwrite ?_,
      fun ha => ?_, fun ha => ?_⟩
    · simp [Mod.readRegsCmd, hx, Mod.badField, Mod.reply]
    · have hfree : (List.range n).any (fun i => s.m.readWaits 1 (first + 4 * i)) = false := by
        simpa using hw
      simp [Mod.readRegsCmd, hx, hfree, hq, Mod.readRegsNow]
    · simp [Mod.writeRegsCmd, hx, Mod.badField, Mod.reply]
    · have hfull : ¬ 64 - (s.m.pathQ 1).q.length < vs.length := by omega
      simp [Mod.writeRegsCmd, hx, hfull, Mod.reply]
    · exact exec_of_op (·.alertResponse) rfl (if_pos ha)
    · exact exec_of_op (·.alertResponse) rfl (if_neg (by simp [ha]))

end Sys2Proof.Machine
end

section
/-!
Commands that are plate values (R166, R167, R189, R206, R234, R235, R248, R258, R320–R332, R351). A row that has been validated meets its
boundary and ends as `Mod.rowDone`, with the effect that its writes have one after another; what is left is what each write makes the module
do.
-/

namespace Sys2Proof.Machine

/-! ### Fields of a word -/

theorem bits_or (a b : Word) (hi lo : Nat) : bits (a ||| b) hi lo = bits a hi lo ||| bits b hi lo := by
  simp [bits, BitVec.toNat_or, Nat.shiftRight_or_distrib, Nat.or_mod_two_pow]

/-- A field at bit 0 does not reach what lies above it. -/
theorem bits_fld_above {v lo : Nat} (hv : v < 2 ^ lo) (hi : Nat) : bits (fld 0 v) hi lo = 0 := by
  have hle : (BitVec.ofNat 32 (v <<< 0)).toNat < 2 ^ lo := (Nat.mod_le _ _).trans_lt hv
  rw [bits, fld, Nat.shiftRight_eq_div_pow, Nat.div_eq_of_lt hle, Nat.zero_mod]

/-- A field at bit 0 is read back over its own bits. -/
theorem bits_fld_self {v hi : Nat} (hv : v < 2 ^ (hi + 1)) (hhi : hi < 32) : bits (fld 0 v) hi 0 = v := by
  have hword : v < 2 ^ 32 := hv.trans_le (Nat.pow_le_pow_right (by decide) hhi)
  rw [bits, fld, Nat.shiftLeft_zero, BitVec.toNat_ofNat, Nat.shiftRight_zero, Nat.mod_eq_of_lt hword]
  exact Nat.mod_eq_of_lt hv

/-! ### Reading a plate beside the one written -/

theorem find?_tput_other {α : Type} [DecidableEq α] (d : α) (t : Tbl α) {n j : Nat} (v : α) (h : j ≠ n) :
    (tput d t n v).find? (fun e => e.1 == j) = t.find? (fun e => e.1 == j) := by
  have hn : (n == j) = false := beq_false_of_ne h.symm
  induction t with
  | nil => unfold tput; split <;> simp [hn]
  | cons e t ih =>
    obtain ⟨k, x⟩ := e
    unfold tput
    split
    · split <;> simp [hn]
    · split
      · next hk => subst hk; split <;> simp [hn]
      · simp only [List.find?_cons, ih]

theorem pget_pput_other (t : Tbl Word) {n j : Nat} (v : Word) (h : j ≠ n) : pget (pput t n v) j = pget t j := by
  rw [pget, pput, find?_tput_other _ _ _ h, pget]

theorem pget_writePlate_other (t : Tbl Word) (w : PWrite) {j : Nat} (h : j ≠ w.key) : pget (writePlate t w) j = pget t j := by
  unfold writePlate
  split
  · rfl
  · exact pget_pput_other t _ h

/-! ### Rows of one write -/

theorem rowTx_one {i : Nat} (hi : i < 0x80000) (v : Word) : (rowTx [(0, i, v)]).writes = [⟨i, i, v⟩] := by simp [rowTx, hi, pkey]

/-- The module at its boundary with a row's values in the plates. -/
def Mod.rowPlates (m : Mod) (ws : List (Nat × Nat × Word)) : Mod :=
  { m.rowFrame with cfg := { m.rowFrame.cfg with plates := writePlates m.rowFrame.cfg.plates (rowTx ws).writes } }

theorem Mod.rowPlates_pwr (m : Mod) (ws : List (Nat × Nat × Word)) : (m.rowPlates ws).pwr = m.rowFrame.pwr := rfl

theorem Mod.rowPlates_twin (m : Mod) (ws : List (Nat × Nat × Word)) : (m.rowPlates ws).twin = m.rowFrame.twin := rfl

section
variable {c : Instr} {s : State} (hon : s.m.coreOn = true) (hr : s.m.fore.ready = true)
include hon hr

/-- A row without hook words ends with the effect that its writes have. -/
theorem exec_row {ws : List (Nat × Nat × Word)} (hc : exec c s = answers s (s.m.plateTx ws)) (hv : s.m.validate (rowTx ws) = none)
    (hlow : ∀ w ∈ (rowTx ws).writes, keyIdx w.key < 0x103000) {eff : Mod → Mod}
    (heff : (rowTx ws).writes.foldl (fun m w => m.plateCmd (rowTx ws).writes w) (s.m.rowPlates ws) = eff (s.m.rowPlates ws)) :
    exec c s = answers s (s.m.rowDone ws eff) :=
  hc.trans (congrArg (answers s) (Mod.plateTx_done s.m ws eff hon hr hv hlow heff))

/-- A row of one global plate ends with the effect that its one write has. -/
theorem exec_row_one {i : Nat} {v : Word} (hc : exec c s = answers s (s.m.plateTx [(0, i, v)])) (hv : s.m.validate (rowTx [(0, i, v)]) = none)
    (hi : i < 0x80000) {eff : Mod → Mod}
    (heff : (s.m.rowPlates [(0, i, v)]).plateCmd [⟨i, i, v⟩] ⟨i, i, v⟩ = eff (s.m.rowPlates [(0, i, v)])) :
    exec c s = answers s (s.m.rowDone [(0, i, v)] eff) := by
  have hwrites := rowTx_one hi v
  refine exec_row hon hr hc hv ?_ ?_
  · rw [hwrites]
    intro w hw
    rw [List.mem_singleton.mp hw]
    exact (Nat.mod_le _ _).trans_lt (hi.trans (by decide))
  · rw [hwrites]
    exact heff

end

/-! ### What the commands of the twin and the power states do at the boundary -/

/-- The identity of the other module stands in words that a row of one other plate does not write. -/
theorem Mod.expectId_rowPlates (m : Mod) {i : Nat} (hi : i < 0x80000) (hlo : i ≠ 0x20006) (hhi : i ≠ 0x20007) (v : Word) :
    (m.rowPlates [(0, i, v)]).expectId = m.rowFrame.expectId := by
  have hread {j : Nat} (hj : j ≠ i) : pget (m.rowPlates [(0, i, v)]).cfg.plates j = pget m.rowFrame.cfg.plates j := by
    unfold Mod.rowPlates
    rw [rowTx_one hi]
    exact pget_writePlate_other _ _ hj
  have hlow : pkey 0 (0x80018 / 4) = 0x20006 := by decide
  have hhigh : pkey 0 (0x8001C / 4) = 0x20007 := by decide
  simp only [Mod.expectId, Mod.w, hlow, hhigh, hread hlo.symm, hread hhi.symm]

theorem Mod.twAttach_hello {m : Mod} (hp : m.twin.pair = .unpaired) (hid : m.expectId ≠ 0) : m.twAttach =
    Mod.sendHello { m with
      twin := { m.twin with pair := .attaching, cmd := 1, refuse := 0, helloed := false, side := m.sideBy m.expectId }
      tx := { m.tx with proposed := none, commitWait := none, strobeSeen := none } } :=
  (if_pos (by simp [hp])).trans (if_neg hid)

theorem Mod.twAttach_refused {m : Mod} (hp : m.twin.pair = .unpaired) (hid : m.expectId = 0) : m.twAttach = m.pairRefuse 3 :=
  (if_pos (by simp [hp])).trans (if_pos hid)

theorem Mod.pcmd_orderly {m : Mod} (hps : m.pwr.pstate < 3) {v : Nat} (hv : v ≠ 0) : m.pcmd v = m.orderlyStart v :=
  (if_neg hv).trans (if_pos hps)

theorem Mod.pcmd_fromM3 {m : Mod} (hps : m.pwr.pstate = 3) :
    m.pcmd 4 = if m.pwr.m3Exit then (m.powerDown .stay).seedWrite (.prec m.endRec) else m.powerDown .stay := by
  simp [Mod.pcmd, hps]

theorem Mod.pcmd_leaveM3 {m : Mod} (hps : m.pwr.pstate = 3) : m.pcmd 0 = m.leaveM3 := by
  simp [Mod.pcmd, hps]

theorem Mod.twDetach_paired {m : Mod} (hp : m.twin.pair = .paired) :
    m.twDetach = { m with twin := { m.twin with pair := .detaching, cmd := 2 }, tx := { m.tx with detachNext := true } } :=
  if_pos (by simp [hp])

/-- The fields of UPK_DCMD and of TW_CMD that a command with a region sets. -/
theorem bits_dcmd (r : Fin 4096) {k : Nat} (hk : k < 4) :
    bits (fld 30 k ||| fld 0 r) 31 30 = k ∧ bits (fld 30 k ||| fld 0 r) 11 0 = r := by
  constructor
  · rw [bits_or, bits_fld_above (r.isLt.trans (by decide)), Nat.or_zero]
    revert k
    decide
  · rw [bits_or, bits_fld_self (v := r) r.isLt (by decide)]
    have : bits (fld 30 k) 11 0 = 0 := by
      revert k
      decide
    rw [this, Nat.zero_or]

theorem bits_twRepair (r : Fin 4096) (lag : Bool) :
    bits (fld 28 4 ||| flag 27 lag ||| fld 0 r) 31 28 = 4 ∧ bits (fld 28 4 ||| flag 27 lag ||| fld 0 r) 11 0 = r ∧
    bit (fld 28 4 ||| flag 27 lag ||| fld 0 r) 27 = lag := by
  refine ⟨?_, ?_, ?_⟩
  · rw [bits_or, bits_fld_above (r.isLt.trans (by decide)), Nat.or_zero]
    revert lag
    decide
  · rw [bits_or, bits_fld_self (v := r) r.isLt (by decide)]
    have : bits (fld 28 4 ||| flag 27 lag) 11 0 = 0 := by
      revert lag
      decide
    rw [this, Nat.zero_or]
  · have hregion : r.val.testBit 27 = false := Nat.testBit_lt_two_pow (r.isLt.trans (by decide))
    rw [bit_or, bit_fld 0, Nat.sub_zero, hregion]
    revert lag
    decide

theorem bit_capTest (w : Word) : bit (w ||| flag 8 true) 8 = true := by
  rw [bit_or, show bit (flag 8 true) 8 = true by decide, Bool.or_true]

/-! ### O23 -/

/-- Settles O23: each row is validated and done at its boundary, with the effect of the plate that is its command. -/
theorem plateAndPairCommandsTakeEffect : Obligations.PlateAndPairCommandsTakeEffect := by
  refine ⟨fun s => ⟨fun r first count hon hr hv => ?_, fun r hon hr hv => ?_, fun hon hr hv => ?_, fun hon hr hv => ?_,
    fun hon hr hv hps => ?_, fun hoff hps haon => ?_, fun hon hr hv hps => ?_, fun hon hr hv hps => ?_, fun hon hr hv hps => ?_⟩,
    fun s hon hr => ⟨fun hv hp hid => ?_, fun hv hp hid => ?_, fun hv hp => ?_, fun r lag hv => ?_⟩⟩
  · have hwrites : (rowTx [(0, 0x18029, first), (0, 0x1802A, count), (0, 0x18028, fld 30 1 ||| fld 0 r)]).writes =
        [⟨0x18029, 0x18029, first⟩, ⟨0x1802A, 0x1802A, count⟩, ⟨0x18028, 0x18028, fld 30 1 ||| fld 0 r⟩] := by
      simp [rowTx, pkey]
    obtain ⟨hkind, hregion⟩ := bits_dcmd r (k := 1) (by decide)
    refine exec_row hon hr rfl hv ?_ ?_
    · rw [hwrites]
      simp [keyIdx]
    · rw [hwrites, List.foldl_cons, List.foldl_cons, List.foldl_cons, List.foldl_nil, Mod.plateCmd_discardFirst,
        Mod.plateCmd_discardCount, Mod.plateCmd_discard, hkind, hregion]
      rfl
  · refine exec_row_one hon hr rfl hv (by decide) ?_
    obtain ⟨hkind, hregion⟩ := bits_dcmd r (k := 2) (by decide)
    rw [Mod.plateCmd_discard, hkind, hregion]
    rfl
  · refine exec_row_one hon hr rfl hv (by decide) ?_
    rw [Mod.plateCmd_capTest, if_pos (bit_capTest _)]
  · refine exec_row_one hon hr rfl hv (by decide) ?_
    rw [Mod.plateCmd_shut, if_pos (by decide)]
  · refine exec_row_one hon hr (exec_of_op (fun m => if m.coreOn then m.plateTx [(0, 0x28041, 0)] else m.pcmd 0) rfl (if_pos hon))
      hv (by decide) ?_
    exact (Mod.plateCmd_pcmd _ _ _ _).trans (Mod.pcmd_leaveM3 (by rwa [Mod.rowPlates_pwr]))
  · refine exec_of_op (fun m => if m.coreOn then m.plateTx [(0, 0x28041, 0)] else m.pcmd 0) rfl ((if_neg (by simp [hoff])).trans ?_)
    simp [Mod.pcmd, hps, haon]
  · refine exec_row_one hon hr rfl hv (by decide) ?_
    exact (Mod.plateCmd_pcmd _ _ _ _).trans (Mod.pcmd_orderly (by rwa [Mod.rowPlates_pwr]) (by decide))
  · refine exec_row_one hon hr rfl hv (by decide) ?_
    exact (Mod.plateCmd_pcmd _ _ _ _).trans (Mod.pcmd_orderly (by rwa [Mod.rowPlates_pwr]) (by decide))
  · refine exec_row_one hon hr rfl hv (by decide) ?_
    exact (Mod.plateCmd_pcmd _ _ _ _).trans (Mod.pcmd_fromM3 (by rwa [Mod.rowPlates_pwr]))
  · refine exec_row_one hon hr rfl hv (by decide) ((Mod.plateCmd_tw1 _ _ _ _ (by decide)).trans (Mod.twAttach_hello ?_ ?_))
    · rwa [Mod.rowPlates_twin]
    · rwa [Mod.expectId_rowPlates _ (by decide) (by decide) (by decide)]
  · refine exec_row_one hon hr rfl hv (by decide) ((Mod.plateCmd_tw1 _ _ _ _ (by decide)).trans (Mod.twAttach_refused ?_ ?_))
    · rwa [Mod.rowPlates_twin]
    · rwa [Mod.expectId_rowPlates _ (by decide) (by decide) (by decide)]
  · refine exec_row_one hon hr rfl hv (by decide) ((Mod.plateCmd_tw2 _ _ _ _ (by decide)).trans (Mod.twDetach_paired ?_))
    rwa [Mod.rowPlates_twin]
  · refine exec_row_one hon hr rfl hv (by decide) ?_
    obtain ⟨hcmd, hregion, hlag⟩ := bits_twRepair r lag
    rw [Mod.plateCmd_tw4 _ _ _ _ hcmd, hregion, hlag]

/-! ### Key slots -/

/-- The write of word `k` of slot `n`. -/
def slotPWrite (n k : Nat) (v : Word) : PWrite := ⟨0xE0000 + 32 * n + k, 0xE0000 + 32 * n + k, v⟩

/-- The writes of a key slot's row: the words given, and OP. -/
def slotPWrites (n : Nat) (ws : List Word) (op : Nat) : List PWrite :=
  (ws.take 24).zipIdx.map (fun e => slotPWrite n e.2 e.1) ++ [slotPWrite n 24 (BitVec.ofNat 32 op)]

/-- A row of slot words, and of what else it writes, as writes of keys. -/
theorem rowTx_slotWrites (n : Nat) (ws : List Word) (op : Nat) (rest : List (Nat × Nat × Word)) :
    (rowTx (slotWrites n ws op ++ rest)).writes = slotPWrites n ws op ++ (rowTx rest).writes := by
  have hhigh : ¬ ∃ k, 0xE0000 + 32 * n + k < 0x80000 := fun ⟨k, h⟩ => by omega
  simp only [not_exists] at hhigh
  simp [rowTx, slotWrites, slotPWrites, slotPWrite, hhigh]

section
variable {n : Nat} (hn : n < 4098)
include hn

theorem keyIdx_slotPWrite {k : Nat} (hk : k < 32) (v : Word) : keyIdx (slotPWrite n k v).key = 0xE0000 + 32 * n + k :=
  Nat.mod_eq_of_lt (by simp only [slotPWrite]; omega)

theorem isKeyIdx_slot {k : Nat} (hk : k < 32) : isKeyIdx (0xE0000 + 32 * n + k) = true := by
  simp [isKeyIdx]
  omega

omit hn in
/-- A row of one slot writes a word below 24, or OP. -/
theorem mem_slotPWrites {ws : List Word} {op : Nat} {w : PWrite} (hw : w ∈ slotPWrites n ws op) : ∃ k < 25, ∃ v, w = slotPWrite n k v := by
  rcases List.mem_append.mp hw with hw | hw
  · obtain ⟨e, he, rfl⟩ := List.mem_map.mp hw
    have hlt : e.2 < (ws.take 24).length := (List.mem_zipIdx' he).1
    rw [List.length_take] at hlt
    exact ⟨e.2, by omega, e.1, rfl⟩
  · exact ⟨24, by decide, _, List.mem_singleton.mp hw⟩

/-- Key words enter no plate. -/
theorem writePlates_slot (t : Tbl Word) (ws : List Word) (op : Nat) : writePlates t (slotPWrites n ws op) = t := by
  have hkeep : ∀ l : List PWrite, (∀ w ∈ l, isKeyIdx (keyIdx w.key) = true) → writePlates t l = t := by
    intro l
    induction l with
    | nil => exact fun _ => rfl
    | cons w l ih =>
      intro h
      have hw : writePlate t w = t := if_pos (h w (by simp))
      exact (congrArg (writePlates · l) hw).trans (ih fun x hx => h x (by simp [hx]))
  refine hkeep _ fun w hw => ?_
  obtain ⟨k, hk, v, rfl⟩ := mem_slotPWrites hw
  rw [keyIdx_slotPWrite hn (by omega)]
  exact isKeyIdx_slot hn (by omega)

/-! What the transaction of such a row holds of the slot. -/

/-- Among words from word `j` on, word `k` is found where it is written. -/
theorem find?_slotPWrite {k : Nat} (hk : k < 25) (l : List Word) (j : Nat) (hl : j + l.length ≤ 25) :
    ((l.zipIdx j).map (fun e => slotPWrite n e.2 e.1)).find? (fun w => keyIdx w.key = 0xE0000 + 32 * n + k) =
      if j ≤ k then l[k - j]?.map (slotPWrite n k) else none := by
  induction l generalizing j with
  | nil => simp
  | cons v l ih =>
    rw [List.length_cons] at hl
    rw [List.zipIdx_cons, List.map_cons, List.find?_cons, keyIdx_slotPWrite hn (by omega), ih (j + 1) (by omega)]
    rcases Nat.lt_trichotomy j k with hjk | rfl | hjk
    · rw [decide_eq_false (by omega), if_pos (by omega), if_pos hjk.le, show k - j = k - (j + 1) + 1 by omega, List.getElem?_cons_succ]
    · simp
    · rw [decide_eq_false (by omega), if_neg (by omega), if_neg (by omega)]

variable (ws : List Word) {op : Nat} {rest : List PWrite}

theorem opOf_slotPWrites (hop : op < 4) : opOf (slotPWrites n ws op ++ rest) n = op := by
  have hwords := find?_slotPWrite hn (k := 24) (by decide) (ws.take 24) 0 (by rw [List.length_take]; omega)
  rw [if_pos (Nat.zero_le _), List.getElem?_eq_none (by rw [List.length_take]; omega), Option.map_none] at hwords
  rw [opOf, slotPWrites, List.append_assoc, List.find?_append, hwords, Option.none_or, List.singleton_append, List.find?_cons,
    keyIdx_slotPWrite hn (by decide), decide_eq_true rfl]
  show bits (BitVec.ofNat 32 op) 1 0 = op
  revert op
  decide

/-- Words that are not given are zero. -/
theorem slotWords_slotPWrites (hrest : ∀ w ∈ rest, isKeyIdx (keyIdx w.key) = false) :
    slotWords (slotPWrites n ws op ++ rest) n = (List.range 24).map (fun k => ws.getD k 0) := by
  refine List.map_congr_left fun k hk => ?_
  rw [List.mem_range] at hk
  have hwords := find?_slotPWrite hn (k := k) (by omega) (ws.take 24) 0 (by rw [List.length_take]; omega)
  rw [if_pos (Nat.zero_le _), Nat.sub_zero, List.getElem?_take_of_lt hk] at hwords
  have htail : (slotPWrite n 24 (BitVec.ofNat 32 op) :: rest).find? (fun w => keyIdx w.key = 0xE0000 + 32 * n + k) = none := by
    rw [List.find?_eq_none]
    intro w hw
    rcases List.mem_cons.mp hw with rfl | hw
    · rw [keyIdx_slotPWrite hn (by decide), decide_eq_true_eq]
      omega
    · rw [decide_eq_true_eq]
      intro heq
      exact absurd (heq ▸ isKeyIdx_slot hn (by omega)) (Bool.eq_false_iff.mp (hrest w hw))
  rw [slotPWrites, List.append_assoc, List.find?_append, hwords, List.singleton_append, htail, Option.or_none, List.getD_eq_getElem?_getD]
  cases ws[k]? <;> rfl

end

/-! What the row makes the module do. -/

theorem Mod.plateCmd_slotWord (m : Mod) (all : List PWrite) {n k : Nat} (hn : n < 4098) (hk : k < 24) (v : Word) :
    m.plateCmd all (slotPWrite n k v) = m := by
  unfold Mod.plateCmd
  rw [keyIdx_slotPWrite hn (by omega), if_pos (isKeyIdx_slot hn (by omega)), if_neg]
  simp only [Bool.and_eq_true, decide_eq_true_eq, not_and]
  omega

theorem Mod.plateCmd_slotOp (m : Mod) (all : List PWrite) {n : Nat} (hn : n < 4098) (v : Word) :
    m.plateCmd all (slotPWrite n 24 v) = if n < 4096 then m.keyOp all n else m := by
  unfold Mod.plateCmd
  rw [keyIdx_slotPWrite hn (by omega), if_pos (isKeyIdx_slot hn (by omega)), show (0xE0000 + 32 * n + 24 - 0xE0000) / 32 = n by omega]
  refine if_congr ?_ rfl rfl
  simp only [Bool.and_eq_true, decide_eq_true_eq]
  omega

/-- Of a slot's row only OP makes the module do something, and of an engine's slot not even that. -/
theorem Mod.plateCmd_slotPWrites (m : Mod) (all : List PWrite) {n : Nat} (hn : n < 4098) (ws : List Word) (op : Nat) :
    (slotPWrites n ws op).foldl (fun m w => m.plateCmd all w) m = if n < 4096 then m.keyOp all n else m := by
  have hwords : ∀ l : List (Word × Nat), (∀ e ∈ l, e.2 < 24) →
      (l.map (fun e => slotPWrite n e.2 e.1)).foldl (fun m w => m.plateCmd all w) m = m := by
    intro l
    induction l with
    | nil => exact fun _ => rfl
    | cons e l ih =>
      intro h
      rw [List.map_cons, List.foldl_cons, Mod.plateCmd_slotWord m all hn (h e (by simp))]
      exact ih fun x hx => h x (by simp [hx])
  rw [slotPWrites, List.foldl_append, hwords]
  · exact Mod.plateCmd_slotOp m all hn _
  · intro e he
    have hlt : e.2 < (ws.take 24).length := (List.mem_zipIdx' he).1
    rw [List.length_take] at hlt
    omega

theorem keyIdx_seamCtl (e : Fin 2) : keyIdx (pkey e 0x24041) = 0x24041 := by
  revert e
  decide

theorem Mod.plateCmd_seamCtl (m : Mod) (all : List PWrite) (e : Fin 2) (i : Nat) {v : Word} (hv : bit v 31 = true) :
    m.plateCmd all ⟨pkey e 0x24041, i, v⟩ =
      m.seamCtl e v (if opOf all (4096 + e) = 1 then some (slotOfWords (slotWords all (4096 + e))) else none) := by
  have hidx := keyIdx_seamCtl e
  have hinst : keyInst (pkey e 0x24041) = e := by
    revert e
    decide
  simp [Mod.plateCmd, hidx, hinst, isKeyIdx, hv]

theorem Mod.txApplied_cfg (m : Mod) (t : Tx) : (m.txApplied t).cfg = m.cfg := by
  unfold Mod.txApplied
  split
  · rfl
  · obtain ⟨u, d, e, p, tl, o, h⟩ := Mod.tally_kept (({ m with fore := { m.fore with txapp := max m.fore.txapp t.num } }).happen 0x1A 1)
      2 t.org.code islFore (leBytes 4 t.org.ticket ++ leBytes 8 t.num ++ leBytes 2 t.writes.length ++ leBytes 8 m.time.dtc)
    exact congrArg (·.cfg) h

/-- A row of one slot's words and OP. -/
theorem exec_slotRow {c : Instr} {s : State} (hon : s.m.coreOn = true) (hr : s.m.fore.ready = true) {n op : Nat} {ws : List Word}
    (hn : n < 4096) (hop : op < 4) (hc : exec c s = answers s (s.m.plateTx (slotWrites n ws op)))
    (hv : s.m.validate (rowTx (slotWrites n ws op)) = none) {eff : Mod → Mod}
    (heff : ∀ (m : Mod) (all : List PWrite), opOf all n = op → slotWords all n = (List.range 24).map (fun k => ws.getD k 0) →
      m.keyOp all n = eff m) :
    exec c s = answers s (s.m.rowDone (slotWrites n ws op) eff) := by
  have hwrites := rowTx_slotWrites n ws op []
  rw [List.append_nil] at hwrites
  have hn' : n < 4098 := by omega
  refine exec_row hon hr hc hv ?_ ?_
  · intro w hw
    rw [hwrites, show (rowTx []).writes = [] from rfl, List.append_nil] at hw
    obtain ⟨k, hk, v, rfl⟩ := mem_slotPWrites hw
    rw [keyIdx_slotPWrite hn' (by omega)]
    omega
  · rw [hwrites, show (rowTx []).writes = [] from rfl, List.append_nil, Mod.plateCmd_slotPWrites _ _ hn', if_pos hn]
    have hlist : slotPWrites n ws op ++ [] = slotPWrites n ws op := List.append_nil _
    exact heff _ _ (hlist ▸ opOf_slotPWrites hn' ws hop) (hlist ▸ slotWords_slotPWrites hn' ws (by simp))

/-! ### O24 -/

/-- Settles O24: of a slot's row OP acts with the words given; an engine's start takes the words of its own slot; no key word is a plate. -/
theorem keyCommandsTakeEffect : Obligations.KeyCommandsTakeEffect := by
  intro s hon hr
  refine ⟨fun r ws hv => ?_, fun r hv => ?_, fun r hv => ?_, fun e ctl ws hv => ?_, fun n ws op eff hn hkeep => ?_⟩
  · refine exec_slotRow hon hr r.isLt (by decide) rfl hv fun m all hop hwords => ?_
    simp [Mod.keyOp, hop, hwords]
  · refine exec_slotRow hon hr r.isLt (by decide) rfl hv fun m all hop _ => ?_
    simp [Mod.keyOp, hop]
  · refine exec_slotRow hon hr r.isLt (by decide) rfl hv fun m all hop _ => ?_
    simp [Mod.keyOp, hop]
  · have hn : 4096 + e.val < 4098 := by omega
    have hwrites := rowTx_slotWrites (4096 + e) ws 1 [(e.val, 0x24041, ctl ||| flag 31 true)]
    have hctl : (rowTx [(e.val, 0x24041, ctl ||| flag 31 true)]).writes = [⟨pkey e 0x24041, 0x24041, ctl ||| flag 31 true⟩] := by
      simp [rowTx]
    have hkey := keyIdx_seamCtl e
    have hgo : bit (ctl ||| flag 31 true) 31 = true := by
      rw [bit_or, show bit (flag 31 true) 31 = true by decide, Bool.or_true]
    rw [hctl] at hwrites
    refine exec_row hon hr rfl hv ?_ ?_
    · rw [hwrites]
      intro w hw
      rcases List.mem_append.mp hw with hw | hw
      · obtain ⟨k, hk, v, rfl⟩ := mem_slotPWrites hw
        rw [keyIdx_slotPWrite hn (by omega)]
        omega
      · rw [List.mem_singleton.mp hw, hkey]
        decide
    · rw [hwrites, List.foldl_append, Mod.plateCmd_slotPWrites _ _ hn, if_neg (by omega), List.foldl_cons, List.foldl_nil,
        Mod.plateCmd_seamCtl _ _ _ _ hgo, opOf_slotPWrites hn ws (by decide), if_pos rfl, slotWords_slotPWrites hn ws]
      simp [hkey, isKeyIdx]
  · have hwrites := rowTx_slotWrites n ws op []
    rw [List.append_nil, show (rowTx []).writes = [] from rfl, List.append_nil] at hwrites
    rw [Mod.rowDone, Mod.txApplied_cfg, hkeep, hwrites]
    simp only [writePlates_slot hn]

/-! ### O25 -/

section
variable {m : Mod} {e : Nat} {ok : Bool} {bad : List (Fin 10)} (hev : m.evacRunning = false) (hp : 4 ≤ m.pwr.phase)
  (hst : (m.seam e).st = .running)
include hev hp hst

theorem Mod.seamLine_unmapped (hmap : m.seamMapped (m.lineAt (m.seam e).region (m.seam e).ptr / 64) = false) :
    m.seamLine e ok bad = m.seamAdvance e (m.seam e).ptr := by
  simp [Mod.seamLine, hev, Nat.not_lt.mpr hp, hst, hmap]

section
variable (hmap : m.seamMapped (m.lineAt (m.seam e).region (m.seam e).ptr / 64) = true)
  (hreg : (m.seam e).ptr / 64 < regPages (m.rw1 (m.seam e).region)) (hdur : (m.seam e).ptr / 64 < (m.seam e).durable + 256)
include hmap hreg hdur

theorem Mod.seamLine_poisoned (hpsn : m.poisoned (m.lineAt (m.seam e).region (m.seam e).ptr) = true) :
    m.seamLine e ok bad = m.seamAdvance e ((m.seam e).ptr + 1) := by
  simp [Mod.seamLine, hev, Nat.not_lt.mpr hp, hst, hmap, Nat.not_le.mpr hreg, Nat.not_le.mpr hdur, hpsn]

theorem Mod.seamLine_clean (hpsn : m.poisoned (m.lineAt (m.seam e).region (m.seam e).ptr) = false) :
    m.seamLine e ok bad =
      if m.dt + 4096 ≤ m.budget then m.seamRewrite e (m.lineAt (m.seam e).region (m.seam e).ptr) ok bad else m := by
  by_cases hroom : m.dt + 4096 ≤ m.budget
  · simp [Mod.seamLine, hev, Nat.not_lt.mpr hp, hst, hmap, Nat.not_le.mpr hreg, Nat.not_le.mpr hdur, hpsn, hroom, Nat.not_lt.mpr hroom]
  · simp [Mod.seamLine, hev, Nat.not_lt.mpr hp, hst, hmap, Nat.not_le.mpr hreg, Nat.not_le.mpr hdur, hpsn, hroom, Nat.not_le.mp hroom]

end

end

/-- A module in M0 whose CORE and Tally recorder run. -/
def tallyingS : State := { m := {
  pwr := { vinOn := true, aonReset := false, phase := 5, rails := (List.range 12).map (fun k => (k, { st := .inWindow })) }
  fore := { ready := true }
  tly := { running := true } } }

/-- PCMD_M0 is out of range in M0. -/
def pcmdM0Fail : Fail := { code := .range, sub := 0, idx := 0x28041 }

/-- The SOURCE fields of the records in the ring. -/
def ringSources (m : Mod) : List (Option Nat) := m.tly.ring.map (fun e => e.2.map (·.source))

theorem validate_pcmdM0 : tallyingS.m.validate (rowTx [(0, 0x28041, 0)]) = some pcmdM0Fail := by decide

set_option maxRecDepth 20000 in
/-- The record's SOURCE is the origin's code, 2. -/
theorem ringSources_txFailed : ringSources (Mod.fin tallyingS.m (tallyingS.m.txFailed (rowTx [(0, 0x28041, 0)]) pcmdM0Fail)) = [some 2] := by
  decide

set_option maxRecDepth 20000 in
/-- The record of the statement has SOURCE 0. -/
theorem ringSources_claimed : ringSources (Mod.fin tallyingS.m (Mod.tally
    { tallyingS.m with fore := { tallyingS.m.fore with lastSrc := 2, lastSub := 0, lastCode := TxCode.range.code, lastIdx := 0x28041,
                                                       txfail := tallyingS.m.fore.txfail + 1 } }
    3 0 islFore (leBytes 8 (failWord pcmdM0Fail) ++ leBytes 4 0 ++ leBytes 1 0))) = [some 0] := by
  decide

/-- Refutes O25: the record of a failed PCMD_M0 names the origin that FORE_LASTFAIL.SRC names, 2 (R403), where the statement writes 0; the two
differ in a module whose Tally recorder runs. The Seam's clauses hold (`Mod.seamLine_unmapped`, `Mod.seamLine_poisoned`,
`Mod.seamLine_clean`). -/
theorem not_seamAndFailedRowsAnswer : ¬ Obligations.SeamAndFailedRowsAnswer := by
  intro h
  have hclaimed := (h tallyingS).2 pcmdM0Fail (by decide) rfl validate_pcmdM0
  have hdoes : exec .pcmdM0 tallyingS = answers tallyingS (tallyingS.m.txFailed (rowTx [(0, 0x28041, 0)]) pcmdM0Fail) :=
    exec_of_op (fun m => if m.coreOn then m.plateTx [(0, 0x28041, 0)] else m.pcmd 0) rfl
      ((if_pos (by decide)).trans (Mod.plateTx_failed _ _ _ (by decide) rfl validate_pcmdM0))
  have hsame := hdoes.symm.trans hclaimed
  simp only [answers, Host.Outcome.next.injEq, State.mk.injEq] at hsame
  have hsources := congrArg ringSources hsame.1
  rw [ringSources_txFailed] at hsources
  exact absurd (hsources.trans ringSources_claimed) (by decide)

end Sys2Proof.Machine
end

section
/-!
The medium's commands and those of drift compensation and the patrol (R122–R185): each acts once what it waits for has come, and leaves the
module as it is before.
-/

namespace Sys2Proof.Machine

section
variable {s : State}

/-! ### Dies, rows and blocks -/

theorem Mod.unitReport_ok {m : Mod} {r : Row} {x : Nat} (hrow : m.med.rows.find? (fun q => q.id = r.id) = some r)
    (hop : (m.die (dieOf r.sg x)).op.any (fun o => !o.reset && o.key = r.id) = true) :
    m.unitReport r.id x true = (m.opEnd (dieOf r.sg x)).unitOk r x := by
  unfold Mod.unitReport
  rw [hrow]
  exact if_pos hop

theorem Mod.unitReport_fail {m : Mod} {r : Row} {x : Nat} (hrow : m.med.rows.find? (fun q => q.id = r.id) = some r)
    (hop : (m.die (dieOf r.sg x)).op.any (fun o => !o.reset && o.key = r.id) = true) (hdead : r.dead = false) :
    m.unitReport r.id x false = (m.opEnd (dieOf r.sg x)).unitFail r x := by
  unfold Mod.unitReport
  rw [hrow]
  refine (if_pos hop).trans ?_
  simp only [Bool.false_eq_true, if_false, hdead]

theorem Mod.rowStart_due {m : Mod} {r : Row} (hrow : m.med.rows.find? (fun q => q.id = r.id) = some r) (hst : r.started = false)
    (hpages : r.pages ≠ []) (hev : m.per.evac = none) (hdue : r.since + 1000 * bits (m.w 0 0x50104) 13 0 ≤ m.time.dtc) :
    m.rowStart r.id = m.rowGo r := by
  unfold Mod.rowStart
  rw [hrow]
  exact if_pos (by simp [hst, hpages, hev, hdue])

theorem Mod.dieFail_first {m : Mod} {n why : Nat} (h : (m.die n).failed = false) : m.dieFail n why =
    (m.setDie n (fun d => { d with failed := true, op := none })).faultRec (326 + n) (islMed (n / 10)) 10 n why :=
  if_neg (by simp [Mod.dieFailed, h])

/-! ### Ages and the patrol -/

theorem Mod.tempChange_above {m : Mod} {n : Nat} (h : 100 * ((m.die n).tbucket : Int) + 160 ≤ (m.therm (64 + n)).temp) :
    m.tempChange n = m.setDie n (fun d => { d with tbucket := tempBucket (m.therm (64 + n)).temp }) :=
  if_pos (by simp [h])

theorem Mod.tempChange_within {m : Mod} {n : Nat} (hlo : 100 * ((m.die n).tbucket : Int) + 40 ≤ (m.therm (64 + n)).temp)
    (hhi : (m.therm (64 + n)).temp < 100 * ((m.die n).tbucket : Int) + 160) : m.tempChange n = m :=
  if_neg (by simp; omega)

theorem Mod.rateTick_stopped {m : Mod} (h : m.patrolRuns = false) : m.rateTick = { m with fb := { m.fb with rate := 0 } } :=
  if_neg (by simp [h])

theorem Mod.rateTick_running {m : Mod} (h : m.patrolRuns = true) (ht : m.fb.passTotal ≠ 0) : m.rateTick = { m with fb := { m.fb with
    rate := cdiv m.fb.passLeft (max 1 ((m.fb.passAt + m.cycleNs - m.time.dtc) / 1000000000)) } } := by
  unfold Mod.rateTick
  rw [if_pos h, if_neg ht]

/-- A pass that starts has its whole cycle before it. -/
theorem Mod.rateTick_first {m : Mod} (h : m.patrolRuns = true) (ht : m.fb.passTotal = 0) : m.rateTick = { m with fb := { m.fb with
    passTotal := m.passSize, passLeft := m.passSize, passAt := m.time.dtc, visited := [],
    rate := cdiv m.passSize (max 1 (m.cycleNs / 1000000000)) } } := by
  unfold Mod.rateTick
  rw [if_pos h, if_pos ht]
  have hcycle : m.time.dtc + m.cycleNs - m.time.dtc = m.cycleNs := Nat.add_sub_cancel_left _ _
  show ({ m.passStart with fb := { m.passStart.fb with
    rate := cdiv m.passSize (max 1 ((m.time.dtc + m.cycleNs - m.time.dtc) / 1000000000)) } } : Mod) = _
  rw [hcycle]
  rfl

end

/-! ### O22 -/

/-- Settles O22: each command by what it waits for; a visit, whose conditions are one guard, does its steps one after another. -/
theorem mediumAndPatrolCommandsAnswer : Obligations.MediumAndPatrolCommandsAnswer := by
  refine ⟨fun s => ⟨fun r x hrow hop => ⟨?_, fun hdead => ?_⟩, fun r hrow hst hpages hev hdue => ?_, fun hst => ?_, fun e l hst => ?_,
    fun hp hev => ?_, fun sg blk x ok hop => ?_, fun sg blk hpend => ?_, fun die hon hok => ?_, fun c tr hon hok => ?_⟩,
    fun s => ⟨fun late hon => ?_, fun haon haged => ?_, fun haged => ?_, fun die hon ht => ?_, fun die hon hlo hhi => ?_, fun hr => ?_,
      fun hr ht => ?_, fun hr ht => ?_,
      fun sg blk x wl c dm dp hr hpat hwl hfail hlev hbusy hseen hbehind => ?_, fun sg blk hq hold => ?_⟩⟩
  · exact exec_of_op (·.unitReport r.id x true) rfl (Mod.unitReport_ok hrow hop)
  · exact exec_of_op (·.unitReport r.id x false) rfl (Mod.unitReport_fail hrow hop hdead)
  · exact exec_of_op (·.rowStart r.id) rfl (Mod.rowStart_due hrow hst hpages hev hdue)
  · exact exec_of_op (·.journalTimer) rfl (by simp [Mod.journalTimer, hst])
  · exact exec_of_op (·.journalTimer) rfl (by simp [Mod.journalTimer, hst])
  · refine exec_of_op (fun m => if m.pwr.phase < 4 || m.per.evac.isSome || !m.ckDue then m else m.ckStart) rfl ?_
    cases s.m.ckDue <;> simp [hev, Nat.not_lt.mpr hp]
  · exact exec_of_op (·.resetReport sg blk x ok) rfl (if_pos hop)
  · exact exec_of_op (·.pendingReset sg blk) rfl (if_pos hpend)
  · exact exec_of_op (fun m => if m.coreOn then (m.dieFail die 0).goneSettle else m) rfl
      ((if_pos hon).trans (congrArg Mod.goneSettle (Mod.dieFail_first hok)))
  · exact exec_of_op (fun m => if m.coreOn then (m.mediaChanFail c (if tr then 0 else 1)).goneSettle else m) rfl
      ((if_pos hon).trans (congrArg Mod.goneSettle (if_neg (by simp [hok]))))
  · exact exec_of_op (fun m => if m.coreOn then m.reeval late else m) rfl (if_pos hon)
  · exact exec_of_op (fun m => if m.pwr.aonReset then m else m.ageTick) rfl
      ((if_neg (by simp [haon])).trans (if_neg (Nat.not_le.mpr haged)))
  · refine exec_of_op (fun m => if m.pwr.aonReset then m else m.ageTick) rfl ?_
    have htick : s.m.ageTick = s.m := if_pos haged
    rw [htick, ite_self]
  · exact exec_of_op (fun m => if m.coreOn then m.tempChange die else m) rfl ((if_pos hon).trans (Mod.tempChange_above ht))
  · exact exec_of_op (fun m => if m.coreOn then m.tempChange die else m) rfl ((if_pos hon).trans (Mod.tempChange_within hlo hhi))
  · exact exec_of_op (·.rateTick) rfl (Mod.rateTick_stopped hr)
  · exact exec_of_op (·.rateTick) rfl (Mod.rateTick_running hr ht)
  · exact exec_of_op (·.rateTick) rfl (Mod.rateTick_first hr ht)
  · refine exec_of_op (·.visit sg blk x wl (.ok c) dm dp false) rfl ?_
    exact if_neg (by simpa [hr, hpat, hwl, hfail, hlev, hbusy, Nat.not_le.mpr hseen, or_iff_not_imp_left] using hbehind)
  · exact exec_of_op (·.overdue sg blk) rfl (if_pos (by rw [hq, decide_eq_true hold]; rfl))

end Sys2Proof.Machine
end

section
/-!
The hopper's commands (R98–R120): accesses, rewrites, drains, merges, cleaning, the map's rebuild and the scrub.
-/

namespace Sys2Proof.Machine

/-! ### Accesses and posted writes -/

@[simp] theorem laneCount_zero : laneCount 0#16 = 0 := by decide

/-- An access without a lane in error gives the cell that it captured. -/
theorem Mod.readLine_clean (m : Mod) (f lineNo : Nat) {c : Cell} (h : c.flip = 0) (cached : Bool) :
    m.readLine f lineNo c cached 0 = (some c, m) := by
  have hcell : ({ c with flip := 0 } : Cell) = c := by rw [← h]
  exact (if_pos (by simp [h])).trans (by rw [hcell])

theorem Mod.takeSlot_host (m : Mod) (a : Access) : (m.takeSlot a).host = m.host := by
  unfold Mod.takeSlot
  split <;> rfl

theorem Mod.accessDone_req {m : Mod} {a : Access} {q : Nat} {r : Req}
    (ha : m.hop.access.find? (fun x => x.id = a.id) = some a) (hq : a.who = .req q) (hf : a.cell.flip = 0)
    (hs : m.hopServes a.who = true) (hb : m.arbServes a = true) (hr : m.reqById q = some r) :
    m.accessDone a.id 0 = Mod.answerAccess { m.takeSlot a with
      hop := { (m.takeSlot a).hop with access := (m.takeSlot a).hop.access.filter (fun x => x.id != a.id) } } r a (some a.cell) := by
  have hhost : ({ m.takeSlot a with
      hop := { (m.takeSlot a).hop with access := (m.takeSlot a).hop.access.filter (fun x => x.id != a.id) } } : Mod).reqById q = some r := by
    rw [← hr, Mod.reqById, Mod.reqById, Mod.takeSlot_host]
  unfold Mod.accessDone
  rw [ha]
  refine (if_neg (by simp [hs, hb])).trans ?_
  simp only [hq, Mod.readLine_clean _ _ _ hf, hhost]

theorem Mod.drainOne_live {m : Mod} {c : Nat} {e : Pwe} (he : m.hop.pwq.find? (fun e => e.ch = c) = some e) (hl : m.pweLive e = true) :
    m.drainOne c = (Mod.disarm { m with hop := { m.hop with pwq := m.hop.pwq.erase e } } e.frame).setFrame e.frame (fun x => { x with
      lines := tput {} x.lines e.line (m.written e.frame e.cell), lastMs := m.time.dtc / 1000000 % 2 ^ 32 }) := by
  unfold Mod.drainOne
  rw [he]
  exact if_neg (by simp [hl])

theorem Mod.drainSlot_post {m : Mod} {c : Nat} {q : Option Nat} (hp : m.arbPick c = some (q, .post)) (hr : m.hopRuns = true)
    (hf : (m.hch c).failed = false) : m.drainSlot c = (m.granted c q false).drainOne c := by
  unfold Mod.drainSlot
  rw [hp]
  exact if_pos (by simp [hr, hf])

/-! ### O19 -/

/-- Settles O19: each command by what it finds: the access its request, a channel's queues their heads, a frame its cleaning. -/
theorem hopperCommandsAnswer : Obligations.HopperCommandsAnswer := by
  refine ⟨fun s c => ⟨fun a q r ha hq hf hs hb hr => ?_, fun f j t hon hq hv => ?_, fun f j t hon hq hv hw => ?_, fun b hon hok => ?_,
    fun q hon hst hth => ?_, fun q hst => ?_, fun why hon hok => ?_⟩,
    fun s => ⟨fun c q e hon hok hp he hl => ?_, fun page j e he => ?_, fun f hp hev hn => ?_, fun hp hev hn => ?_, fun f hc => ?_,
      fun f hc hd => ?_, fun page hon hpage hbad => ?_, fun page => ?_⟩⟩
  · exact exec_of_op (·.accessDone a.id 0) rfl (Mod.accessDone_req ha hq hf hs hb hr)
  · refine exec_of_op (fun m => if m.hopRuns then m.rewriteNext c else m) rfl ((if_pos hon).trans ?_)
    unfold Mod.rewriteNext
    rw [hq]
    refine if_neg ?_
    rw [Bool.and_eq_true, not_and]
    exact fun hvalid => absurd (hv.symm.trans hvalid) (by decide)
  · refine exec_of_op (fun m => if m.hopRuns then m.rewriteNext c else m) rfl ((if_pos hon).trans ?_)
    unfold Mod.rewriteNext
    rw [hq]
    refine if_pos ?_
    rw [Bool.and_eq_true]
    exact ⟨hv, (congrArg Option.isNone hw).trans rfl⟩
  · exact exec_of_op (·.refreshBank c) rfl (if_pos (by simp [hon, hok]))
  · exact exec_of_op (·.starvation c q true) rfl (if_pos (by simp [hon, hst, hth]))
  · exact exec_of_op (·.starvation c q false) rfl (if_pos (by simp [hst]))
  · exact exec_of_op (fun m => if m.coreOn then m.hopChanFail c why else m) rfl ((if_pos hon).trans (if_neg (by simp [hok])))
  · refine exec_of_op (·.drainSlot c) rfl ((Mod.drainSlot_post hp hon hok).trans ?_)
    exact Mod.drainOne_live he hl
  · exact exec_of_op (·.mergeAt page j) rfl (by simp only [Mod.mergeAt, he])
  · exact exec_of_op (·.cleanNext) rfl (by simp [Mod.cleanNext, Nat.not_lt.mpr hp, hev, hn])
  · exact exec_of_op (·.cleanNext) rfl (by simp [Mod.cleanNext, hn])
  · refine exec_of_op (·.cleanEnd f) rfl ?_
    have hdone : s.m.cleanDone f = s.m := if_pos (by simp [hc])
    simp [Mod.cleanEnd, hdone, hc]
  · exact exec_of_op (·.cleanEnd f) rfl (if_pos (by simp [hc, hd]))
  · refine exec_of_op (·.mapRebuild page true) rfl ?_
    unfold Mod.mapRebuild
    rw [if_pos rfl, if_pos]
    rw [hon, decide_eq_true hpage]
    simpa using hbad
  · exact exec_of_op (·.mapRebuild page false) rfl rfl

/-! ### O20 -/

/-- A frame's line that the scrub reads, on a channel that works and at or above where the scrub stands. -/
theorem Mod.scrub_frame {m : Mod} {p j : Nat} {lanes : BitVec 16} (hon : m.hopRuns = true) (hrate : bits (m.w 0 0x40110) 23 0 ≠ 0)
    (hmap : p < m.mapBase) (hend : p < m.posEnd) (hok : (m.hch (m.chanOf p)).failed = false) (hat : m.hop.scrubAt ≤ p)
    (hv : (m.frame p).valid.getLsbD j = true) (hq : m.queued p j = none) :
    m.scrub p j lanes =
      (let m' : Mod := { m with hop := { m.hop with scrubAt := p } }
       let cell : Cell := tget {} (m.frame p).lines j
       if laneCount (cell.flip ||| lanes) = 0 then m'
       else if laneCount (cell.flip ||| lanes) = 1 then
         (m'.scrubLane (m.chanOf p) (cell.flip ||| lanes)).rewriteLine p j { cell with flip := 0 }
       else (m'.lineBad p ((m.frame p).page * 64 + j)).2) := by
  unfold Mod.scrub
  refine (if_neg (by simp [hon, hrate, hend, hok])).trans ?_
  rw [if_neg (Nat.not_lt.mpr hat)]
  refine (if_pos hmap).trans (if_neg ?_)
  have hidle : (!(m.frame p).valid.getLsbD j || (m.queued p j).isSome) = false := by simp [hv, hq]
  exact Bool.eq_false_iff.mp hidle

/-- Settles O20: the lanes in error decide which of the scrub's three ways a line goes. -/
theorem scrubCorrectsOneLane : Obligations.ScrubCorrectsOneLane := by
  intro s p j lanes hon hrate hmap hend hok hat hv hq
  have hscrub := Mod.scrub_frame (lanes := lanes) hon hrate hmap hend hok hat hv hq
  refine ⟨fun hl => ?_, fun hl => ?_, fun hl => ?_⟩
  · exact exec_of_op (·.scrub p j lanes) rfl (hscrub.trans (if_pos hl))
  · exact exec_of_op (·.scrub p j lanes) rfl (hscrub.trans ((if_neg (by omega)).trans (if_pos hl)))
  · exact exec_of_op (·.scrub p j lanes) rfl (hscrub.trans ((if_neg (by omega)).trans (if_neg (by omega))))

end Sys2Proof.Machine
end

section
/-!
Codeword transfers, short merges, fills and pin loads (R81, R97, R109, R128, R130, R139, R143): the command passes to its moment and acts on
the read as it stands there.
-/

namespace Sys2Proof.Machine

/-- What a transfer that has ended does to its read, if the read is still there and wants the codeword. -/
def Mod.codewordTaken (tg : Bool) (id x : Nat) (res : Decode1) (w : Waits) (m : Mod) : Mod :=
  match m.med.reads.find? (fun q => q.id = id) with
  | some r => if m.wants tg r x then Mod.deliver ((m.setWaits w).transfer r x res) else m
  | none => m

/-- What a short merge does to its read, if the read is still there with fewer than eight codewords. -/
def Mod.shortTaken (id : Nat) (m : Mod) : Mod :=
  match m.med.reads.find? (fun q => q.id = id) with
  | some r => if !r.done && r.decoded < 8 then Mod.deliver (m.mergeShort r) else m
  | none => m

section
variable {m : Mod} {r : MRead} {x : Nat} {res : Decode1} {w : Waits} (hfind : m.med.reads.find? (fun q => q.id = r.id) = some r)
include hfind

theorem Mod.codewordTaken_wanted {tg : Bool} (hwant : m.wants tg r x = true) :
    m.codewordTaken tg r.id x res w = Mod.deliver ((m.setWaits w).transfer r x res) := by
  unfold Mod.codewordTaken
  rw [hfind]
  exact if_pos hwant

theorem Mod.shortTaken_few (hdone : r.done = false) (hfew : r.decoded < 8) : m.shortTaken r.id = Mod.deliver (m.mergeShort r) := by
  unfold Mod.shortTaken
  rw [hfind]
  exact if_pos (by simp [hdone, hfew])

/-- A booked codeword is transferred at its T. -/
theorem Mod.codewordArrives_booked (hruns : m.mediaRuns = true) (hwant : m.wants (m.tagged (m.regionOfPage r.page)) r x = true)
    {b : Nat × Nat} (hb : r.book = some b) :
    m.codewordArrives r.id x res w = (m.passUntil (b.2 + 30)).codewordTaken (m.tagged (m.regionOfPage r.page)) r.id x res w := by
  unfold Mod.codewordArrives
  rw [hfind]
  refine (if_neg (by simp [hruns, hwant])).trans ?_
  rw [hb]
  rfl

/-- Another codeword is transferred in the slot that its channel has open, in its turn. -/
theorem Mod.codewordArrives_open (hruns : m.mediaRuns = true) (hwant : m.wants (m.tagged (m.regionOfPage r.page)) r x = true)
    (hb : r.book = none) (hturn : m.medServes (mcOf (enSg r.loc) x) r = true) :
    m.codewordArrives r.id x res w =
      ((m.takeMedSlot (mcOf (enSg r.loc) x) (m.openSlot (mcOf (enSg r.loc) x)) r).passUntil
        (m.openSlot (mcOf (enSg r.loc) x) + 30)).codewordTaken (m.tagged (m.regionOfPage r.page)) r.id x res w := by
  unfold Mod.codewordArrives
  rw [hfind]
  refine (if_neg (by simp [hruns, hwant])).trans ?_
  rw [hb]
  exact if_pos hturn

theorem Mod.stripeShort_booked {b : Nat × Nat} (hb : r.book = some b) :
    m.stripeShort r.id = (m.passUntil (b.2 + 50)).shortTaken r.id := by
  unfold Mod.stripeShort
  rw [hfind]
  dsimp only
  rw [hb]
  rfl

end

/-- Settles O21: a transfer and a short merge act on their read as it stands at their moment, a fill on the frame's missing lines, a pin load
on the region's missing pages. -/
theorem fillAndTransferCommandsAnswer : Obligations.FillAndTransferCommandsAnswer := by
  intro s
  refine ⟨fun r x res w hfind hruns hwant => ⟨fun b hb => ⟨?_, fun hpast => ?_⟩, fun hb hturn => ⟨?_, fun hpast => ?_⟩⟩,
    fun r b hfind hb => ⟨?_, fun hpast hdone hfew => ?_⟩, fun f bad hv hf hev hbad => ?_, fun r k m' hload hev hpages => ?_⟩
  · exact exec_of_op (·.codewordArrives r.id x res w) rfl (Mod.codewordArrives_booked hfind hruns hwant hb)
  · refine exec_of_op (·.codewordArrives r.id x res w) rfl ((Mod.codewordArrives_booked hfind hruns hwant hb).trans ?_)
    rw [Mod.passUntil_of_le _ hpast]
    exact Mod.codewordTaken_wanted hfind hwant
  · exact exec_of_op (·.codewordArrives r.id x res w) rfl (Mod.codewordArrives_open hfind hruns hwant hb hturn)
  · refine exec_of_op (·.codewordArrives r.id x res w) rfl ((Mod.codewordArrives_open hfind hruns hwant hb hturn).trans ?_)
    rw [Mod.passUntil_of_le (s.m.takeMedSlot _ _ r) hpast]
    exact Mod.codewordTaken_wanted (m := s.m.takeMedSlot _ _ r) hfind hwant
  · exact exec_of_op (·.stripeShort r.id) rfl (Mod.stripeShort_booked hfind hb)
  · refine exec_of_op (·.stripeShort r.id) rfl ((Mod.stripeShort_booked hfind hb).trans ?_)
    rw [Mod.passUntil_of_le _ hpast]
    exact Mod.shortTaken_few hfind hdone hfew
  · exact exec_of_op (·.fillDone f bad) rfl (if_neg (by simp [hv, hf, hev, hbad]))
  · refine exec_of_op (·.pinLoaded r) rfl ?_
    unfold Mod.pinLoaded
    rw [hload]
    refine (if_neg (by simp [hev])).trans ?_
    rw [hpages]

end Sys2Proof.Machine
end

section
/-!
Requests of the hosts (R24, R27, R47–R50, R72, R96, R103): a request arrives on a credit and is either answered at once, because its address
maps to nothing here, or stamped and served by its kind.
-/

namespace Sys2Proof.Machine

/-! ### Arrival -/

/-- An address that maps to no line of a region at home. -/
def Mod.away (m : Mod) (l hpa : Nat) : Prop := m.decodeHpa l hpa = none ∨ ∃ n, m.decodeHpa l hpa = some n ∧ m.notHome (m.regOfLine n) = true

section
variable {m : Mod} {l hpa : Nat} {op : ReqOp} {tag : Nat} {data : Line} {mask : Dword} {poison : Bool} {serve : Mod → Req → Option Nat → Mod}

theorem Mod.arrive_refused (h : m.canStamp l = false) : m.arrive l hpa op tag data mask poison serve = m :=
  if_neg (by simp [h])

section
variable (h : m.canStamp l = true)
include h

/-- An address that maps to nothing here is answered at once, on the credit that the request takes. -/
theorem Mod.arrive_away {c : Mod} (hc : m.takeCredit l op.isWrite = c) (haway : c.away l hpa) :
    m.arrive l hpa op tag data mask poison serve = c.unmappedReq l op tag := by
  subst hc
  refine (if_pos h).trans ?_
  dsimp only
  obtain hnone | ⟨n, hsome, haway⟩ := haway
  · rw [hnone]
  · rw [hsome]
    exact if_pos haway

/-- A mapped request of a region at home is stamped and served. -/
theorem Mod.arrive_home {c : Mod} (hc : m.takeCredit l op.isWrite = c) {n : Nat} (hn : c.decodeHpa l hpa = some n)
    (hhome : c.notHome (c.regOfLine n) = false) {x : (Req × Option Nat) × Mod}
    (hx : c.stampReq l op tag n (c.regOfLine n) data mask poison = x) :
    m.arrive l hpa op tag data mask poison serve = serve x.2 x.1.1 x.1.2 := by
  subst hc hx
  refine (if_pos h).trans ?_
  dsimp only
  rw [hn]
  exact if_neg (by simp [hhome])

end

end

/-- Settles O8: a request away from here is answered at once by its kind; one that cannot be stamped does nothing. -/
theorem unmappedRequestsAreAnswered : Obligations.UnmappedRequestsAreAnswered := by
  intro s lp hpa tag d be psn nt chk
  refine ⟨exec_of_op (fun m => m) rfl rfl,
    fun hs => ⟨⟨⟨fun haway => ⟨?_, ?_⟩, rfl, rfl, rfl, rfl, rfl⟩, fun haway => ?_⟩, fun haway => ⟨?_, ?_⟩⟩,
    fun hs => ⟨?_, ?_, ?_, ?_, ?_⟩⟩
  · exact exec_of_op (·.memRead lp hpa tag.toNat chk) rfl (Mod.arrive_away hs rfl haway)
  · exact exec_of_op (·.memRead lp hpa tag.toNat chk) rfl (Mod.arrive_away hs rfl haway)
  · exact exec_of_op (·.memInval lp hpa tag.toNat) rfl (Mod.arrive_away hs rfl haway)
  · exact exec_of_op (·.memWrite lp hpa tag.toNat d psn) rfl (Mod.arrive_away hs rfl haway)
  · exact exec_of_op (·.memPartial lp hpa tag.toNat d be psn) rfl (Mod.arrive_away hs rfl haway)
  · exact exec_of_op (·.memRead lp hpa tag.toNat chk) rfl (Mod.arrive_refused hs)
  · exact exec_of_op (·.memRead lp hpa tag.toNat chk) rfl (Mod.arrive_refused hs)
  · exact exec_of_op (·.memInval lp hpa tag.toNat) rfl (Mod.arrive_refused hs)
  · exact exec_of_op (·.memWrite lp hpa tag.toNat d psn) rfl (Mod.arrive_refused hs)
  · exact exec_of_op (·.memPartial lp hpa tag.toNat d be psn) rfl (Mod.arrive_refused hs)

/-! ### Reads -/

/-- Words without a finding leave the read as it is. -/
theorem Mod.serveChecked_clean (m : Mod) (r : Req) (b : Option Nat) : m.serveChecked {} r b = m.serveRead r b := by
  have hclean : ∀ e ∈ m.readChecks r {}, e.2 = .clean := by
    intro e he
    simp only [Mod.readChecks, List.mem_append, List.mem_singleton] at he
    obtain (rfl | he) | he := he
    · rfl
    · split at he <;> simp_all
    · split at he <;> simp_all
  have hkeep : ∀ (l : List (Nat × Ecc)) (m : Mod), (∀ e ∈ l, e.2 = .clean) →
      l.foldl (fun m e => m.eccMeets e.1 (r.line / 64) e.2) m = m := by
    intro l
    induction l with
    | nil => exact fun _ _ => rfl
    | cons e l ih =>
      intro m h
      rw [List.foldl_cons, h e (by simp)]
      exact ih m fun x hx => h x (by simp [hx])
  unfold Mod.serveChecked
  dsimp only
  rw [hkeep _ m hclean]
  refine if_neg ?_
  rw [List.any_eq_true]
  rintro ⟨e, he, hdouble⟩
  rw [hclean e he] at hdouble
  exact absurd hdouble (by decide)

/-- A double-bit error of the directory, which every read looks at, poisons the read. -/
theorem Mod.serveChecked_double (m : Mod) (r : Req) (b : Option Nat) {chk : Checks} (h : chk.dir = .double) :
    m.serveChecked chk r b =
      ((m.readChecks r chk).foldl (fun m e => m.eccMeets e.1 (r.line / 64) e.2) m).respond r (some .poison) :=
  if_pos (by simp [Mod.readChecks, h])

/-- A resident line over which nothing is laid is read at its frame. -/
theorem Mod.serveRead_resident {m : Mod} {r : Req} {b : Option Nat} {f : Nat} (hlaid : m.laid r.line = (0, 0)) (hsec : r.security < 2)
    (hway : m.wayOf (r.line / 64) = some f) (hfull : (m.frame f).f = false) {r' : Req} (hr : { r with mask := 0, data := 0, cell := none } = r')
    {m' : Mod} (hm : (m.setReq r'.id (fun _ => r')).happen 0x06 1 = m') (hpsn : m'.poisonAhead r.line r'.id = false)
    (hfind : m'.findLine (r.line / 64) (r.line % 64) = some f) :
    m.serveRead r b = (m'.setReq r'.id (fun y => { y with step := 5 })).access (.req r'.id) f r.line false := by
  have hfill : m.filling (r.line / 64) = false := by simp [Mod.filling, hway, hfull]
  have hway' (g : Req → Req) : (m.setReq r.id g).wayOf (r.line / 64) = some f := hway
  have hfull' (g : Req → Req) : ((m.setReq r.id g).frame f).f = false := hfull
  have hpart : ¬ (0 : Dword) = ~~~ 0 := by decide
  subst hr hm
  dsimp only at hpsn hfind
  unfold Mod.serveRead
  simp only [hfill, hlaid, Bool.false_eq_true, if_false, hway', hfull', Bool.not_false, if_true, hpsn, Nat.not_le.mpr hsec, decide_false,
    Bool.or_false, hpart, hfind]

/-! ### Writes -/

/-- A write has been looked up: a hit or a miss of its page is counted. -/
def Mod.writeSeen (m : Mod) (r : Req) : Mod :=
  m.happen (if (match m.wayOf (r.line / 64) with | some f => !(m.frame f).f | none => false) then 0x06 else 0x07) 1

section
variable {m : Mod} {r : Req} {b : Option Nat}

theorem Mod.serveWrite_placed (h : (m.writeSeen r).discardWhy r = none) : m.serveWrite r = (m.writeSeen r).placeWrite r := by
  show (match (m.writeSeen r).discardWhy r with | some w => (m.writeSeen r).discardWrite r w | none => (m.writeSeen r).placeWrite r) = _
  rw [h]

theorem Mod.serveWrite_discarded {w : Nat} (h : (m.writeSeen r).discardWhy r = some w) :
    m.serveWrite r = ((m.writeSeen r).countDiscard r.lp r.region w).respond r none := by
  show (match (m.writeSeen r).discardWhy r with | some w => (m.writeSeen r).discardWrite r w | none => (m.writeSeen r).placeWrite r) = _
  rw [h]
  rfl

theorem Mod.servePtl_go (h : (m.writeSeen r).discardWhy r = none) : m.servePtl r b = (m.writeSeen r).ptlGo r b := by
  show (match (m.writeSeen r).discardWhy r with | some w => (m.writeSeen r).discardWrite r w | none => (m.writeSeen r).ptlGo r b) = _
  rw [h]

theorem Mod.servePtl_discarded {w : Nat} (h : (m.writeSeen r).discardWhy r = some w) :
    m.servePtl r b = ((m.writeSeen r).countDiscard r.lp r.region w).respond r none := by
  show (match (m.writeSeen r).discardWhy r with | some w => (m.writeSeen r).discardWrite r w | none => (m.writeSeen r).ptlGo r b) = _
  rw [h]
  rfl

theorem Mod.ptlGo_opens (hfirst : m.fullAhead r.line r.id = false) (hp : r.wpoison = false) (hm : m.poisoned r.line = false) :
    m.ptlGo r b = m.openMerge r b := by
  simp [Mod.ptlGo, hfirst, hp, hm]

theorem Mod.ptlGo_waits (hlater : m.fullAhead r.line r.id = true) : m.ptlGo r b = m.ptlWait r := if_pos hlater

end

/-- Settles O9: a mapped request is stamped with what it named, and its kind and what it finds decide how it is served. -/
theorem mappedRequestsAreServed : Obligations.MappedRequestsAreServed := by
  intro s lp hpa n tag d be psn nt hs
  refine ⟨fun hn hhome => ⟨⟨?_, ?_, rfl, rfl, rfl, rfl, fun chk hchk => ⟨?_, ?_⟩, fun f hlaid hsec hway hfull hpsn hfind => ?_⟩, ?_⟩,
    fun hn hhome => ⟨⟨?_, rfl, rfl, rfl, fun hd => ?_, fun w hd => ?_⟩,
      ⟨?_, rfl, rfl, rfl, fun hd hfirst hp hm => ?_, fun hd hlater => ?_, fun w hd => ?_⟩⟩⟩
  · refine exec_of_op (·.memRead lp hpa tag.toNat {}) rfl ((Mod.arrive_home hs rfl hn hhome rfl).trans ?_)
    exact Mod.serveChecked_clean _ _ _
  · refine exec_of_op (·.memRead lp hpa tag.toNat {}) rfl ((Mod.arrive_home hs rfl hn hhome rfl).trans ?_)
    exact Mod.serveChecked_clean _ _ _
  · refine exec_of_op (·.memRead lp hpa tag.toNat chk) rfl ((Mod.arrive_home hs rfl hn hhome rfl).trans ?_)
    exact Mod.serveChecked_double _ _ _ hchk
  · refine exec_of_op (·.memRead lp hpa tag.toNat chk) rfl ((Mod.arrive_home hs rfl hn hhome rfl).trans ?_)
    exact Mod.serveChecked_double _ _ _ hchk
  · exact Mod.serveRead_resident hlaid hsec hway hfull rfl rfl hpsn hfind
  · exact exec_of_op (·.memInval lp hpa tag.toNat) rfl (Mod.arrive_home hs rfl hn hhome rfl)
  · exact exec_of_op (·.memWrite lp hpa tag.toNat d psn) rfl (Mod.arrive_home hs rfl hn hhome rfl)
  · exact Mod.serveWrite_placed hd
  · exact Mod.serveWrite_discarded hd
  · exact exec_of_op (·.memPartial lp hpa tag.toNat d be psn) rfl (Mod.arrive_home hs rfl hn hhome rfl)
  · refine Eq.trans (Mod.servePtl_go hd) ?_
    exact Mod.ptlGo_opens hfirst hp hm
  · refine Eq.trans (Mod.servePtl_go hd) ?_
    exact Mod.ptlGo_waits hlater
  · exact Mod.servePtl_discarded hd

end Sys2Proof.Machine
end

section
/-!
Time, frames and the on-chip memories' tests (R15–R32).
-/

namespace Sys2Proof.Machine

/-! ### Updates at one index -/

/-- An update depends on what it gives for the value at its index alone. -/
theorem Mod.setScr_congr (m : Mod) (i : Nat) {f g : Scr → Scr} (h : f (m.scr i) = g (m.scr i)) : m.setScr i f = m.setScr i g := by
  have h' : f (tget {} m.perf.scr i) = g (tget {} m.perf.scr i) := h
  rw [Mod.setScr, Mod.setScr, tmod, tmod, h']

theorem Mod.setIsl_congr (m : Mod) (i : Nat) {f g : Isl → Isl} (h : f (m.isl i) = g (m.isl i)) : m.setIsl i f = m.setIsl i g := by
  have h' : f (tget {} m.time.isl i) = g (tget {} m.time.isl i) := h
  rw [Mod.setIsl, Mod.setIsl, tmod, tmod, h']

/-- A value other than the reset value is read back, whatever stood in the table. -/
theorem Mod.isl_setIsl_ne (m : Mod) (i : Nat) (f : Isl → Isl) (h : f (m.isl i) ≠ {}) : (m.setIsl i f).isl i = f (m.isl i) :=
  tget_tput_self_ne _ _ _ _ h

theorem Mod.scr_setScr_ne (m : Mod) (i : Nat) (f : Scr → Scr) (h : f (m.scr i) ≠ {}) : (m.setScr i f).scr i = f (m.scr i) :=
  tget_tput_self_ne _ _ _ _ h

/-! ### Beacons and stalls -/

/-- An island's copy after a beacon that is heard and echoed. -/
def Isl.beaconed (drift : Int) (i : Isl) : Isl :=
  { i with off := drift, fixing := false, slew := true, missed := 0, echoMissed := 0, suspect := false }

/-- A beacon that is heard and echoed, and finds at most 2 ns of difference, ends what was missed. -/
theorem Mod.beaconAt_heard {m : Mod} {i : Nat} {drift : Int} (haon : m.pwr.aonReset = false) (hph : m.pwr.phase ≠ 0)
    (hmissed : (m.isl i).missed = 0) (hlo : -2 ≤ drift) (hhi : drift ≤ 2) :
    m.beaconAt i drift true true = m.setIsl i (Isl.beaconed drift) := by
  have hread : (m.setIsl i (Isl.beaconed drift)).isl i = (m.isl i).beaconed drift :=
    m.isl_setIsl_ne i _ fun h => Bool.noConfusion (congrArg Isl.slew h)
  have hmissed' : ((m.setIsl i (Isl.beaconed drift)).isl i).missed = 0 := by rw [hread]; rfl
  have hecho : ((m.setIsl i (Isl.beaconed drift)).isl i).echoMissed = 0 := by rw [hread]; rfl
  have hfound : (m.isl i).found drift = drift := (if_pos hmissed).trans (by omega)
  unfold Mod.beaconAt
  refine (if_neg (by simp [haon, hph])).trans ?_
  rw [m.setIsl_congr i (g := Isl.beaconed drift) (by simp [Isl.beaconed, hfound])]
  simp [hmissed', hecho]

/-- An island is recorded as stalled. -/
def Mod.stallSeen (m : Mod) (i : Nat) : Mod :=
  ((m.setIsl i (fun x => { x with stalled := true })).bump cTime).timeRec i 2 (m.isl i).echoMissed

section
variable {m : Mod} {i : Nat} (hs : (m.isl i).stalled = false)
include hs

theorem Mod.stallIsl_running (hev : m.per.evac.isSome = true) : m.stallIsl i = (m.stallSeen i).powerDown .m4 :=
  (if_neg (by simp [hs])).trans (if_pos hev)

theorem Mod.stallIsl_commits (hev : m.per.evac = none) :
    m.stallIsl i = if ((m.stallSeen i).evacCommit 4).per.evac.isSome then ((m.stallSeen i).evacCommit 4).evacIsl i
      else (m.stallSeen i).evacCommit 4 :=
  (if_neg (by simp [hs])).trans (if_neg (by simp [hev]))

end

/-! ### Memory tests -/

/-- A region that passes moves the walk on, and no memory has failed by it. -/
theorem Mod.backTest_passes {m : Mod} {mem : Nat} (hrate : bits (m.w mem 0x120004) 6 0 ≠ 0) (hnext : (m.scr mem).next + 1 ≠ scrRegions mem)
    (hok : (m.scr mem).failed = false) :
    m.backTest mem false = m.setScr mem (fun x => { x with region := (m.scr mem).next, next := (m.scr mem).next + 1 }) := by
  have htest : m.testRegion mem false = m.setScr mem (fun x => { x with region := (m.scr mem).next, next := (m.scr mem).next + 1 }) := by
    unfold Mod.testRegion
    refine (if_neg hrate).trans ((if_pos rfl).trans (m.setScr_congr mem ?_))
    simp [hnext]
  have hread := m.scr_setScr_ne mem (fun x => { x with region := (m.scr mem).next, next := (m.scr mem).next + 1 })
    fun h => absurd (congrArg Scr.next h) (Nat.succ_ne_zero _)
  unfold Mod.backTest
  rw [htest]
  refine if_neg ?_
  rw [hread, hok]
  decide

/-! ### O6 -/

/-- Settles O6: the frame's rest and its boundary; beacons and stalls by what their island missed; the PLL, the DTC's save, a key slot and a
memory region each once its condition holds. -/
theorem timeAndClockCommandsAnswer : Obligations.TimeAndClockCommandsAnswer := by
  refine ⟨fun s haon => ⟨?_, rfl, rfl, fun i drift hph hmissed hlo hhi => ?_, fun i hs => ?_, fun i hs => ⟨fun hev => ?_, fun hev hnone => ?_,
      fun hev hsome => ?_⟩⟩,
    fun s => ⟨fun ppb haon hlast => ?_, fun ppb t hlast hsoon => ?_, fun haon hph => ?_, fun n b k hfind hreqs hmerge => ?_,
      fun mem hon hrate hnext hok => ?_⟩⟩
  · exact exec_of_op (·.nextFrame) rfl (if_neg (by simp [haon]))
  · exact exec_of_op (·.beaconAt i drift true true) rfl (Mod.beaconAt_heard haon hph hmissed hlo hhi)
  · exact exec_of_op (fun m => if m.pwr.aonReset then m else m.suspectIsl i) rfl ((if_neg (by simp [haon])).trans (if_neg (by simp [hs])))
  · exact exec_of_op (fun m => if m.pwr.aonReset then m else m.stallIsl i) rfl
      ((if_neg (by simp [haon])).trans (Mod.stallIsl_running hs hev))
  · refine exec_of_op (fun m => if m.pwr.aonReset then m else m.stallIsl i) rfl ((if_neg (by simp [haon])).trans ?_)
    exact (Mod.stallIsl_commits hs hev).trans (if_neg (Bool.eq_false_iff.mp ((congrArg Option.isSome hnone).trans rfl)))
  · refine exec_of_op (fun m => if m.pwr.aonReset then m else m.stallIsl i) rfl ((if_neg (by simp [haon])).trans ?_)
    exact (Mod.stallIsl_commits hs hev).trans (if_pos hsome)
  · refine exec_of_op (·.pllAdjust ppb) rfl (if_neg ?_)
    cases hadj : s.m.time.lastAdj with
    | none => simp [haon]
    | some t => simpa [haon] using hlast t hadj
  · refine exec_of_op (·.pllAdjust ppb) rfl (if_pos ?_)
    simp [hlast, hsoon]
  · exact exec_of_op (·.dtcSave) rfl (if_neg (by simp [haon, hph]))
  · refine exec_of_op (·.slotDestroy n) rfl ?_
    unfold Mod.slotDestroy
    rw [hfind]
    exact if_neg (by simp [hreqs, hmerge])
  · exact exec_of_op (fun m => if m.coreOn then m.backTest mem false else m) rfl ((if_pos hon).trans (Mod.backTest_passes hrate hnext hok))

end Sys2Proof.Machine
end

section
/-!
Time that passes within a frame while nothing but hosts' requests and held responses can fall due: what is due at an instant, and the walk
over the instants (R39, R84, R85).
-/

namespace Sys2Proof.Machine

/-! ### What a Tally record leaves of the medium's reads -/

theorem Mod.newRow_reads {m m' : Mod} {wr : Writer} {b tagged : Bool} {seq : Nat} {grp : Option Nat} {r : Row}
    (h : m.newRow wr b tagged seq grp = some (r, m')) : m'.med.reads = m.med.reads := by
  obtain ⟨⟨k, m1⟩, h1, h2⟩ := Option.map_eq_some_iff.mp h
  obtain ⟨u, rfl⟩ := Mod.rowBlk_frame h1
  cases h2
  rfl

theorem Mod.writeMeta_reads (m : Mod) (wr : Writer) (seq : Nat) : (m.writeMeta wr seq).med.reads = m.med.reads := by
  unfold Mod.writeMeta
  split
  · next h =>
    have hreads := Mod.newRow_reads h
    split <;> exact hreads
  · split
    · next h =>
      have hreads := Mod.newRow_reads h
      split <;> exact hreads
    · rfl

theorem Mod.tallyFull_reads (m : Mod) : m.tallyFull.med.reads = m.med.reads := by
  unfold Mod.tallyFull Mod.tallyPage
  split
  · split
    · rfl
    · exact m.writeMeta_reads .tally _
  · rfl

theorem Mod.traceOut_reads (m : Mod) (seq : Nat) : (m.traceOut seq).med.reads = m.med.reads := by
  unfold Mod.traceOut
  split
  · dsimp only
    split <;> rfl
  · rfl

theorem Mod.tally_reads (m : Mod) (type src island : Nat) (payload : List Byte) :
    (m.tally type src island payload).med.reads = m.med.reads := by
  unfold Mod.tally Mod.tallyWith
  split
  · dsimp only
    rw [Mod.tallyFull_reads, Mod.traceOut_reads]
    unfold Mod.tallyLost
    split <;> rfl
  · rfl

/-! ### What a response, a poisoning and a discard leave -/

/-- A response that leaves changes the hosts' side and what leaves the module; what is held stays. -/
theorem Mod.send_frame (m : Mod) (r : Req) (a : Option Answer) :
    ∃ h o, m.send r a = { m with host := h, out := o } ∧ h.held = m.host.held := by
  unfold Mod.send Mod.returnCredit Mod.giveRwd Mod.giveReq
  dsimp only
  split_ifs <;> exact ⟨_, _, rfl, rfl⟩

/-- A response leaves, or is held. -/
theorem Mod.respond_frame (m : Mod) (r : Req) (a : Option Answer) :
    ∃ h o, m.respond r a = { m with host := h, out := o } ∧ ∀ x ∈ h.held, x ∈ m.host.held ∨ x.req = r := by
  unfold Mod.respond
  dsimp only
  split_ifs
  · obtain ⟨h, o, heq, hheld⟩ :=
      ({ m with host := { m.host with reqs := m.host.reqs.filter (fun x => x.id != r.id) } } : Mod).send_frame r a
    exact ⟨h, o, heq, fun x hx => Or.inl (hheld ▸ hx)⟩
  · refine ⟨_, m.out, rfl, fun x hx => ?_⟩
    rcases List.mem_append.mp hx with hx | hx
    · exact Or.inl hx
    · rw [List.mem_singleton.mp hx]
      exact Or.inr rfl

/-- The record of a late request. -/
def Mod.lateSeen (m : Mod) (r : Req) : Mod :=
  ((m.bump (cDpo r.lp)).happen 0x05 1).tally 6 r.lp (r.lp / 16)
    (leBytes 1 (match r.cls with | .tight => 0 | .pinned => 1 | .standard => 2 | .bulk => 3) ++ leBytes 1 r.op.isWrite.toNat ++
      leBytes 8 (r.line * 64) ++ leBytes 1 (m.lateStep r))

theorem Mod.lateSeen_kept (m : Mod) (r : Req) : TallyKept m (m.lateSeen r) :=
  TallyKept.trans ⟨_, _, _, _, _, _, rfl⟩ (Mod.tally_kept _ _ _ _ _)

theorem Mod.lateSeen_reads (m : Mod) (r : Req) : (m.lateSeen r).med.reads = m.med.reads := Mod.tally_reads _ _ _ _ _

/-- A late read is due to be answered with poison. -/
theorem Mod.poisonReq_read (m : Mod) {r : Req} (h : r.op.isWrite = false) :
    m.poisonReq r = (m.lateSeen r).setReq r.id (fun x => { x with late := true, answer := some .poison }) := by
  unfold Mod.poisonReq
  refine if_neg ?_
  rw [h]
  decide

/-- A late write is discarded, and leaves its LD viral where the host has enabled it. -/
theorem Mod.poisonReq_write (m : Mod) {r : Req} (h : r.op.isWrite = true) :
    m.poisonReq r = (((m.lateSeen r).dropReq r).setLp r.lp (fun l => { l with viral := l.viral || l.viralEn })).setAux r.lp
      (fun a => { a with wrLost := a.wrLost ++ [((m.lateSeen r).occ (cDpo r.lp)).cnt % 2 ^ 32] }) :=
  if_pos h

theorem Mod.portViral_cry (m : Mod) (p : Nat) : (m.portViral p).cry = m.cry := by
  unfold Mod.portViral
  exact foldl_keeps (·.cry) (fun m d => Mod.setLp_cry m (16 * p + d) _) (List.range 16) m

theorem Mod.heldDiscard_cry (m : Mod) (id : Nat) : (m.heldDiscard id).cry = m.cry := by
  unfold Mod.heldDiscard
  split
  · rfl
  · dsimp only
    split
    · rfl
    · rw [Mod.bump_cry, Mod.portViral_cry]
      split <;> rfl

/-! ### One instant -/

/-- Nothing but hosts' requests and held responses can fall due. -/
def Mod.Quiet (m : Mod) : Prop := m.lineAskers = [] ∧ m.cry.linger = [] ∧ m.twin.recs = [] ∧ m.med.reads = []

theorem Mod.Quiet.congr {m m' : Mod} (h : m.Quiet) (hfore : m'.fore = m.fore) (hdbg : m'.dbg = m.dbg) (hcry : m'.cry = m.cry)
    (htwin : m'.twin = m.twin) (hreads : m'.med.reads = m.med.reads) : m'.Quiet := by
  unfold Mod.Quiet Mod.lineAskers at *
  rwa [hfore, hdbg, hcry, htwin, hreads]

theorem Mod.Quiet.clockTo {m : Mod} (h : m.Quiet) (t : Nat) : (m.clockTo t).Quiet := h

theorem Mod.Quiet.lagStop {m : Mod} (h : m.Quiet) : m.lagStop = m := by
  obtain ⟨-, -, hrecs, -⟩ := h
  exact if_neg (by simp [Mod.lagNow, hrecs])

theorem Mod.Quiet.senseBooked {m : Mod} (h : m.Quiet) : m.senseBooked = m := by
  obtain ⟨-, -, -, hreads⟩ := h
  unfold Mod.senseBooked
  rw [hreads]
  rfl

/-- No cleared key slot waits for its destruction. -/
theorem Mod.linger_nil {m : Mod} (h : m.cry.linger = []) (p : Nat × Nat × Slot → Bool) :
    { m with cry := { m.cry with linger := m.cry.linger.filter p } } = m := by
  have hcry : ({ m.cry with linger := m.cry.linger.filter p } : CrySt) = m.cry := by rw [h, List.filter_nil, ← h]
  rw [hcry]

/-- The request is due at this instant. -/
def Mod.isDue (m : Mod) (r : Req) : Bool := !r.late && decide (r.deadline ≤ m.time.dtc + 20)

/-- An instant of a quiet module: late requests first, then poisoned responses, then held ones. -/
theorem Mod.expire_quiet {m m₁ m₂ m₃ : Mod} (hq : m.Quiet) (hack : m.host.reqs.any (fun r => m.isDue r && r.waitMsn.isSome) = false)
    (hlate : (m.host.reqs.filter m.isDue).foldl (fun m r => m.poisonReq r) m = m₁) (hsend : m₁.sendLate = m₂) (hask : m₂.lineAskers = [])
    (hheld : (m₂.host.held.filter (fun h => h.req.deadline < m₂.time.dtc)).foldl (fun m h => m.heldDiscard h.req.id) m₂ = m₃)
    (hlinger : m₃.cry.linger = []) : m.expire = m₃ := by
  have hack' : ¬ m.host.reqs.any (fun r => !r.late && decide (r.deadline ≤ m.time.dtc + 20) && r.waitMsn.isSome) = true :=
    Bool.eq_false_iff.mp hack
  have hlate' : (m.host.reqs.filter (fun r => !r.late && decide (r.deadline ≤ m.time.dtc + 20))).foldl (fun m r => m.poisonReq r) m = m₁ := hlate
  unfold Mod.expire
  dsimp only
  rw [if_neg hack', hq.lagStop, hq.senseBooked, hlate', hsend, hask]
  rw [List.filter_nil, List.foldl_nil, hheld, Mod.linger_nil hlinger]

/-! ### The walk -/

theorem Mod.passUntil_inFrame {m : Mod} {t : Nat} (haon : m.pwr.aonReset = false) (ht : t < m.nextB) : m.passUntil t = m.pass t := by
  simp [Mod.passUntil, haon, Mod.passFrames, Nat.not_le.mpr ht]

theorem Mod.passTo_last {m : Mod} {n t : Nat} (h : m.nextDue t = some t) : Mod.passTo n t m = (m.clockTo t).expire := by
  cases n with
  | zero => rfl
  | succ n => simp [Mod.passTo, h]

theorem Mod.passTo_step {m : Mod} {n t d : Nat} (h : m.nextDue t = some d) (hd : d ≠ t) :
    Mod.passTo (n + 1) t m = Mod.passTo n t (m.clockTo d).expire := by
  simp [Mod.passTo, h, hd]

/-- In a quiet module only requests and held responses have instants. -/
theorem Mod.Quiet.dues {m : Mod} (h : m.Quiet) : m.dues =
    m.host.reqs.map (fun r => if r.late then r.deadline else r.deadline - 20) ++ m.host.held.map (fun h => h.req.deadline + 1) := by
  obtain ⟨hask, hlinger, hrecs, hreads⟩ := h
  simp [Mod.dues, hask, hlinger, hrecs, hreads]

/-- One instant ahead is the next. -/
theorem Mod.nextDue_one {m : Mod} {t d : Nat} (h : m.dues = [d]) (hlo : m.time.dtc < d) (hhi : d ≤ t) : m.nextDue t = some d := by
  simp [Mod.nextDue, h, hlo, hhi]

theorem Mod.pass_ahead {m : Mod} {t : Nat} (ht : m.time.dtc < t) (n : Nat) (hn : m.passFuel = n) : m.pass t = Mod.passTo n t m :=
  hn ▸ if_pos ht

end Sys2Proof.Machine
end

section
/-!
Commands of the host ports (R36–R41, R46, R48, R56, R308, R352), and the discard of a held response (R39).
-/

namespace Sys2Proof.Machine

/-! ### Training and L1 -/

/-- What training gives a port. -/
def Mod.trainPort (m : Mod) (p : Nat) (t : Option Trained) (fails : Mod) : Mod :=
  match t with
  | some t => (m.setPort p (fun x => { x with width := t.width, rate := t.rate, reversed := t.reversed })).linkUpL0 p
  | none => fails

/-- Training of a port that was down leaves it down where it fails. -/
theorem Mod.linkTrain_training {m : Mod} {p : Nat} (hon : m.linksOn = true) (hp : (m.port p).perst = false)
    (hl : (m.port p).link = .training) (t : Option Trained) :
    m.linkTrain p t = m.trainPort p t (m.setPort p (fun x => { x with link := .down })) := by
  unfold Mod.linkTrain
  exact (if_neg (by simp [hl])).trans (if_pos (by simp [hl, hon, hp]))

/-- Training in Recovery takes the link down where it fails. -/
theorem Mod.linkTrain_recovery {m : Mod} {p : Nat} (hl : (m.port p).link = .recovery) (hon : m.linksOn = true)
    (hps : m.pwr.pstate ≠ 2) (t : Option Trained) : m.linkTrain p t = m.trainPort p t (m.linkDown p) := by
  unfold Mod.linkTrain
  exact if_pos (by simp [hl, hon, hps])

/-- R352: a port enters L1 while it has neither a request outstanding nor a response held. -/
theorem Mod.l1Enter_idle {m : Mod} {p : Nat} (hl : (m.port p).link = .l0) (hreqs : ∀ r ∈ m.host.reqs, r.lp / 16 ≠ p)
    (hheld : ∀ h ∈ m.host.held, h.req.lp / 16 ≠ p) : m.l1Enter p = m.setPort p (fun x => { x with link := .l1 }) := by
  unfold Mod.l1Enter
  refine if_pos ?_
  simpa [hl] using And.intro hreqs hheld

/-! ### Enables and GPF -/

section
variable {m : Mod} {l : Nat} {viral : Bool} (hl : (m.port (l / 16)).link = .l0) (hen : (m.lp l).enabled = false)
include hl hen

/-- R429: Memory Space Enable produces the record of a source that is pending and has not yet been produced for this host. -/
theorem Mod.memEnable_off : m.memEnable l viral =
    if (m.src l).pending && !(m.src l).done.testBit 0 then
      (m.setLp l (fun x => { x with enabled := true, viralEn := viral })).produce l 1
    else m.setLp l (fun x => { x with enabled := true, viralEn := viral }) := by
  unfold Mod.memEnable
  exact (if_neg (by simp [hen])).trans (if_pos hl)

end

theorem Mod.gpfCleaned_clean {m : Mod} {p : Nat} (hw : (m.port p).gpfWait = true)
    (hclean : ∀ e ∈ m.hop.frames, e.2.d = false ∨ e.2.imgHeld = true) (hpwq : m.hop.pwq = [])
    (hmerge : ∀ e ∈ m.hop.merge, e.acked = false) :
    m.gpfCleaned p = (m.setPort p (fun x => { x with gpfWait := false })).emit (.gpfDone p 2) := by
  have hframes : m.allClean = true := List.all_eq_true.mpr fun e he => by simpa using hclean e he
  have hacks : m.hop.merge.all (fun e => !e.acked) = true := List.all_eq_true.mpr fun e he => by simp [hmerge e he]
  exact if_pos (by simp [hw, hframes, hpwq, hacks])

/-! ### The discard of a held response -/

/-- A held response whose bound has passed is discarded. -/
theorem Mod.heldDiscard_past {m : Mod} {id : Nat} {h : Held} (hfind : m.host.held.find? (fun h => h.req.id = id) = some h)
    (hpast : h.req.deadline < m.time.dtc) : m.heldDiscard id =
      (let p := h.req.lp / 16
       let m' : Mod := { m with host := { m.host with held := m.host.held.filter (fun x => x.req.id != id) } }
       let m' := if h.req.free then m' else m'.setLp h.req.lp (fun l => l.countReq h.req.cls h.req.demoted (· - 1))
       (m'.portViral p).bump (cLdisc p)) := by
  unfold Mod.heldDiscard
  rw [hfind]
  exact if_neg (by simp [hpast])

/-- Where nothing but a held response falls due within the frame, its discard is all that happens. -/
theorem Mod.passUntil_discard {m : Mod} {h : Held} (hq : m.Quiet) (haon : m.pwr.aonReset = false) (hheld : m.host.held = [h])
    (hreqs : m.host.reqs = []) (hlo : m.time.dtc ≤ h.req.deadline) (hhi : h.req.deadline + 1 < m.nextB) :
    m.passUntil (h.req.deadline + 1) = (m.clockTo (h.req.deadline + 1)).heldDiscard h.req.id := by
  obtain ⟨hask, hlin, -, -⟩ := id hq
  have hdues : m.dues = [h.req.deadline + 1] := by simp [hq.dues, hreqs, hheld]
  have hnext := Mod.nextDue_one hdues (Nat.lt_succ_of_le hlo) (Nat.le_refl _)
  rw [Mod.passUntil_inFrame haon hhi, Mod.pass_ahead (Nat.lt_succ_of_le hlo) _ rfl, Mod.passTo_last hnext]
  have hreqs' : (m.clockTo (h.req.deadline + 1)).host.reqs = [] := hreqs
  have hheld' : (m.clockTo (h.req.deadline + 1)).host.held = [h] := hheld
  have hlinger : ((m.clockTo (h.req.deadline + 1)).heldDiscard h.req.id).cry.linger = [] := by
    rw [Mod.heldDiscard_cry]
    exact hlin
  refine Mod.expire_quiet (hq.clockTo _) (m₁ := m.clockTo (h.req.deadline + 1)) (m₂ := m.clockTo (h.req.deadline + 1)) ?_ ?_ ?_ hask ?_ hlinger
  · rw [hreqs']
    rfl
  · rw [hreqs']
    rfl
  · unfold Mod.sendLate
    rw [hreqs']
    rfl
  · have hdue : [h].filter (fun x => x.req.deadline < (m.clockTo (h.req.deadline + 1)).time.dtc) = [h] := by simp [Mod.clockTo]
    rw [hheld', hdue]
    rfl

/-- What RESPONSE_BOUND_DISCARD does: the held response's bound passes. -/
def Mod.discardAt (m : Mod) (id : Nat) : Mod :=
  match m.host.held.find? (fun h => h.req.id = id) with
  | some h => m.passUntil (h.req.deadline + 1)
  | none => m

theorem Mod.discardAt_some {m : Mod} {id : Nat} {h : Held} (hfind : m.host.held.find? (fun h => h.req.id = id) = some h) :
    m.discardAt id = m.passUntil (h.req.deadline + 1) := by
  unfold Mod.discardAt
  rw [hfind]

/-! ### O7 -/

/-- Settles O7: each command by the branch that its condition names; time passes to a held response's bound, and within a frame in which
nothing else falls due the discard is all that happens. -/
theorem hostPortCommandsAnswer : Obligations.HostPortCommandsAnswer := by
  refine ⟨fun s p => ⟨fun t hon hp hl => ?_, fun hon hp hl => ?_, fun hl => ?_, fun hl hon hps => ⟨fun t => ?_, ?_⟩, fun hl => ?_,
      fun hl hps hon => ?_, fun hl hreqs hheld => ?_, fun hl hps => ?_, fun hl hps => ?_⟩,
    fun s => ⟨fun p => rfl, fun p hp hon => ?_, fun lp => rfl, fun lp viral hl hen => ⟨fun hpend => ?_, fun hpend hdone => ?_⟩,
      fun lp dec base size ways gran pos skip hpos hbase hsize hl => ?_⟩,
    fun s => ⟨fun p n hl => ?_, fun lp hl => ?_, fun id h hfind => ⟨?_, fun hpast => Mod.heldDiscard_past hfind hpast,
        fun haon hheld hreqs hask hlinger hrecs hreads hlo hhi => ?_⟩,
      fun p hl => ?_, fun p hl hb => ?_, fun p hl hb => ?_, fun p hw hclean hpwq hmerge => ?_⟩⟩
  · exact exec_of_op (·.linkTrain p (some t)) rfl (Mod.linkTrain_training hon hp hl _)
  · exact exec_of_op (·.linkTrain p none) rfl (Mod.linkTrain_training hon hp hl _)
  · exact exec_of_op (·.linkLeave p false) rfl (if_pos hl)
  · exact exec_of_op (·.linkTrain p (some t)) rfl (Mod.linkTrain_recovery hl hon hps _)
  · exact exec_of_op (·.linkTrain p none) rfl (Mod.linkTrain_recovery hl hon hps _)
  · exact exec_of_op (·.linkLeave p true) rfl (if_neg hl)
  · exact exec_of_op (·.linkReturn p) rfl (if_pos (by simp [hl, hps, hon]))
  · exact exec_of_op (·.l1Enter p) rfl (Mod.l1Enter_idle hl hreqs hheld)
  · exact exec_of_op (·.l1Exit p) rfl ((if_pos hl).trans (if_neg hps))
  · exact exec_of_op (·.l1Exit p) rfl ((if_pos hl).trans (if_pos hps))
  · refine exec_of_op (·.portRelease p) rfl ((if_pos hp).trans ?_)
    rw [hon]
    rfl
  · exact exec_of_op (·.memEnable lp viral) rfl ((Mod.memEnable_off hl hen).trans (if_neg (by simp [hpend])))
  · exact exec_of_op (·.memEnable lp viral) rfl ((Mod.memEnable_off hl hen).trans (if_pos (by simp [hpend, hdone])))
  · exact exec_of_op (·.hdmCommit lp dec base size ways gran pos skip) rfl (if_pos (by simp [hpos, hbase, hsize, hl]))
  · exact exec_of_op (fun m => if (m.port p).link = .l0 || (m.port p).link = .recovery then
      m.setPort p (fun x => { x with replay := x.replay + n }) else m) rfl (if_pos (by simp [hl]))
  · exact exec_of_op (fun m => if (m.port (lp / 16)).link = .l0 then
      (m.setAux lp (fun a => { a with proto := a.proto + 1 })).emit (.aer lp) else m) rfl (if_pos hl)
  · refine exec_of_op (·.discardAt id) rfl ?_
    exact Mod.discardAt_some hfind
  · refine exec_of_op (·.discardAt id) rfl ((Mod.discardAt_some hfind).trans ?_)
    have hid : h.req.id = id := by simpa using List.find?_some hfind
    exact hid ▸ Mod.passUntil_discard ⟨hask, hlinger, hrecs, hreads⟩ haon hheld hreqs hlo hhi
  · exact exec_of_op (fun m => if (m.port p).link = .l0 then m.emit (.gpfDone p 1) else m) rfl (if_pos hl)
  · exact exec_of_op (·.gpf2 p) rfl ((if_pos hl).trans (if_neg hb))
  · exact exec_of_op (·.gpf2 p) rfl ((if_pos hl).trans (if_pos hb))
  · exact exec_of_op (·.gpfCleaned p) rfl (Mod.gpfCleaned_clean hw hclean hpwq hmerge)

end Sys2Proof.Machine
end

section
/-!
Late requests (R84, R85, R224): the decision 20 ns before the deadline, and the poisoned response that leaves at it.
-/

namespace Sys2Proof.Machine

/-- A late read, due to be answered with poison. -/
def Req.lateRead (r : Req) : Req := { r with late := true, answer := some .poison }

/-- The only request outstanding, if it is a read, stays to be answered with poison; no instant is added but its deadline. -/
theorem Mod.poisonReq_alone {m : Mod} {r : Req} (hreqs : m.host.reqs = [r]) (hop : r.op = .read) :
    (m.poisonReq r).host.reqs = [r.lateRead] ∧ (m.poisonReq r).host.held = m.host.held ∧ (m.poisonReq r).time = m.time ∧
      (m.Quiet → (m.poisonReq r).Quiet) := by
  have hreads := m.lateSeen_reads r
  obtain ⟨u, d, e, p, t, o, h⟩ := m.lateSeen_kept r
  rw [h] at hreads
  rw [Mod.poisonReq_read m (by rw [hop]; rfl), h]
  refine ⟨?_, rfl, rfl, fun hq => hq.congr rfl rfl rfl rfl hreads⟩
  exact (congrArg (lmod _ _) hreqs).trans (by simp [lmod, Req.lateRead])

section
variable {m : Mod} {r : Req} (hq : m.Quiet) (hheld : m.host.held = [])
include hq hheld

/-- R84: 20 ns before the deadline of the only request, a read, it is decided, and nothing else happens. -/
theorem Mod.expire_poisons (hreqs : m.host.reqs = [r]) (hop : r.op = .read) (hlate : r.late = false) (hack : r.waitMsn = none)
    (hnow : m.time.dtc + 20 = r.deadline) : m.expire = m.poisonReq r := by
  obtain ⟨hreqs', hheld', htime, hquiet⟩ := Mod.poisonReq_alone hreqs hop
  obtain ⟨hask, hlinger, -, -⟩ := hquiet hq
  have hdue : [r].filter m.isDue = [r] := by simp [Mod.isDue, hlate, hnow]
  have hearly : ¬ r.deadline ≤ m.time.dtc := by omega
  refine Mod.expire_quiet hq (by simp [hreqs, hack]) (m₁ := m.poisonReq r) ?_ ?_ hask ?_ hlinger
  · rw [hreqs, hdue]
    rfl
  · unfold Mod.sendLate
    rw [hreqs', htime]
    simp [Req.lateRead, hearly]
  · rw [hheld', hheld]
    rfl

/-- R84: at its deadline the poisoned response of the only request leaves, and nothing else happens. -/
theorem Mod.expire_answers (hreqs : m.host.reqs = [r.lateRead]) (hnow : m.time.dtc = r.deadline) :
    m.expire = m.respond r.lateRead (some .poison) := by
  obtain ⟨h, o, heq, hold⟩ := m.respond_frame r.lateRead (some .poison)
  obtain ⟨hask, hlinger, -, -⟩ := id hq
  have hdue : [r.lateRead].filter m.isDue = [] := by simp [Mod.isDue, Req.lateRead]
  refine Mod.expire_quiet hq (by simp [hreqs, Mod.isDue, Req.lateRead]) (m₁ := m) ?_ (m₂ := m.respond r.lateRead (some .poison)) ?_ ?_ ?_ ?_
  · rw [hreqs, hdue]
    rfl
  · unfold Mod.sendLate
    rw [hreqs]
    simp [Req.lateRead, hnow]
  · rw [heq]
    exact hask
  · have hnone : h.held.filter (fun x => x.req.deadline < m.time.dtc) = [] := by
      refine List.filter_eq_nil_iff.mpr fun x hx => ?_
      rcases hold x hx with hx | hx
      · rw [hheld] at hx
        cases hx
      · simp [hx, Req.lateRead, hnow]
    rw [heq]
    exact (congrArg (List.foldl _ _) hnone).trans rfl
  · rw [heq]
    exact hlinger

/-- Where nothing but a read falls due within the frame, its poisoned response is all that happens up to its deadline. -/
theorem Mod.passUntil_lateRead (haon : m.pwr.aonReset = false) (hreqs : m.host.reqs = [r]) (hop : r.op = .read)
    (hlate : r.late = false) (hack : r.waitMsn = none) (hlo : m.time.dtc + 20 < r.deadline) (hhi : r.deadline < m.nextB) :
    m.passUntil r.deadline =
      (((m.clockTo (r.deadline - 20)).poisonReq r).clockTo r.deadline).respond r.lateRead (some .poison) := by
  have hdues : m.dues = [r.deadline - 20] := by simp [hq.dues, hreqs, hheld, hlate]
  have hdue := Mod.nextDue_one (t := r.deadline) hdues (by omega) (Nat.sub_le _ _)
  have hfuel : m.passFuel = 10 + 1 := by simp [Mod.passFuel, hdues]
  obtain ⟨hreqs', hheld', htime, hquiet⟩ := Mod.poisonReq_alone (m := m.clockTo (r.deadline - 20)) hreqs hop
  have hdec : (m.clockTo (r.deadline - 20)).expire = (m.clockTo (r.deadline - 20)).poisonReq r :=
    Mod.expire_poisons (hq.clockTo _) hheld hreqs hop hlate hack (Nat.sub_add_cancel (by omega))
  have hheld₁ : ((m.clockTo (r.deadline - 20)).poisonReq r).host.held = [] := hheld'.trans hheld
  have hq₁ := hquiet (hq.clockTo _)
  have hdues₁ : ((m.clockTo (r.deadline - 20)).poisonReq r).dues = [r.deadline] := by
    simp [hq₁.dues, hreqs', hheld₁, Req.lateRead]
  have hnow₁ : ((m.clockTo (r.deadline - 20)).poisonReq r).time.dtc = r.deadline - 20 := congrArg TimeSt.dtc htime
  have hdue₁ := Mod.nextDue_one (t := r.deadline) hdues₁ (by omega) (Nat.le_refl _)
  rw [Mod.passUntil_inFrame haon hhi, Mod.pass_ahead (by omega) _ hfuel, Mod.passTo_step hdue (by omega), hdec, Mod.passTo_last hdue₁]
  exact Mod.expire_answers (hq₁.clockTo _) hheld₁ hreqs' rfl

end

/-! ### O10 -/

/-- What DEADLINE_POISON and SYNC_ACK_LATE do: the time `t` of the request passes where it is one that they wait for. -/
def Mod.lateAt (m : Mod) (id : Nat) (waits : Req → Bool) (t : Req → Nat) : Mod :=
  match m.reqById id with
  | some r => if waits r then m.passUntil (t r) else m
  | none => m

theorem Mod.lateAt_some {m : Mod} {id : Nat} {r : Req} (h : m.reqById id = some r) (waits : Req → Bool) (t : Req → Nat) :
    m.lateAt id waits t = if waits r then m.passUntil (t r) else m := by
  unfold Mod.lateAt
  rw [h]

/-- Settles O10: the commands pass time to the request's instants; what happens there stands in `Mod.poisonReq_read`,
`Mod.poisonReq_write` and `Mod.passUntil_lateRead`. -/
theorem lateRequestCommandsAnswer : Obligations.LateRequestCommandsAnswer := by
  intro s id r hr
  have hdeadline : exec (.deadlinePoison id) s = answers s (s.m.passUntil r.deadline) :=
    exec_of_op (·.lateAt id (fun _ => true) Req.deadline) rfl ((Mod.lateAt_some hr _ _).trans (if_pos rfl))
  refine ⟨hdeadline, fun hw => ?_, fun hw => ?_, ⟨Mod.poisonReq_read s.m, Mod.poisonReq_write s.m⟩, fun hp => if_pos hp,
    fun haon hreqs hid hop hack hheld hask hlinger hrecs hreads hlo hhi => ?_⟩
  · exact exec_of_op (·.lateAt id (·.waitMsn.isSome) (·.deadline - 20)) rfl ((Mod.lateAt_some hr _ _).trans (if_pos hw))
  · exact exec_of_op (·.lateAt id (·.waitMsn.isSome) (·.deadline - 20)) rfl ((Mod.lateAt_some hr _ _).trans (if_neg (by simp [hw])))
  · obtain ⟨-, hlate⟩ : r.id = id ∧ r.late = false := by simpa using List.find?_some hr
    exact hdeadline.trans (congrArg (answers s)
      (Mod.passUntil_lateRead ⟨hask, hlinger, hrecs, hreads⟩ hheld haon hreqs hop hlate hack hlo hhi))

end Sys2Proof.Machine
end
